-- ==== Sys2Proof/Syntax.lean ====
section
/-!
DEFINITION. The one syntax of the machine's acts: an instruction constructor for each word row of the opcode table
(R209 to R211), with the fields of its format (R200, R207) as the bits the word holds, and an event constructor for each
act of another unit or outside party (spec/95_what_each_step_holds.md), with the operands that say which unit acts and
what the outside party answers. Each docstring names the rule of the spec.
-/

namespace Sys2Proof

/-- One indivisible step of the part. -/
inductive Instr where
  /-- IADD (R224). -/
  | iadd (n : Bool) (d a b : BitVec 8)
  /-- ISUB (R224). -/
  | isub (n : Bool) (d a b : BitVec 8)
  /-- IMUL (R224). -/
  | imul (n : Bool) (d a b : BitVec 8)
  /-- IMULH (R224). -/
  | imulh (n : Bool) (d a b : BitVec 8)
  /-- IMAD (R224). -/
  | imad (n : Bool) (d a b : BitVec 8)
  /-- IMIN (R224). -/
  | imin (n : Bool) (d a b : BitVec 8)
  /-- IMAX (R224). -/
  | imax (n : Bool) (d a b : BitVec 8)
  /-- IABS (R224). -/
  | iabs (n : Bool) (d a : BitVec 8)
  /-- ICMP (R225). -/
  | icmp (c p : BitVec 3) (a b : BitVec 8)
  /-- LEA (R226). -/
  | lea (n : Bool) (d a b : BitVec 8)
  /-- ADDI (R224). -/
  | addi (n : Bool) (d : BitVec 8) (i : BitVec 16)
  /-- MOVI (R227). -/
  | movi (n : Bool) (d : BitVec 8) (i : BitVec 16)
  /-- MOVHI (R227). -/
  | movhi (n : Bool) (d : BitVec 8) (i : BitVec 16)
  /-- AND (R228). -/
  | and (n : Bool) (d a b : BitVec 8)
  /-- OR (R228). -/
  | or (n : Bool) (d a b : BitVec 8)
  /-- XOR (R228). -/
  | xor (n : Bool) (d a b : BitVec 8)
  /-- NOT (R228). -/
  | not (n : Bool) (d a : BitVec 8)
  /-- SHL (R229). -/
  | shl (n : Bool) (d a b : BitVec 8)
  /-- SHR (R229). -/
  | shr (n : Bool) (d a b : BitVec 8)
  /-- POPC (R230). -/
  | popc (n : Bool) (d a : BitVec 8)
  /-- CLZ (R230). -/
  | clz (n : Bool) (d a : BitVec 8)
  /-- MOV (R231). -/
  | mov (n : Bool) (d a : BitVec 8)
  /-- RDLANE (R232). -/
  | rdlane (n : Bool) (d a b : BitVec 8)
  /-- SHFL (R233). -/
  | shfl (n : Bool) (d a b : BitVec 8)
  /-- SHFLX (R233). -/
  | shflx (n : Bool) (d a b : BitVec 8)
  /-- BALLOT (R234). -/
  | ballot (n : Bool) (d a : BitVec 8)
  /-- VOTE (R235). -/
  | vote (o : BitVec 2) (p : BitVec 3) (a : BitVec 8)
  /-- PLOP (R236). -/
  | plop (o : BitVec 2) (p : BitVec 3) (a b : BitVec 8)
  /-- MOVP (R237). -/
  | movp (n : Bool) (d : BitVec 8)
  /-- FADD (R274). -/
  | fadd (n : Bool) (d a b : BitVec 8)
  /-- FSUB (R274). -/
  | fsub (n : Bool) (d a b : BitVec 8)
  /-- FMUL (R274). -/
  | fmul (n : Bool) (d a b : BitVec 8)
  /-- FFMA (R274). -/
  | ffma (n : Bool) (d a b : BitVec 8)
  /-- FDIV (R274). -/
  | fdiv (n : Bool) (d a b : BitVec 8)
  /-- FSQRT (R274). -/
  | fsqrt (n : Bool) (d a : BitVec 8)
  /-- FMIN (R275). -/
  | fmin (n : Bool) (d a b : BitVec 8)
  /-- FMAX (R275). -/
  | fmax (n : Bool) (d a b : BitVec 8)
  /-- FABS (R276). -/
  | fabs (n : Bool) (d a : BitVec 8)
  /-- FNEG (R276). -/
  | fneg (n : Bool) (d a : BitVec 8)
  /-- FCMP (R277). -/
  | fcmp (c p : BitVec 3) (a b : BitVec 8)
  /-- FCLASS (R278). -/
  | fclass (n : Bool) (d a : BitVec 8)
  /-- FRCP (R279). -/
  | frcp (n : Bool) (d a : BitVec 8)
  /-- FRSQ (R279). -/
  | frsq (n : Bool) (d a : BitVec 8)
  /-- FEXP2 (R279). -/
  | fexp2 (n : Bool) (d a : BitVec 8)
  /-- FLOG2 (R279). -/
  | flog2 (n : Bool) (d a : BitVec 8)
  /-- FSIN (R279). -/
  | fsin (n : Bool) (d a : BitVec 8)
  /-- FCOS (R279). -/
  | fcos (n : Bool) (d a : BitVec 8)
  /-- DOT2 (R281). -/
  | dot2 (n : Bool) (d a b : BitVec 8)
  /-- DOT4 (R281). -/
  | dot4 (n : Bool) (d a b : BitVec 8)
  /-- DOT8 (R281). -/
  | dot8 (n : Bool) (d a b : BitVec 8)
  /-- SETMODE (R239). -/
  | setmode (e : BitVec 4) (g : BitVec 16)
  /-- GETMODE (R240). -/
  | getmode (n : Bool) (d : BitVec 8)
  /-- MFS (R241). -/
  | mfs (n : Bool) (d r : BitVec 8)
  /-- MTS (R242). -/
  | mts (s : BitVec 8) (i : BitVec 16)
  /-- BRA (R246). -/
  | bra (o : BitVec 14) (j : BitVec 11)
  /-- CALL (R249). -/
  | call (o : BitVec 25)
  /-- JOIN (R247). -/
  | join
  /-- BRX (R248). -/
  | brx (s : BitVec 8) (j : BitVec 16)
  /-- CALLI (R250). -/
  | calli (a : BitVec 8)
  /-- RET (R252). -/
  | ret
  /-- EXIT (R253). -/
  | exit
  /-- LD (R257). -/
  | ld (n : Bool) (d : BitVec 8) (k : BitVec 5) (o : BitVec 8) (i : BitVec 3)
  /-- ST (R257). -/
  | st (s : BitVec 8) (k : BitVec 5) (o : BitVec 8) (i : BitVec 3)
  /-- LDS (R256). -/
  | lds (n : Bool) (d : BitVec 8) (k : BitVec 5) (o : BitVec 8) (i : BitVec 3)
  /-- STS (R256). -/
  | sts (s : BitVec 8) (k : BitVec 5) (o : BitVec 8) (i : BitVec 3)
  /-- LDP (R256). -/
  | ldp (n : Bool) (d : BitVec 8) (k : BitVec 5) (o : BitVec 8) (i : BitVec 3)
  /-- STP (R256). -/
  | stp (s : BitVec 8) (k : BitVec 5) (o : BitVec 8) (i : BitVec 3)
  /-- LDT (R260). -/
  | ldt (n : Bool) (d : BitVec 8) (k : BitVec 5) (v : BitVec 8) (h : BitVec 3)
  /-- STT (R260). -/
  | stt (s : BitVec 8) (k : BitVec 5) (v : BitVec 8) (h : BitVec 3)
  /-- ATOM_ADD (R261). -/
  | atomAdd (n : Bool) (d : BitVec 8) (k : BitVec 5) (o : BitVec 8) (c : BitVec 3)
  /-- ATOM_MIN (R261). -/
  | atomMin (n : Bool) (d : BitVec 8) (k : BitVec 5) (o : BitVec 8) (c : BitVec 3)
  /-- ATOM_MAX (R261). -/
  | atomMax (n : Bool) (d : BitVec 8) (k : BitVec 5) (o : BitVec 8) (c : BitVec 3)
  /-- ATOM_AND (R261). -/
  | atomAnd (n : Bool) (d : BitVec 8) (k : BitVec 5) (o : BitVec 8) (c : BitVec 3)
  /-- ATOM_OR (R261). -/
  | atomOr (n : Bool) (d : BitVec 8) (k : BitVec 5) (o : BitVec 8) (c : BitVec 3)
  /-- ATOM_XOR (R261). -/
  | atomXor (n : Bool) (d : BitVec 8) (k : BitVec 5) (o : BitVec 8) (c : BitVec 3)
  /-- ATOM_XCHG (R261). -/
  | atomXchg (n : Bool) (d : BitVec 8) (k : BitVec 5) (o : BitVec 8) (c : BitVec 3)
  /-- ATOM_CAS (R261). -/
  | atomCas (n : Bool) (d : BitVec 8) (k : BitVec 5) (o : BitVec 8) (c : BitVec 3)
  /-- RED_ADD (R264). -/
  | redAdd (s : BitVec 8) (k : BitVec 5) (o : BitVec 8) (c : BitVec 3)
  /-- RED_MIN (R264). -/
  | redMin (s : BitVec 8) (k : BitVec 5) (o : BitVec 8) (c : BitVec 3)
  /-- RED_MAX (R264). -/
  | redMax (s : BitVec 8) (k : BitVec 5) (o : BitVec 8) (c : BitVec 3)
  /-- RED_AND (R264). -/
  | redAnd (s : BitVec 8) (k : BitVec 5) (o : BitVec 8) (c : BitVec 3)
  /-- RED_OR (R264). -/
  | redOr (s : BitVec 8) (k : BitVec 5) (o : BitVec 8) (c : BitVec 3)
  /-- RED_XOR (R264). -/
  | redXor (s : BitVec 8) (k : BitVec 5) (o : BitVec 8) (c : BitVec 3)
  /-- MMA (R296). -/
  | mma (n : Bool) (d a b : BitVec 8)
  /-- MMAD (R297). -/
  | mmad (n : Bool) (d a b : BitVec 8)
  /-- MMADG (R298). -/
  | mmadg (n : Bool) (d a b : BitVec 8)
  /-- MMADW (R299). -/
  | mmadw (n : Bool) (d a b : BitVec 8)
  /-- RAST (R305). -/
  | rast (n : Bool) (d a b : BitVec 8)
  /-- TEX (R315). -/
  | tex (n : Bool) (d a b : BitVec 8)
  /-- TEXG (R316). -/
  | texg (n : Bool) (d a b : BitVec 8)
  /-- RAYQ (R317). -/
  | rayq (n : Bool) (d a b : BitVec 8)
  /-- TRACE (R318). -/
  | trace (n : Bool) (d a b : BitVec 8)
  /-- LUPD (R323). -/
  | lupd (d a b : BitVec 8)
  /-- TBINIT (R336). -/
  | tbinit (d a b : BitVec 8)
  /-- TBTEST (R336). -/
  | tbtest (n : Bool) (d a b : BitVec 8)
  /-- CVT_F32_F64 (R283). -/
  | cvtF32F64 (r : BitVec 2) (a b : BitVec 8)
  /-- CVT_F64_F32 (R283). -/
  | cvtF64F32 (r : BitVec 2) (a b : BitVec 8)
  /-- CVT_F32_H16 (R283). -/
  | cvtF32H16 (r : BitVec 2) (a b : BitVec 8)
  /-- CVT_H16_F32 (R283). -/
  | cvtH16F32 (r : BitVec 2) (a b : BitVec 8)
  /-- CVT_F32_W16 (R283). -/
  | cvtF32W16 (r : BitVec 2) (a b : BitVec 8)
  /-- CVT_W16_F32 (R283). -/
  | cvtW16F32 (r : BitVec 2) (a b : BitVec 8)
  /-- CVT_F32_S32 (R283). -/
  | cvtF32S32 (r : BitVec 2) (a b : BitVec 8)
  /-- CVT_F32_Z32 (R283). -/
  | cvtF32Z32 (r : BitVec 2) (a b : BitVec 8)
  /-- CVT_S32_F32 (R283). -/
  | cvtS32F32 (r : BitVec 2) (a b : BitVec 8)
  /-- CVT_Z32_F32 (R283). -/
  | cvtZ32F32 (r : BitVec 2) (a b : BitVec 8)
  /-- CVT_F64_S64 (R283). -/
  | cvtF64S64 (r : BitVec 2) (a b : BitVec 8)
  /-- CVT_F64_Z64 (R283). -/
  | cvtF64Z64 (r : BitVec 2) (a b : BitVec 8)
  /-- CVT_S64_F64 (R283). -/
  | cvtS64F64 (r : BitVec 2) (a b : BitVec 8)
  /-- CVT_Z64_F64 (R283). -/
  | cvtZ64F64 (r : BitVec 2) (a b : BitVec 8)
  /-- CVT_F64_S32 (R283). -/
  | cvtF64S32 (r : BitVec 2) (a b : BitVec 8)
  /-- CVT_S32_F64 (R283). -/
  | cvtS32F64 (r : BitVec 2) (a b : BitVec 8)
  /-- CVT_F32_S64 (R283). -/
  | cvtF32S64 (r : BitVec 2) (a b : BitVec 8)
  /-- CVT_S64_F32 (R283). -/
  | cvtS64F32 (r : BitVec 2) (a b : BitVec 8)
  /-- CVT_Q8_F32 (R283). -/
  | cvtQ8F32 (r : BitVec 2) (a b : BitVec 8)
  /-- CVT_F32_Q8 (R283). -/
  | cvtF32Q8 (r : BitVec 2) (a b : BitVec 8)
  /-- CVT_Q6_F32 (R283). -/
  | cvtQ6F32 (r : BitVec 2) (a b : BitVec 8)
  /-- CVT_F32_Q6 (R283). -/
  | cvtF32Q6 (r : BitVec 2) (a b : BitVec 8)
  /-- CVT_Q4_F32 (R283). -/
  | cvtQ4F32 (r : BitVec 2) (a b : BitVec 8)
  /-- CVT_F32_Q4 (R283). -/
  | cvtF32Q4 (r : BitVec 2) (a b : BitVec 8)
  /-- CVT_S8_S32 (R283). -/
  | cvtS8S32 (r : BitVec 2) (a b : BitVec 8)
  /-- CVT_Z8_Z32 (R283). -/
  | cvtZ8Z32 (r : BitVec 2) (a b : BitVec 8)
  /-- CVT_S16_S32 (R283). -/
  | cvtS16S32 (r : BitVec 2) (a b : BitVec 8)
  /-- CVT_Z16_Z32 (R283). -/
  | cvtZ16Z32 (r : BitVec 2) (a b : BitVec 8)
  /-- CVT_S64_S32 (R283). -/
  | cvtS64S32 (r : BitVec 2) (a b : BitVec 8)
  /-- CVT_Z64_Z32 (R283). -/
  | cvtZ64Z32 (r : BitVec 2) (a b : BitVec 8)
  /-- CVT_S32_S64 (R283). -/
  | cvtS32S64 (r : BitVec 2) (a b : BitVec 8)
  /-- CVT_Z32_Z64 (R283). -/
  | cvtZ32Z64 (r : BitVec 2) (a b : BitVec 8)
  /-- PACK_H16 (R284). -/
  | packH16 (r : BitVec 2) (a b : BitVec 8)
  /-- UNPACK_H16 (R284). -/
  | unpackH16 (a b : BitVec 8)
  /-- PACK_W16 (R284). -/
  | packW16 (r : BitVec 2) (a b : BitVec 8)
  /-- UNPACK_W16 (R284). -/
  | unpackW16 (a b : BitVec 8)
  /-- PACK_Q8 (R284). -/
  | packQ8 (r : BitVec 2) (a b : BitVec 8)
  /-- UNPACK_Q8 (R284). -/
  | unpackQ8 (a b : BitVec 8)
  /-- PACK_Q6 (R284). -/
  | packQ6 (r : BitVec 2) (a b : BitVec 8)
  /-- UNPACK_Q6 (R284). -/
  | unpackQ6 (a b : BitVec 8)
  /-- PACK_Q4 (R284). -/
  | packQ4 (r : BitVec 2) (a b : BitVec 8)
  /-- UNPACK_Q4 (R284). -/
  | unpackQ4 (a b : BitVec 8)
  /-- PACK_S8 (R284). -/
  | packS8 (a b : BitVec 8)
  /-- UNPACK_S8 (R284). -/
  | unpackS8 (a b : BitVec 8)
  /-- PACK_Z8 (R284). -/
  | packZ8 (a b : BitVec 8)
  /-- UNPACK_Z8 (R284). -/
  | unpackZ8 (a b : BitVec 8)
  /-- PACK_S4 (R284). -/
  | packS4 (a b : BitVec 8)
  /-- UNPACK_S4 (R284). -/
  | unpackS4 (a b : BitVec 8)
  /-- PACK_Z4 (R284). -/
  | packZ4 (a b : BitVec 8)
  /-- UNPACK_Z4 (R284). -/
  | unpackZ4 (a b : BitVec 8)
  /-- TCOPY (R330). -/
  | tcopy (a : BitVec 8)
  /-- TCOPYS (R330). -/
  | tcopys (a : BitVec 8)
  /-- TREDUCE (R332). -/
  | treduce (a : BitVec 8)
  /-- BIND (R333). -/
  | bind (a : BitVec 8)
  /-- UNBIND (R334). -/
  | unbind (a : BitVec 8)
  /-- WAITC (R335). -/
  | waitc (c : BitVec 3) (t : BitVec 6)
  /-- TBEXPECT (R336). -/
  | tbexpect (a b : BitVec 8)
  /-- TBARRIVE (R336). -/
  | tbarrive (a : BitVec 8)
  /-- TBWAIT (R336). -/
  | tbwait (a b : BitVec 8)
  /-- BAR (R337). -/
  | bar (c : BitVec 3) (m : BitVec 4)
  /-- GBAR (R337). -/
  | gbar
  /-- BACKOFF (R338). -/
  | backoff
  /-- FENCE (R266). -/
  | fence (s : BitVec 3)
  /-- FENCE_RP (R267). -/
  | fenceRp (s : BitVec 3) (a : BitVec 8)
  /-- SPTEST (R268). -/
  | sptest (d b : BitVec 8)
  /-- SPCAST (R269). -/
  | spcast (c : BitVec 3) (d b : BitVec 8)
  /-- SPCAST_OFF (R270). -/
  | spcastOff (c : BitVec 3) (d b : BitVec 8)
  /-- SYSFLUSH (R271). -/
  | sysflush (a b : BitVec 8)
  /-- SYSINV (R271). -/
  | sysinv (a b : BitVec 8)
  /-- MLDN (R291). -/
  | mldn (a b : BitVec 8)
  /-- MLDW (R291). -/
  | mldw (a b : BitVec 8)
  /-- CURVE (R300). -/
  | curve (s : BitVec 3) (b : BitVec 8)
  /-- BMAP (R300). -/
  | bmap (b : BitVec 8)
  /-- DTEST (R311). -/
  | dtest (p : BitVec 3) (a b : BitVec 8)
  /-- BLEND (R312). -/
  | blend (o : BitVec 3) (a b : BitVec 8)
  /-- PSTORE (R313). -/
  | pstore (l : BitVec 3) (a b : BitVec 8)
  /-- RESID (R319). -/
  | resid (a : BitVec 8)
  /-- EVPOP (R321). -/
  | evpop (d b : BitVec 8)
  /-- SVC (R339). -/
  | svc (w : Bool) (h l : BitVec 8)
  /-- ASSERT (R343). -/
  | assert (a : BitVec 8)
  /-- TRAP (R341). -/
  | trap (c : BitVec 8)
  /-- RESUME (R80). -/
  | resume
  /-- SKIP (R80). -/
  | skip
  /-- BRKPT (R342). -/
  | brkpt
  /-- UISEND (R345). -/
  | uisend (d b : BitVec 8)
  /-- UIRET (R344). -/
  | uiret
  /-- IDEM_ENTER (R346). -/
  | idemEnter
  /-- IDEM_LEAVE (R346). -/
  | idemLeave
  /-- HOLD (R347). -/
  | hold
  /-- WAIT_END (R75). -/
  | waitEnd (tid role : Nat)
  /-- LOAD_RETURN (R257). -/
  | loadReturn (tid role : Nat) (status : Nat) (data : List (BitVec 64))
  /-- HELD_LOAD_COMPLETE (R155). -/
  | heldLoadComplete (tid role : Nat)
  /-- STORE_PERFORM (R355). -/
  | storePerform (die core idx : Nat)
  /-- REMOTE_PERFORM (R262). -/
  | remotePerform (tid role op : Nat)
  /-- MATRIX_WRITEBACK (R294). -/
  | matrixWriteback (tid role : Nat)
  /-- FMT_EMU_COMPLETE (R53). -/
  | fmtEmuComplete (tid role : Nat)
  /-- WALK_COMPLETE (R152). -/
  | walkComplete (die core ctx : Nat) (va : BitVec 64)
  /-- DEMAND_MAP_COMPLETE (R154). -/
  | demandMapComplete (ctx : Nat) (va : BitVec 64)
  /-- FRAME_GRANT (R392). -/
  | frameGrant (die slice : Nat) (frames : List (Option Nat))
  /-- MIGRATION_COMPLETE (R160). -/
  | migrationComplete (ctx : Nat) (va : BitVec 64) (data : List Host.Cell)
  /-- HOST_MIGRATION_REQUEST (R160). -/
  | hostMigrationRequest (ctx : Nat) (va : BitVec 64)
  /-- THROTTLE_EXPIRY (R161). -/
  | throttleExpiry (ctx : Nat) (va : BitVec 64)
  /-- SIDE_LOG_REPLAY (R158). -/
  | sideLogReplay (ctx : Nat) (va : BitVec 64)
  /-- CACHE_EVICTION (R119). -/
  | cacheEviction (kind die unit line : Nat)
  /-- SYS_CACHE_OP_COMPLETE (R271). -/
  | sysCacheOpComplete (tid role op : Nat)
  /-- ATOMICOP_COMPLETION (R263). -/
  | atomicopCompletion (tid role : Nat) (status : Nat) (old : BitVec 64)
  /-- EPOCH_CLOSE (R363). -/
  | epochClose (lid : Nat)
  /-- DMR_COMPARE (R195). -/
  | dmrCompare (tid role : Nat)
  /-- COPY_START (R135). -/
  | copyStart (die core : Nat)
  /-- SECTOR_LANDING (R185). -/
  | sectorLanding (die core copy n : Nat)
  /-- COPY_PAUSE (R117). -/
  | copyPause (die core copy : Nat)
  /-- COPY_RESUME (R117). -/
  | copyResume (die core copy : Nat)
  /-- COPY_STOP (R396). -/
  | copyStop (die core copy : Nat) (cause : Nat)
  /-- TREDUCE_COMPLETE (R332). -/
  | treduceComplete (lid gang : Nat)
  /-- OCULUS_COMPARE (R319). -/
  | oculusCompare (die core : Nat)
  /-- GANG_DIE_ARRIVAL (R190). -/
  | gangDieArrival (lid gang die : Nat)
  /-- LANTERN_EXEC (R25). -/
  | lanternExec (die core idx : Nat)
  /-- UI_DELIVERY (R85). -/
  | uiDelivery (ctx : Nat)
  /-- ALARM_EXPIRY (R88). -/
  | alarmExpiry (tid role : Nat)
  /-- ALARM_TRAP (R88). -/
  | alarmTrap (tid role : Nat)
  /-- BREAKPOINT_MATCH (R90). -/
  | breakpointMatch (tid role : Nat)
  /-- STEP_HOLD (R93). -/
  | stepHold (tid role : Nat)
  /-- LATCH_IDLE_INVALIDATE (R67). -/
  | latchIdleInvalidate (die core port : Nat)
  /-- AGING (R129). -/
  | aging (tid role : Nat)
  /-- BACKOFF_DECAY (R130). -/
  | backoffDecay (tid role : Nat)
  /-- BACKOFF_DELAY_END (R338). -/
  | backoffDelayEnd (tid role : Nat)
  /-- RESUME_CLASS_EXPIRY (R129). -/
  | resumeClassExpiry (tid role : Nat)
  /-- DEMAND_PARK_ELIGIBLE (R30). -/
  | demandParkEligible (tid role : Nat)
  /-- DEMAND_PARK (R131). -/
  | demandPark (die core : Nat)
  /-- IMAGE_DRAIN_COMPLETE (R114). -/
  | imageDrainComplete (tid : Nat)
  /-- TEAM_RESTORE (R132). -/
  | teamRestore (die core : Nat)
  /-- SHADOW_FILL_COMPLETE (R113). -/
  | shadowFillComplete (die core ctx : Nat)
  /-- BANK_SWAP (R113). -/
  | bankSwap (die core : Nat)
  /-- PREEMPT_REQUEST (R116). -/
  | preemptRequest (die core : Nat)
  /-- PREEMPT_SAFE_POINT (R116). -/
  | preemptSafePoint (die core : Nat)
  /-- CONTEXT_WAKE (R142). -/
  | contextWake (die : Nat)
  /-- PACKET_READ (R122). -/
  | packetRead (part err : Nat)
  /-- TEAM_PLACE (R127). -/
  | teamPlace (lid : Nat)
  /-- LAUNCH_COMPLETE (R126). -/
  | launchComplete (lid : Nat)
  /-- COMPLETION_WORD_WRITE (R126). -/
  | completionWordWrite (lid : Nat)
  /-- SVC_DEFERRED_POST (R138). -/
  | svcDeferredPost (tid role : Nat)
  /-- SERVICE_REQUEST_SERVE (R392). -/
  | serviceRequestServe (die slice seq : Nat) (host : List (BitVec 64))
  /-- CUPOLA_DOORBELL (R326). -/
  | cupolaDoorbell (die : Nat)
  /-- CUPOLA_ROUND (R327). -/
  | cupolaRound (die idx : Nat) (peer : List Host.Cell)
  /-- LAUNCH_QUEUE_DOORBELL (R372). -/
  | launchQueueDoorbell (q : Nat) (v : BitVec 32)
  /-- QCTL_WRITE (R121). -/
  | qctlWrite (q : Nat) (v : BitVec 64)
  /-- INVGO (R371). -/
  | invgo (v : BitVec 64)
  /-- INVALIDATION_COMPLETE (R153). -/
  | invalidationComplete
  /-- CHALT (R371). -/
  | chalt (die : Nat) (v : BitVec 64)
  /-- CONTEXT_ENABLE (R373). -/
  | contextEnable (ctx : Nat)
  /-- CONTEXT_END_REQUEST (R373). -/
  | contextEndRequest (ctx : Nat)
  /-- LOGHEAD (R139). -/
  | loghead (ctx : Nat) (v : BitVec 32)
  /-- DOORBELL_SEND (R374). -/
  | doorbellSend (page : Nat) (v : BitVec 32)
  /-- PEER_SEND_RECEIVE (R376). -/
  | peerSendReceive (peer : BitVec 16) (ctx vec : Nat) (pay : BitVec 64)
  /-- DEBUG_HOLD (R375). -/
  | debugHold (ctx : Nat)
  /-- DEBUG_RELEASE (R92). -/
  | debugRelease (ctx : Nat)
  /-- DEBUG_HOLD_ALL (R375). -/
  | debugHoldAll (ctx : Nat)
  /-- DEBUG_WINDOW_WRITE (R71). -/
  | debugWindowWrite (ctx off : Nat) (v : BitVec 64)
  /-- REGISTER_WRITE (R370). -/
  | registerWrite (bar off size : Nat) (v : BitVec 64)
  /-- ATS_INVALIDATION_REQUEST (R369). -/
  | atsInvalidationRequest (page : Nat)
  /-- PAGE_REQUEST_RESPONSE (R369). -/
  | pageRequestResponse (ctx : Nat) (va : BitVec 64) (ok : Bool)
  /-- INBOUND_ATOMICOP (R369). -/
  | inboundAtomicop
  /-- FIRMWARE_RECOVERY (R380). -/
  | firmwareRecovery (len : BitVec 64)
  /-- POWER_GOOD (R380). -/
  | powerGood
  /-- STAGE1_COMPLETE (R380). -/
  | stage1Complete (header body : List (BitVec 8)) (trained : Bool)
  /-- STAGE2_COMPLETE (R380). -/
  | stage2Complete (cxl : Nat) (ports peers : List Nat)
  /-- CLOCK_STEP (R382). -/
  | clockStep (up : Bool)
  /-- HOT_SPOT_105 (R382). -/
  | hotSpot105
  /-- HOT_SPOT_115 (R382). -/
  | hotSpot115
  /-- CXL_PORT_FAILURE (R377). -/
  | cxlPortFailure (port : Nat)
  /-- SERVICE_INSTANCE_FAILURE (R379). -/
  | serviceInstanceFailure (die slice : Nat)
  /-- ECC_CORRECTED (R194). -/
  | eccCorrected (array : Nat)
  /-- ECC_IMAGE_ERROR (R78). -/
  | eccImageError (ctx : Nat)
  /-- STAGE0_COMPLETE (R380). -/
  | stage0Complete
  /-- COMPLETION_TIMEOUT (R259). -/
  | completionTimeout (tid role : Nat)
  /-- HOST_RUNTIME_SERVICE_REPLY (R340). -/
  | hostRuntimeServiceReply (die slice : Nat) (seq : Nat) (reply : List (BitVec 64 × BitVec 32))
  /-- SEND_STATUS_RETURN (R376). -/
  | sendStatusReturn (tid role : Nat) (status : BitVec 2)
  /-- PARTITION_CHANGE (R378). -/
  | partitionChange (part : Nat) (cells : List Nat)
  /-- DOORBELL_PAGE_BIND (R374). -/
  | doorbellPageBind (page : Nat) (token : Option (BitVec 48))
  /-- DIE_SCRATCHPAD_BLOCK_GIVE (R94). -/
  | dieScratchpadBlockGive (die block ctx : Nat)
  deriving DecidableEq, Repr

/-- An act of a unit or outside party, as against an instruction word. -/
def Instr.isEvent : Instr → Bool
  | .iadd _ _ _ _ => false
  | .isub _ _ _ _ => false
  | .imul _ _ _ _ => false
  | .imulh _ _ _ _ => false
  | .imad _ _ _ _ => false
  | .imin _ _ _ _ => false
  | .imax _ _ _ _ => false
  | .iabs _ _ _ => false
  | .icmp _ _ _ _ => false
  | .lea _ _ _ _ => false
  | .addi _ _ _ => false
  | .movi _ _ _ => false
  | .movhi _ _ _ => false
  | .and _ _ _ _ => false
  | .or _ _ _ _ => false
  | .xor _ _ _ _ => false
  | .not _ _ _ => false
  | .shl _ _ _ _ => false
  | .shr _ _ _ _ => false
  | .popc _ _ _ => false
  | .clz _ _ _ => false
  | .mov _ _ _ => false
  | .rdlane _ _ _ _ => false
  | .shfl _ _ _ _ => false
  | .shflx _ _ _ _ => false
  | .ballot _ _ _ => false
  | .vote _ _ _ => false
  | .plop _ _ _ _ => false
  | .movp _ _ => false
  | .fadd _ _ _ _ => false
  | .fsub _ _ _ _ => false
  | .fmul _ _ _ _ => false
  | .ffma _ _ _ _ => false
  | .fdiv _ _ _ _ => false
  | .fsqrt _ _ _ => false
  | .fmin _ _ _ _ => false
  | .fmax _ _ _ _ => false
  | .fabs _ _ _ => false
  | .fneg _ _ _ => false
  | .fcmp _ _ _ _ => false
  | .fclass _ _ _ => false
  | .frcp _ _ _ => false
  | .frsq _ _ _ => false
  | .fexp2 _ _ _ => false
  | .flog2 _ _ _ => false
  | .fsin _ _ _ => false
  | .fcos _ _ _ => false
  | .dot2 _ _ _ _ => false
  | .dot4 _ _ _ _ => false
  | .dot8 _ _ _ _ => false
  | .setmode _ _ => false
  | .getmode _ _ => false
  | .mfs _ _ _ => false
  | .mts _ _ => false
  | .bra _ _ => false
  | .call _ => false
  | .join => false
  | .brx _ _ => false
  | .calli _ => false
  | .ret => false
  | .exit => false
  | .ld _ _ _ _ _ => false
  | .st _ _ _ _ => false
  | .lds _ _ _ _ _ => false
  | .sts _ _ _ _ => false
  | .ldp _ _ _ _ _ => false
  | .stp _ _ _ _ => false
  | .ldt _ _ _ _ _ => false
  | .stt _ _ _ _ => false
  | .atomAdd _ _ _ _ _ => false
  | .atomMin _ _ _ _ _ => false
  | .atomMax _ _ _ _ _ => false
  | .atomAnd _ _ _ _ _ => false
  | .atomOr _ _ _ _ _ => false
  | .atomXor _ _ _ _ _ => false
  | .atomXchg _ _ _ _ _ => false
  | .atomCas _ _ _ _ _ => false
  | .redAdd _ _ _ _ => false
  | .redMin _ _ _ _ => false
  | .redMax _ _ _ _ => false
  | .redAnd _ _ _ _ => false
  | .redOr _ _ _ _ => false
  | .redXor _ _ _ _ => false
  | .mma _ _ _ _ => false
  | .mmad _ _ _ _ => false
  | .mmadg _ _ _ _ => false
  | .mmadw _ _ _ _ => false
  | .rast _ _ _ _ => false
  | .tex _ _ _ _ => false
  | .texg _ _ _ _ => false
  | .rayq _ _ _ _ => false
  | .trace _ _ _ _ => false
  | .lupd _ _ _ => false
  | .tbinit _ _ _ => false
  | .tbtest _ _ _ _ => false
  | .cvtF32F64 _ _ _ => false
  | .cvtF64F32 _ _ _ => false
  | .cvtF32H16 _ _ _ => false
  | .cvtH16F32 _ _ _ => false
  | .cvtF32W16 _ _ _ => false
  | .cvtW16F32 _ _ _ => false
  | .cvtF32S32 _ _ _ => false
  | .cvtF32Z32 _ _ _ => false
  | .cvtS32F32 _ _ _ => false
  | .cvtZ32F32 _ _ _ => false
  | .cvtF64S64 _ _ _ => false
  | .cvtF64Z64 _ _ _ => false
  | .cvtS64F64 _ _ _ => false
  | .cvtZ64F64 _ _ _ => false
  | .cvtF64S32 _ _ _ => false
  | .cvtS32F64 _ _ _ => false
  | .cvtF32S64 _ _ _ => false
  | .cvtS64F32 _ _ _ => false
  | .cvtQ8F32 _ _ _ => false
  | .cvtF32Q8 _ _ _ => false
  | .cvtQ6F32 _ _ _ => false
  | .cvtF32Q6 _ _ _ => false
  | .cvtQ4F32 _ _ _ => false
  | .cvtF32Q4 _ _ _ => false
  | .cvtS8S32 _ _ _ => false
  | .cvtZ8Z32 _ _ _ => false
  | .cvtS16S32 _ _ _ => false
  | .cvtZ16Z32 _ _ _ => false
  | .cvtS64S32 _ _ _ => false
  | .cvtZ64Z32 _ _ _ => false
  | .cvtS32S64 _ _ _ => false
  | .cvtZ32Z64 _ _ _ => false
  | .packH16 _ _ _ => false
  | .unpackH16 _ _ => false
  | .packW16 _ _ _ => false
  | .unpackW16 _ _ => false
  | .packQ8 _ _ _ => false
  | .unpackQ8 _ _ => false
  | .packQ6 _ _ _ => false
  | .unpackQ6 _ _ => false
  | .packQ4 _ _ _ => false
  | .unpackQ4 _ _ => false
  | .packS8 _ _ => false
  | .unpackS8 _ _ => false
  | .packZ8 _ _ => false
  | .unpackZ8 _ _ => false
  | .packS4 _ _ => false
  | .unpackS4 _ _ => false
  | .packZ4 _ _ => false
  | .unpackZ4 _ _ => false
  | .tcopy _ => false
  | .tcopys _ => false
  | .treduce _ => false
  | .bind _ => false
  | .unbind _ => false
  | .waitc _ _ => false
  | .tbexpect _ _ => false
  | .tbarrive _ => false
  | .tbwait _ _ => false
  | .bar _ _ => false
  | .gbar => false
  | .backoff => false
  | .fence _ => false
  | .fenceRp _ _ => false
  | .sptest _ _ => false
  | .spcast _ _ _ => false
  | .spcastOff _ _ _ => false
  | .sysflush _ _ => false
  | .sysinv _ _ => false
  | .mldn _ _ => false
  | .mldw _ _ => false
  | .curve _ _ => false
  | .bmap _ => false
  | .dtest _ _ _ => false
  | .blend _ _ _ => false
  | .pstore _ _ _ => false
  | .resid _ => false
  | .evpop _ _ => false
  | .svc _ _ _ => false
  | .assert _ => false
  | .trap _ => false
  | .resume => false
  | .skip => false
  | .brkpt => false
  | .uisend _ _ => false
  | .uiret => false
  | .idemEnter => false
  | .idemLeave => false
  | .hold => false
  | .waitEnd _ _ => true
  | .loadReturn _ _ _ _ => true
  | .heldLoadComplete _ _ => true
  | .storePerform _ _ _ => true
  | .remotePerform _ _ _ => true
  | .matrixWriteback _ _ => true
  | .fmtEmuComplete _ _ => true
  | .walkComplete _ _ _ _ => true
  | .demandMapComplete _ _ => true
  | .frameGrant _ _ _ => true
  | .migrationComplete _ _ _ => true
  | .hostMigrationRequest _ _ => true
  | .throttleExpiry _ _ => true
  | .sideLogReplay _ _ => true
  | .cacheEviction _ _ _ _ => true
  | .sysCacheOpComplete _ _ _ => true
  | .atomicopCompletion _ _ _ _ => true
  | .epochClose _ => true
  | .dmrCompare _ _ => true
  | .copyStart _ _ => true
  | .sectorLanding _ _ _ _ => true
  | .copyPause _ _ _ => true
  | .copyResume _ _ _ => true
  | .copyStop _ _ _ _ => true
  | .treduceComplete _ _ => true
  | .oculusCompare _ _ => true
  | .gangDieArrival _ _ _ => true
  | .lanternExec _ _ _ => true
  | .uiDelivery _ => true
  | .alarmExpiry _ _ => true
  | .alarmTrap _ _ => true
  | .breakpointMatch _ _ => true
  | .stepHold _ _ => true
  | .latchIdleInvalidate _ _ _ => true
  | .aging _ _ => true
  | .backoffDecay _ _ => true
  | .backoffDelayEnd _ _ => true
  | .resumeClassExpiry _ _ => true
  | .demandParkEligible _ _ => true
  | .demandPark _ _ => true
  | .imageDrainComplete _ => true
  | .teamRestore _ _ => true
  | .shadowFillComplete _ _ _ => true
  | .bankSwap _ _ => true
  | .preemptRequest _ _ => true
  | .preemptSafePoint _ _ => true
  | .contextWake _ => true
  | .packetRead _ _ => true
  | .teamPlace _ => true
  | .launchComplete _ => true
  | .completionWordWrite _ => true
  | .svcDeferredPost _ _ => true
  | .serviceRequestServe _ _ _ _ => true
  | .cupolaDoorbell _ => true
  | .cupolaRound _ _ _ => true
  | .launchQueueDoorbell _ _ => true
  | .qctlWrite _ _ => true
  | .invgo _ => true
  | .invalidationComplete => true
  | .chalt _ _ => true
  | .contextEnable _ => true
  | .contextEndRequest _ => true
  | .loghead _ _ => true
  | .doorbellSend _ _ => true
  | .peerSendReceive _ _ _ _ => true
  | .debugHold _ => true
  | .debugRelease _ => true
  | .debugHoldAll _ => true
  | .debugWindowWrite _ _ _ => true
  | .registerWrite _ _ _ _ => true
  | .atsInvalidationRequest _ => true
  | .pageRequestResponse _ _ _ => true
  | .inboundAtomicop => true
  | .firmwareRecovery _ => true
  | .powerGood => true
  | .stage1Complete _ _ _ => true
  | .stage2Complete _ _ _ => true
  | .clockStep _ => true
  | .hotSpot105 => true
  | .hotSpot115 => true
  | .cxlPortFailure _ => true
  | .serviceInstanceFailure _ _ => true
  | .eccCorrected _ => true
  | .eccImageError _ => true
  | .stage0Complete => true
  | .completionTimeout _ _ => true
  | .hostRuntimeServiceReply _ _ _ _ => true
  | .sendStatusReturn _ _ _ => true
  | .partitionChange _ _ => true
  | .doorbellPageBind _ _ => true
  | .dieScratchpadBlockGive _ _ _ => true

/-- An event row with its operands. -/
abbrev Event := { i : Instr // i.isEvent = true }

end Sys2Proof
end

