-- ==== Sys2Proof/Word.lean ====
section
/-!
DEFINITION. The word types of the machine (R3, R16, R204, R207) and their plainest arithmetic.
-/

namespace Sys2Proof

/-- One byte of any memory (R3). -/
abbrev Byte := BitVec 8

/-- A 32-bit register or instruction word (R57, R199). -/
abbrev Word := BitVec 32

/-- A 64-bit pair, address or system register (R60, R70). -/
abbrev DWord := BitVec 64

/-- An operand selector as an instruction word holds it (R204). -/
abbrev Sel := BitVec 8

/-- The hierarchical mask of R16: bit 32 × group + lane of a section's lanes. -/
abbrev Mask := BitVec 1024

/-- A table from numbers to values in one canonical form (strictly rising keys, no entry that equals the default). -/
abbrev Table (α : Type) := List (Nat × α)

/-- The lane index of logical lane `l` of section-relative group `g` (R15). -/
abbrev laneIdx (g l : Nat) : Nat := 32 * g + l

/-- Bytes per line of a cache or of team scratchpad (R94, R104). -/
abbrev lineBytes : Nat := 128

end Sys2Proof
end

