-- ==== Sys2Proof/Decode.lean ====
section
/-!
DEFINITION. Decoding an instruction word (R199, R200, R205, R209 to R211), total on every word, and the encoder written from
the same formats. Operand legality is checked at issue (R206), not here.
-/

namespace Sys2Proof

/-- The fate of a word that is no instruction (R205). -/
inductive Fate where
  /-- Major or minor not assigned. -/
  | opc
  /-- An assigned form with a nonzero unused bit, or a sub value that is not listed. -/
  | opnd
  deriving DecidableEq, Repr

/-- Conversions and packing: page 0x7E by minor (R210). -/
def decodePage7E (w : Word) : Except Fate Instr :=
  match (w.extractLsb' 19 6).toNat with
  | 0x00 => if w.extractLsb' 18 1 = 0 then .ok (.cvtF32F64 (w.extractLsb' 16 2) (w.extractLsb' 8 8) (w.extractLsb' 0 8)) else .error .opnd
  | 0x01 => if w.extractLsb' 18 1 = 0 then .ok (.cvtF64F32 (w.extractLsb' 16 2) (w.extractLsb' 8 8) (w.extractLsb' 0 8)) else .error .opnd
  | 0x02 => if w.extractLsb' 18 1 = 0 then .ok (.cvtF32H16 (w.extractLsb' 16 2) (w.extractLsb' 8 8) (w.extractLsb' 0 8)) else .error .opnd
  | 0x03 => if w.extractLsb' 18 1 = 0 then .ok (.cvtH16F32 (w.extractLsb' 16 2) (w.extractLsb' 8 8) (w.extractLsb' 0 8)) else .error .opnd
  | 0x04 => if w.extractLsb' 18 1 = 0 then .ok (.cvtF32W16 (w.extractLsb' 16 2) (w.extractLsb' 8 8) (w.extractLsb' 0 8)) else .error .opnd
  | 0x05 => if w.extractLsb' 18 1 = 0 then .ok (.cvtW16F32 (w.extractLsb' 16 2) (w.extractLsb' 8 8) (w.extractLsb' 0 8)) else .error .opnd
  | 0x06 => if w.extractLsb' 18 1 = 0 then .ok (.cvtF32S32 (w.extractLsb' 16 2) (w.extractLsb' 8 8) (w.extractLsb' 0 8)) else .error .opnd
  | 0x07 => if w.extractLsb' 18 1 = 0 then .ok (.cvtF32Z32 (w.extractLsb' 16 2) (w.extractLsb' 8 8) (w.extractLsb' 0 8)) else .error .opnd
  | 0x08 => if w.extractLsb' 18 1 = 0 then .ok (.cvtS32F32 (w.extractLsb' 16 2) (w.extractLsb' 8 8) (w.extractLsb' 0 8)) else .error .opnd
  | 0x09 => if w.extractLsb' 18 1 = 0 then .ok (.cvtZ32F32 (w.extractLsb' 16 2) (w.extractLsb' 8 8) (w.extractLsb' 0 8)) else .error .opnd
  | 0x0A => if w.extractLsb' 18 1 = 0 then .ok (.cvtF64S64 (w.extractLsb' 16 2) (w.extractLsb' 8 8) (w.extractLsb' 0 8)) else .error .opnd
  | 0x0B => if w.extractLsb' 18 1 = 0 then .ok (.cvtF64Z64 (w.extractLsb' 16 2) (w.extractLsb' 8 8) (w.extractLsb' 0 8)) else .error .opnd
  | 0x0C => if w.extractLsb' 18 1 = 0 then .ok (.cvtS64F64 (w.extractLsb' 16 2) (w.extractLsb' 8 8) (w.extractLsb' 0 8)) else .error .opnd
  | 0x0D => if w.extractLsb' 18 1 = 0 then .ok (.cvtZ64F64 (w.extractLsb' 16 2) (w.extractLsb' 8 8) (w.extractLsb' 0 8)) else .error .opnd
  | 0x0E => if w.extractLsb' 18 1 = 0 then .ok (.cvtF64S32 (w.extractLsb' 16 2) (w.extractLsb' 8 8) (w.extractLsb' 0 8)) else .error .opnd
  | 0x0F => if w.extractLsb' 18 1 = 0 then .ok (.cvtS32F64 (w.extractLsb' 16 2) (w.extractLsb' 8 8) (w.extractLsb' 0 8)) else .error .opnd
  | 0x10 => if w.extractLsb' 18 1 = 0 then .ok (.cvtF32S64 (w.extractLsb' 16 2) (w.extractLsb' 8 8) (w.extractLsb' 0 8)) else .error .opnd
  | 0x11 => if w.extractLsb' 18 1 = 0 then .ok (.cvtS64F32 (w.extractLsb' 16 2) (w.extractLsb' 8 8) (w.extractLsb' 0 8)) else .error .opnd
  | 0x12 => if w.extractLsb' 18 1 = 0 then .ok (.cvtQ8F32 (w.extractLsb' 16 2) (w.extractLsb' 8 8) (w.extractLsb' 0 8)) else .error .opnd
  | 0x13 => if w.extractLsb' 18 1 = 0 then .ok (.cvtF32Q8 (w.extractLsb' 16 2) (w.extractLsb' 8 8) (w.extractLsb' 0 8)) else .error .opnd
  | 0x14 => if w.extractLsb' 18 1 = 0 then .ok (.cvtQ6F32 (w.extractLsb' 16 2) (w.extractLsb' 8 8) (w.extractLsb' 0 8)) else .error .opnd
  | 0x15 => if w.extractLsb' 18 1 = 0 then .ok (.cvtF32Q6 (w.extractLsb' 16 2) (w.extractLsb' 8 8) (w.extractLsb' 0 8)) else .error .opnd
  | 0x16 => if w.extractLsb' 18 1 = 0 then .ok (.cvtQ4F32 (w.extractLsb' 16 2) (w.extractLsb' 8 8) (w.extractLsb' 0 8)) else .error .opnd
  | 0x17 => if w.extractLsb' 18 1 = 0 then .ok (.cvtF32Q4 (w.extractLsb' 16 2) (w.extractLsb' 8 8) (w.extractLsb' 0 8)) else .error .opnd
  | 0x18 => if w.extractLsb' 18 1 = 0 then .ok (.cvtS8S32 (w.extractLsb' 16 2) (w.extractLsb' 8 8) (w.extractLsb' 0 8)) else .error .opnd
  | 0x19 => if w.extractLsb' 18 1 = 0 then .ok (.cvtZ8Z32 (w.extractLsb' 16 2) (w.extractLsb' 8 8) (w.extractLsb' 0 8)) else .error .opnd
  | 0x1A => if w.extractLsb' 18 1 = 0 then .ok (.cvtS16S32 (w.extractLsb' 16 2) (w.extractLsb' 8 8) (w.extractLsb' 0 8)) else .error .opnd
  | 0x1B => if w.extractLsb' 18 1 = 0 then .ok (.cvtZ16Z32 (w.extractLsb' 16 2) (w.extractLsb' 8 8) (w.extractLsb' 0 8)) else .error .opnd
  | 0x1C => if w.extractLsb' 18 1 = 0 then .ok (.cvtS64S32 (w.extractLsb' 16 2) (w.extractLsb' 8 8) (w.extractLsb' 0 8)) else .error .opnd
  | 0x1D => if w.extractLsb' 18 1 = 0 then .ok (.cvtZ64Z32 (w.extractLsb' 16 2) (w.extractLsb' 8 8) (w.extractLsb' 0 8)) else .error .opnd
  | 0x1E => if w.extractLsb' 18 1 = 0 then .ok (.cvtS32S64 (w.extractLsb' 16 2) (w.extractLsb' 8 8) (w.extractLsb' 0 8)) else .error .opnd
  | 0x1F => if w.extractLsb' 18 1 = 0 then .ok (.cvtZ32Z64 (w.extractLsb' 16 2) (w.extractLsb' 8 8) (w.extractLsb' 0 8)) else .error .opnd
  | 0x20 => if w.extractLsb' 18 1 = 0 then .ok (.packH16 (w.extractLsb' 16 2) (w.extractLsb' 8 8) (w.extractLsb' 0 8)) else .error .opnd
  | 0x21 => if w.extractLsb' 16 3 = 0 then .ok (.unpackH16 (w.extractLsb' 8 8) (w.extractLsb' 0 8)) else .error .opnd
  | 0x22 => if w.extractLsb' 18 1 = 0 then .ok (.packW16 (w.extractLsb' 16 2) (w.extractLsb' 8 8) (w.extractLsb' 0 8)) else .error .opnd
  | 0x23 => if w.extractLsb' 16 3 = 0 then .ok (.unpackW16 (w.extractLsb' 8 8) (w.extractLsb' 0 8)) else .error .opnd
  | 0x24 => if w.extractLsb' 18 1 = 0 then .ok (.packQ8 (w.extractLsb' 16 2) (w.extractLsb' 8 8) (w.extractLsb' 0 8)) else .error .opnd
  | 0x25 => if w.extractLsb' 16 3 = 0 then .ok (.unpackQ8 (w.extractLsb' 8 8) (w.extractLsb' 0 8)) else .error .opnd
  | 0x26 => if w.extractLsb' 18 1 = 0 then .ok (.packQ6 (w.extractLsb' 16 2) (w.extractLsb' 8 8) (w.extractLsb' 0 8)) else .error .opnd
  | 0x27 => if w.extractLsb' 16 3 = 0 then .ok (.unpackQ6 (w.extractLsb' 8 8) (w.extractLsb' 0 8)) else .error .opnd
  | 0x28 => if w.extractLsb' 18 1 = 0 then .ok (.packQ4 (w.extractLsb' 16 2) (w.extractLsb' 8 8) (w.extractLsb' 0 8)) else .error .opnd
  | 0x29 => if w.extractLsb' 16 3 = 0 then .ok (.unpackQ4 (w.extractLsb' 8 8) (w.extractLsb' 0 8)) else .error .opnd
  | 0x2A => if w.extractLsb' 16 3 = 0 then .ok (.packS8 (w.extractLsb' 8 8) (w.extractLsb' 0 8)) else .error .opnd
  | 0x2B => if w.extractLsb' 16 3 = 0 then .ok (.unpackS8 (w.extractLsb' 8 8) (w.extractLsb' 0 8)) else .error .opnd
  | 0x2C => if w.extractLsb' 16 3 = 0 then .ok (.packZ8 (w.extractLsb' 8 8) (w.extractLsb' 0 8)) else .error .opnd
  | 0x2D => if w.extractLsb' 16 3 = 0 then .ok (.unpackZ8 (w.extractLsb' 8 8) (w.extractLsb' 0 8)) else .error .opnd
  | 0x2E => if w.extractLsb' 16 3 = 0 then .ok (.packS4 (w.extractLsb' 8 8) (w.extractLsb' 0 8)) else .error .opnd
  | 0x2F => if w.extractLsb' 16 3 = 0 then .ok (.unpackS4 (w.extractLsb' 8 8) (w.extractLsb' 0 8)) else .error .opnd
  | 0x30 => if w.extractLsb' 16 3 = 0 then .ok (.packZ4 (w.extractLsb' 8 8) (w.extractLsb' 0 8)) else .error .opnd
  | 0x31 => if w.extractLsb' 16 3 = 0 then .ok (.unpackZ4 (w.extractLsb' 8 8) (w.extractLsb' 0 8)) else .error .opnd
  | _ => .error .opc

/-- System, asynchronous and graphics forms: page 0x7F by minor (R211). -/
def decodePage7F (w : Word) : Except Fate Instr :=
  match (w.extractLsb' 19 6).toNat with
  | 0x00 => if w.extractLsb' 16 3 = 0 ∧ w.extractLsb' 0 8 = 0 then .ok (.tcopy (w.extractLsb' 8 8)) else .error .opnd
  | 0x01 => if w.extractLsb' 16 3 = 0 ∧ w.extractLsb' 0 8 = 0 then .ok (.tcopys (w.extractLsb' 8 8)) else .error .opnd
  | 0x02 => if w.extractLsb' 16 3 = 0 ∧ w.extractLsb' 0 8 = 0 then .ok (.treduce (w.extractLsb' 8 8)) else .error .opnd
  | 0x03 => if w.extractLsb' 16 3 = 0 ∧ w.extractLsb' 0 8 = 0 then .ok (.bind (w.extractLsb' 8 8)) else .error .opnd
  | 0x04 => if w.extractLsb' 16 3 = 0 ∧ w.extractLsb' 0 8 = 0 then .ok (.unbind (w.extractLsb' 8 8)) else .error .opnd
  | 0x05 => if w.extractLsb' 6 10 = 0 then .ok (.waitc (w.extractLsb' 16 3) (w.extractLsb' 0 6)) else .error .opnd
  | 0x06 => if w.extractLsb' 16 3 = 0 then .ok (.tbexpect (w.extractLsb' 8 8) (w.extractLsb' 0 8)) else .error .opnd
  | 0x07 => if w.extractLsb' 16 3 = 0 ∧ w.extractLsb' 0 8 = 0 then .ok (.tbarrive (w.extractLsb' 8 8)) else .error .opnd
  | 0x08 => if w.extractLsb' 16 3 = 0 then .ok (.tbwait (w.extractLsb' 8 8) (w.extractLsb' 0 8)) else .error .opnd
  | 0x09 => if w.extractLsb' 12 4 = 0 ∧ w.extractLsb' 0 8 = 0 then .ok (.bar (w.extractLsb' 16 3) (w.extractLsb' 8 4)) else .error .opnd
  | 0x0A => if w.extractLsb' 0 19 = 0 then .ok (.gbar) else .error .opnd
  | 0x0B => if w.extractLsb' 0 19 = 0 then .ok (.backoff) else .error .opnd
  | 0x0C => if w.extractLsb' 0 16 = 0 then .ok (.fence (w.extractLsb' 16 3)) else .error .opnd
  | 0x0D => if w.extractLsb' 0 8 = 0 then .ok (.fenceRp (w.extractLsb' 16 3) (w.extractLsb' 8 8)) else .error .opnd
  | 0x0E => if w.extractLsb' 16 3 = 0 then .ok (.sptest (w.extractLsb' 8 8) (w.extractLsb' 0 8)) else .error .opnd
  | 0x0F => .ok (.spcast (w.extractLsb' 16 3) (w.extractLsb' 8 8) (w.extractLsb' 0 8))
  | 0x10 => .ok (.spcastOff (w.extractLsb' 16 3) (w.extractLsb' 8 8) (w.extractLsb' 0 8))
  | 0x11 => if w.extractLsb' 16 3 = 0 then .ok (.sysflush (w.extractLsb' 8 8) (w.extractLsb' 0 8)) else .error .opnd
  | 0x12 => if w.extractLsb' 16 3 = 0 then .ok (.sysinv (w.extractLsb' 8 8) (w.extractLsb' 0 8)) else .error .opnd
  | 0x13 => if w.extractLsb' 16 3 = 0 then .ok (.mldn (w.extractLsb' 8 8) (w.extractLsb' 0 8)) else .error .opnd
  | 0x14 => if w.extractLsb' 16 3 = 0 then .ok (.mldw (w.extractLsb' 8 8) (w.extractLsb' 0 8)) else .error .opnd
  | 0x15 => if w.extractLsb' 8 8 = 0 then .ok (.curve (w.extractLsb' 16 3) (w.extractLsb' 0 8)) else .error .opnd
  | 0x16 => if w.extractLsb' 8 11 = 0 then .ok (.bmap (w.extractLsb' 0 8)) else .error .opnd
  | 0x17 => .ok (.dtest (w.extractLsb' 16 3) (w.extractLsb' 8 8) (w.extractLsb' 0 8))
  | 0x18 => .ok (.blend (w.extractLsb' 16 3) (w.extractLsb' 8 8) (w.extractLsb' 0 8))
  | 0x19 => .ok (.pstore (w.extractLsb' 16 3) (w.extractLsb' 8 8) (w.extractLsb' 0 8))
  | 0x1A => if w.extractLsb' 16 3 = 0 ∧ w.extractLsb' 0 8 = 0 then .ok (.resid (w.extractLsb' 8 8)) else .error .opnd
  | 0x1B => if w.extractLsb' 16 3 = 0 then .ok (.evpop (w.extractLsb' 8 8) (w.extractLsb' 0 8)) else .error .opnd
  | 0x1C => if w.extractLsb' 17 2 = 0 then .ok (.svc (w.getLsbD 16) (w.extractLsb' 8 8) (w.extractLsb' 0 8)) else .error .opnd
  | 0x1D => if w.extractLsb' 16 3 = 0 ∧ w.extractLsb' 0 8 = 0 then .ok (.assert (w.extractLsb' 8 8)) else .error .opnd
  | 0x1E => if w.extractLsb' 8 11 = 0 then .ok (.trap (w.extractLsb' 0 8)) else .error .opnd
  | 0x1F => if w.extractLsb' 0 19 = 0 then .ok (.resume) else .error .opnd
  | 0x20 => if w.extractLsb' 0 19 = 0 then .ok (.skip) else .error .opnd
  | 0x21 => if w.extractLsb' 0 19 = 0 then .ok (.brkpt) else .error .opnd
  | 0x22 => if w.extractLsb' 16 3 = 0 then .ok (.uisend (w.extractLsb' 8 8) (w.extractLsb' 0 8)) else .error .opnd
  | 0x23 => if w.extractLsb' 0 19 = 0 then .ok (.uiret) else .error .opnd
  | 0x24 => if w.extractLsb' 0 19 = 0 then .ok (.idemEnter) else if w.extractLsb' 0 19 = 65536 then .ok (.idemLeave) else .error .opnd
  | 0x25 => if w.extractLsb' 0 19 = 0 then .ok (.hold) else .error .opnd
  | _ => .error .opc

/-- The instruction a word holds, or its fate (R205, R209). -/
def decode (w : Word) : Except Fate Instr :=
  match (w.extractLsb' 25 7).toNat with
  | 0x01 => .ok (.iadd (w.getLsbD 24) (w.extractLsb' 16 8) (w.extractLsb' 8 8) (w.extractLsb' 0 8))
  | 0x02 => .ok (.isub (w.getLsbD 24) (w.extractLsb' 16 8) (w.extractLsb' 8 8) (w.extractLsb' 0 8))
  | 0x03 => .ok (.imul (w.getLsbD 24) (w.extractLsb' 16 8) (w.extractLsb' 8 8) (w.extractLsb' 0 8))
  | 0x04 => .ok (.imulh (w.getLsbD 24) (w.extractLsb' 16 8) (w.extractLsb' 8 8) (w.extractLsb' 0 8))
  | 0x05 => .ok (.imad (w.getLsbD 24) (w.extractLsb' 16 8) (w.extractLsb' 8 8) (w.extractLsb' 0 8))
  | 0x06 => .ok (.imin (w.getLsbD 24) (w.extractLsb' 16 8) (w.extractLsb' 8 8) (w.extractLsb' 0 8))
  | 0x07 => .ok (.imax (w.getLsbD 24) (w.extractLsb' 16 8) (w.extractLsb' 8 8) (w.extractLsb' 0 8))
  | 0x08 => if w.extractLsb' 0 8 = 0 then .ok (.iabs (w.getLsbD 24) (w.extractLsb' 16 8) (w.extractLsb' 8 8)) else .error .opnd
  | 0x09 => if w.extractLsb' 22 3 = 0 then .ok (.icmp (w.extractLsb' 19 3) (w.extractLsb' 16 3) (w.extractLsb' 8 8) (w.extractLsb' 0 8)) else .error .opnd
  | 0x0A => .ok (.lea (w.getLsbD 24) (w.extractLsb' 16 8) (w.extractLsb' 8 8) (w.extractLsb' 0 8))
  | 0x0B => .ok (.addi (w.getLsbD 24) (w.extractLsb' 16 8) (w.extractLsb' 0 16))
  | 0x0C => .ok (.movi (w.getLsbD 24) (w.extractLsb' 16 8) (w.extractLsb' 0 16))
  | 0x0D => .ok (.movhi (w.getLsbD 24) (w.extractLsb' 16 8) (w.extractLsb' 0 16))
  | 0x10 => .ok (.and (w.getLsbD 24) (w.extractLsb' 16 8) (w.extractLsb' 8 8) (w.extractLsb' 0 8))
  | 0x11 => .ok (.or (w.getLsbD 24) (w.extractLsb' 16 8) (w.extractLsb' 8 8) (w.extractLsb' 0 8))
  | 0x12 => .ok (.xor (w.getLsbD 24) (w.extractLsb' 16 8) (w.extractLsb' 8 8) (w.extractLsb' 0 8))
  | 0x13 => if w.extractLsb' 0 8 = 0 then .ok (.not (w.getLsbD 24) (w.extractLsb' 16 8) (w.extractLsb' 8 8)) else .error .opnd
  | 0x14 => .ok (.shl (w.getLsbD 24) (w.extractLsb' 16 8) (w.extractLsb' 8 8) (w.extractLsb' 0 8))
  | 0x15 => .ok (.shr (w.getLsbD 24) (w.extractLsb' 16 8) (w.extractLsb' 8 8) (w.extractLsb' 0 8))
  | 0x16 => if w.extractLsb' 0 8 = 0 then .ok (.popc (w.getLsbD 24) (w.extractLsb' 16 8) (w.extractLsb' 8 8)) else .error .opnd
  | 0x17 => if w.extractLsb' 0 8 = 0 then .ok (.clz (w.getLsbD 24) (w.extractLsb' 16 8) (w.extractLsb' 8 8)) else .error .opnd
  | 0x18 => if w.extractLsb' 0 8 = 0 then .ok (.mov (w.getLsbD 24) (w.extractLsb' 16 8) (w.extractLsb' 8 8)) else .error .opnd
  | 0x19 => .ok (.rdlane (w.getLsbD 24) (w.extractLsb' 16 8) (w.extractLsb' 8 8) (w.extractLsb' 0 8))
  | 0x1A => .ok (.shfl (w.getLsbD 24) (w.extractLsb' 16 8) (w.extractLsb' 8 8) (w.extractLsb' 0 8))
  | 0x1B => .ok (.shflx (w.getLsbD 24) (w.extractLsb' 16 8) (w.extractLsb' 8 8) (w.extractLsb' 0 8))
  | 0x1C => if w.extractLsb' 0 8 = 0 then .ok (.ballot (w.getLsbD 24) (w.extractLsb' 16 8) (w.extractLsb' 8 8)) else .error .opnd
  | 0x1D => if w.extractLsb' 21 4 = 0 ∧ w.extractLsb' 0 8 = 0 then .ok (.vote (w.extractLsb' 19 2) (w.extractLsb' 16 3) (w.extractLsb' 8 8)) else .error .opnd
  | 0x1E => if w.extractLsb' 21 4 = 0 then .ok (.plop (w.extractLsb' 19 2) (w.extractLsb' 16 3) (w.extractLsb' 8 8) (w.extractLsb' 0 8)) else .error .opnd
  | 0x1F => if w.extractLsb' 0 16 = 0 then .ok (.movp (w.getLsbD 24) (w.extractLsb' 16 8)) else .error .opnd
  | 0x20 => .ok (.fadd (w.getLsbD 24) (w.extractLsb' 16 8) (w.extractLsb' 8 8) (w.extractLsb' 0 8))
  | 0x21 => .ok (.fsub (w.getLsbD 24) (w.extractLsb' 16 8) (w.extractLsb' 8 8) (w.extractLsb' 0 8))
  | 0x22 => .ok (.fmul (w.getLsbD 24) (w.extractLsb' 16 8) (w.extractLsb' 8 8) (w.extractLsb' 0 8))
  | 0x23 => .ok (.ffma (w.getLsbD 24) (w.extractLsb' 16 8) (w.extractLsb' 8 8) (w.extractLsb' 0 8))
  | 0x24 => .ok (.fdiv (w.getLsbD 24) (w.extractLsb' 16 8) (w.extractLsb' 8 8) (w.extractLsb' 0 8))
  | 0x25 => if w.extractLsb' 0 8 = 0 then .ok (.fsqrt (w.getLsbD 24) (w.extractLsb' 16 8) (w.extractLsb' 8 8)) else .error .opnd
  | 0x26 => .ok (.fmin (w.getLsbD 24) (w.extractLsb' 16 8) (w.extractLsb' 8 8) (w.extractLsb' 0 8))
  | 0x27 => .ok (.fmax (w.getLsbD 24) (w.extractLsb' 16 8) (w.extractLsb' 8 8) (w.extractLsb' 0 8))
  | 0x28 => if w.extractLsb' 0 8 = 0 then .ok (.fabs (w.getLsbD 24) (w.extractLsb' 16 8) (w.extractLsb' 8 8)) else .error .opnd
  | 0x29 => if w.extractLsb' 0 8 = 0 then .ok (.fneg (w.getLsbD 24) (w.extractLsb' 16 8) (w.extractLsb' 8 8)) else .error .opnd
  | 0x2A => if w.extractLsb' 22 3 = 0 then .ok (.fcmp (w.extractLsb' 19 3) (w.extractLsb' 16 3) (w.extractLsb' 8 8) (w.extractLsb' 0 8)) else .error .opnd
  | 0x2B => if w.extractLsb' 0 8 = 0 then .ok (.fclass (w.getLsbD 24) (w.extractLsb' 16 8) (w.extractLsb' 8 8)) else .error .opnd
  | 0x2C => if w.extractLsb' 0 8 = 0 then .ok (.frcp (w.getLsbD 24) (w.extractLsb' 16 8) (w.extractLsb' 8 8)) else .error .opnd
  | 0x2D => if w.extractLsb' 0 8 = 0 then .ok (.frsq (w.getLsbD 24) (w.extractLsb' 16 8) (w.extractLsb' 8 8)) else .error .opnd
  | 0x2E => if w.extractLsb' 0 8 = 0 then .ok (.fexp2 (w.getLsbD 24) (w.extractLsb' 16 8) (w.extractLsb' 8 8)) else .error .opnd
  | 0x2F => if w.extractLsb' 0 8 = 0 then .ok (.flog2 (w.getLsbD 24) (w.extractLsb' 16 8) (w.extractLsb' 8 8)) else .error .opnd
  | 0x30 => if w.extractLsb' 0 8 = 0 then .ok (.fsin (w.getLsbD 24) (w.extractLsb' 16 8) (w.extractLsb' 8 8)) else .error .opnd
  | 0x31 => if w.extractLsb' 0 8 = 0 then .ok (.fcos (w.getLsbD 24) (w.extractLsb' 16 8) (w.extractLsb' 8 8)) else .error .opnd
  | 0x32 => .ok (.dot2 (w.getLsbD 24) (w.extractLsb' 16 8) (w.extractLsb' 8 8) (w.extractLsb' 0 8))
  | 0x33 => .ok (.dot4 (w.getLsbD 24) (w.extractLsb' 16 8) (w.extractLsb' 8 8) (w.extractLsb' 0 8))
  | 0x34 => .ok (.dot8 (w.getLsbD 24) (w.extractLsb' 16 8) (w.extractLsb' 8 8) (w.extractLsb' 0 8))
  | 0x35 => if w.extractLsb' 20 5 = 0 then .ok (.setmode (w.extractLsb' 16 4) (w.extractLsb' 0 16)) else .error .opnd
  | 0x36 => if w.extractLsb' 0 16 = 0 then .ok (.getmode (w.getLsbD 24) (w.extractLsb' 16 8)) else .error .opnd
  | 0x37 => if w.extractLsb' 8 8 = 0 then .ok (.mfs (w.getLsbD 24) (w.extractLsb' 16 8) (w.extractLsb' 0 8)) else .error .opnd
  | 0x38 => if w.extractLsb' 24 1 = 0 then .ok (.mts (w.extractLsb' 16 8) (w.extractLsb' 0 16)) else .error .opnd
  | 0x40 => .ok (.bra (w.extractLsb' 11 14) (w.extractLsb' 0 11))
  | 0x41 => .ok (.call (w.extractLsb' 0 25))
  | 0x42 => if w.extractLsb' 0 25 = 0 then .ok (.join) else .error .opnd
  | 0x43 => if w.extractLsb' 24 1 = 0 then .ok (.brx (w.extractLsb' 16 8) (w.extractLsb' 0 16)) else .error .opnd
  | 0x44 => if w.extractLsb' 16 9 = 0 ∧ w.extractLsb' 0 8 = 0 then .ok (.calli (w.extractLsb' 8 8)) else .error .opnd
  | 0x45 => if w.extractLsb' 0 25 = 0 then .ok (.ret) else .error .opnd
  | 0x46 => if w.extractLsb' 0 25 = 0 then .ok (.exit) else .error .opnd
  | 0x50 => .ok (.ld (w.getLsbD 24) (w.extractLsb' 16 8) (w.extractLsb' 11 5) (w.extractLsb' 3 8) (w.extractLsb' 0 3))
  | 0x51 => if w.extractLsb' 24 1 = 0 then .ok (.st (w.extractLsb' 16 8) (w.extractLsb' 11 5) (w.extractLsb' 3 8) (w.extractLsb' 0 3)) else .error .opnd
  | 0x52 => .ok (.lds (w.getLsbD 24) (w.extractLsb' 16 8) (w.extractLsb' 11 5) (w.extractLsb' 3 8) (w.extractLsb' 0 3))
  | 0x53 => if w.extractLsb' 24 1 = 0 then .ok (.sts (w.extractLsb' 16 8) (w.extractLsb' 11 5) (w.extractLsb' 3 8) (w.extractLsb' 0 3)) else .error .opnd
  | 0x54 => .ok (.ldp (w.getLsbD 24) (w.extractLsb' 16 8) (w.extractLsb' 11 5) (w.extractLsb' 3 8) (w.extractLsb' 0 3))
  | 0x55 => if w.extractLsb' 24 1 = 0 then .ok (.stp (w.extractLsb' 16 8) (w.extractLsb' 11 5) (w.extractLsb' 3 8) (w.extractLsb' 0 3)) else .error .opnd
  | 0x56 => .ok (.ldt (w.getLsbD 24) (w.extractLsb' 16 8) (w.extractLsb' 11 5) (w.extractLsb' 3 8) (w.extractLsb' 0 3))
  | 0x57 => if w.extractLsb' 24 1 = 0 then .ok (.stt (w.extractLsb' 16 8) (w.extractLsb' 11 5) (w.extractLsb' 3 8) (w.extractLsb' 0 3)) else .error .opnd
  | 0x60 => .ok (.atomAdd (w.getLsbD 24) (w.extractLsb' 16 8) (w.extractLsb' 11 5) (w.extractLsb' 3 8) (w.extractLsb' 0 3))
  | 0x61 => .ok (.atomMin (w.getLsbD 24) (w.extractLsb' 16 8) (w.extractLsb' 11 5) (w.extractLsb' 3 8) (w.extractLsb' 0 3))
  | 0x62 => .ok (.atomMax (w.getLsbD 24) (w.extractLsb' 16 8) (w.extractLsb' 11 5) (w.extractLsb' 3 8) (w.extractLsb' 0 3))
  | 0x63 => .ok (.atomAnd (w.getLsbD 24) (w.extractLsb' 16 8) (w.extractLsb' 11 5) (w.extractLsb' 3 8) (w.extractLsb' 0 3))
  | 0x64 => .ok (.atomOr (w.getLsbD 24) (w.extractLsb' 16 8) (w.extractLsb' 11 5) (w.extractLsb' 3 8) (w.extractLsb' 0 3))
  | 0x65 => .ok (.atomXor (w.getLsbD 24) (w.extractLsb' 16 8) (w.extractLsb' 11 5) (w.extractLsb' 3 8) (w.extractLsb' 0 3))
  | 0x66 => .ok (.atomXchg (w.getLsbD 24) (w.extractLsb' 16 8) (w.extractLsb' 11 5) (w.extractLsb' 3 8) (w.extractLsb' 0 3))
  | 0x67 => .ok (.atomCas (w.getLsbD 24) (w.extractLsb' 16 8) (w.extractLsb' 11 5) (w.extractLsb' 3 8) (w.extractLsb' 0 3))
  | 0x68 => if w.extractLsb' 24 1 = 0 then .ok (.redAdd (w.extractLsb' 16 8) (w.extractLsb' 11 5) (w.extractLsb' 3 8) (w.extractLsb' 0 3)) else .error .opnd
  | 0x69 => if w.extractLsb' 24 1 = 0 then .ok (.redMin (w.extractLsb' 16 8) (w.extractLsb' 11 5) (w.extractLsb' 3 8) (w.extractLsb' 0 3)) else .error .opnd
  | 0x6A => if w.extractLsb' 24 1 = 0 then .ok (.redMax (w.extractLsb' 16 8) (w.extractLsb' 11 5) (w.extractLsb' 3 8) (w.extractLsb' 0 3)) else .error .opnd
  | 0x6B => if w.extractLsb' 24 1 = 0 then .ok (.redAnd (w.extractLsb' 16 8) (w.extractLsb' 11 5) (w.extractLsb' 3 8) (w.extractLsb' 0 3)) else .error .opnd
  | 0x6C => if w.extractLsb' 24 1 = 0 then .ok (.redOr (w.extractLsb' 16 8) (w.extractLsb' 11 5) (w.extractLsb' 3 8) (w.extractLsb' 0 3)) else .error .opnd
  | 0x6D => if w.extractLsb' 24 1 = 0 then .ok (.redXor (w.extractLsb' 16 8) (w.extractLsb' 11 5) (w.extractLsb' 3 8) (w.extractLsb' 0 3)) else .error .opnd
  | 0x70 => .ok (.mma (w.getLsbD 24) (w.extractLsb' 16 8) (w.extractLsb' 8 8) (w.extractLsb' 0 8))
  | 0x71 => .ok (.mmad (w.getLsbD 24) (w.extractLsb' 16 8) (w.extractLsb' 8 8) (w.extractLsb' 0 8))
  | 0x72 => .ok (.mmadg (w.getLsbD 24) (w.extractLsb' 16 8) (w.extractLsb' 8 8) (w.extractLsb' 0 8))
  | 0x73 => .ok (.mmadw (w.getLsbD 24) (w.extractLsb' 16 8) (w.extractLsb' 8 8) (w.extractLsb' 0 8))
  | 0x74 => .ok (.rast (w.getLsbD 24) (w.extractLsb' 16 8) (w.extractLsb' 8 8) (w.extractLsb' 0 8))
  | 0x75 => .ok (.tex (w.getLsbD 24) (w.extractLsb' 16 8) (w.extractLsb' 8 8) (w.extractLsb' 0 8))
  | 0x76 => .ok (.texg (w.getLsbD 24) (w.extractLsb' 16 8) (w.extractLsb' 8 8) (w.extractLsb' 0 8))
  | 0x77 => .ok (.rayq (w.getLsbD 24) (w.extractLsb' 16 8) (w.extractLsb' 8 8) (w.extractLsb' 0 8))
  | 0x78 => .ok (.trace (w.getLsbD 24) (w.extractLsb' 16 8) (w.extractLsb' 8 8) (w.extractLsb' 0 8))
  | 0x79 => if w.extractLsb' 24 1 = 0 then .ok (.lupd (w.extractLsb' 16 8) (w.extractLsb' 8 8) (w.extractLsb' 0 8)) else .error .opnd
  | 0x7A => if w.extractLsb' 24 1 = 0 then .ok (.tbinit (w.extractLsb' 16 8) (w.extractLsb' 8 8) (w.extractLsb' 0 8)) else .error .opnd
  | 0x7B => .ok (.tbtest (w.getLsbD 24) (w.extractLsb' 16 8) (w.extractLsb' 8 8) (w.extractLsb' 0 8))
  | 0x7E => decodePage7E w
  | 0x7F => decodePage7F w
  | _ => .error .opc

/-- The bit of a one-bit field. -/
def bit (b : Bool) : BitVec 1 := BitVec.ofBool b

/-- The word of an instruction (R200, R207); none for an event, which has no word. -/
def encode : Instr → Option Word
  | .iadd n d a b => some (0x1#7 ++ bit n ++ d ++ a ++ b)
  | .isub n d a b => some (0x2#7 ++ bit n ++ d ++ a ++ b)
  | .imul n d a b => some (0x3#7 ++ bit n ++ d ++ a ++ b)
  | .imulh n d a b => some (0x4#7 ++ bit n ++ d ++ a ++ b)
  | .imad n d a b => some (0x5#7 ++ bit n ++ d ++ a ++ b)
  | .imin n d a b => some (0x6#7 ++ bit n ++ d ++ a ++ b)
  | .imax n d a b => some (0x7#7 ++ bit n ++ d ++ a ++ b)
  | .iabs n d a => some (0x8#7 ++ bit n ++ d ++ a ++ 0x0#8)
  | .icmp c p a b => some (0x9#7 ++ 0x0#3 ++ c ++ p ++ a ++ b)
  | .lea n d a b => some (0xA#7 ++ bit n ++ d ++ a ++ b)
  | .addi n d i => some (0xB#7 ++ bit n ++ d ++ i)
  | .movi n d i => some (0xC#7 ++ bit n ++ d ++ i)
  | .movhi n d i => some (0xD#7 ++ bit n ++ d ++ i)
  | .and n d a b => some (0x10#7 ++ bit n ++ d ++ a ++ b)
  | .or n d a b => some (0x11#7 ++ bit n ++ d ++ a ++ b)
  | .xor n d a b => some (0x12#7 ++ bit n ++ d ++ a ++ b)
  | .not n d a => some (0x13#7 ++ bit n ++ d ++ a ++ 0x0#8)
  | .shl n d a b => some (0x14#7 ++ bit n ++ d ++ a ++ b)
  | .shr n d a b => some (0x15#7 ++ bit n ++ d ++ a ++ b)
  | .popc n d a => some (0x16#7 ++ bit n ++ d ++ a ++ 0x0#8)
  | .clz n d a => some (0x17#7 ++ bit n ++ d ++ a ++ 0x0#8)
  | .mov n d a => some (0x18#7 ++ bit n ++ d ++ a ++ 0x0#8)
  | .rdlane n d a b => some (0x19#7 ++ bit n ++ d ++ a ++ b)
  | .shfl n d a b => some (0x1A#7 ++ bit n ++ d ++ a ++ b)
  | .shflx n d a b => some (0x1B#7 ++ bit n ++ d ++ a ++ b)
  | .ballot n d a => some (0x1C#7 ++ bit n ++ d ++ a ++ 0x0#8)
  | .vote o p a => some (0x1D#7 ++ 0x0#4 ++ o ++ p ++ a ++ 0x0#8)
  | .plop o p a b => some (0x1E#7 ++ 0x0#4 ++ o ++ p ++ a ++ b)
  | .movp n d => some (0x1F#7 ++ bit n ++ d ++ 0x0#16)
  | .fadd n d a b => some (0x20#7 ++ bit n ++ d ++ a ++ b)
  | .fsub n d a b => some (0x21#7 ++ bit n ++ d ++ a ++ b)
  | .fmul n d a b => some (0x22#7 ++ bit n ++ d ++ a ++ b)
  | .ffma n d a b => some (0x23#7 ++ bit n ++ d ++ a ++ b)
  | .fdiv n d a b => some (0x24#7 ++ bit n ++ d ++ a ++ b)
  | .fsqrt n d a => some (0x25#7 ++ bit n ++ d ++ a ++ 0x0#8)
  | .fmin n d a b => some (0x26#7 ++ bit n ++ d ++ a ++ b)
  | .fmax n d a b => some (0x27#7 ++ bit n ++ d ++ a ++ b)
  | .fabs n d a => some (0x28#7 ++ bit n ++ d ++ a ++ 0x0#8)
  | .fneg n d a => some (0x29#7 ++ bit n ++ d ++ a ++ 0x0#8)
  | .fcmp c p a b => some (0x2A#7 ++ 0x0#3 ++ c ++ p ++ a ++ b)
  | .fclass n d a => some (0x2B#7 ++ bit n ++ d ++ a ++ 0x0#8)
  | .frcp n d a => some (0x2C#7 ++ bit n ++ d ++ a ++ 0x0#8)
  | .frsq n d a => some (0x2D#7 ++ bit n ++ d ++ a ++ 0x0#8)
  | .fexp2 n d a => some (0x2E#7 ++ bit n ++ d ++ a ++ 0x0#8)
  | .flog2 n d a => some (0x2F#7 ++ bit n ++ d ++ a ++ 0x0#8)
  | .fsin n d a => some (0x30#7 ++ bit n ++ d ++ a ++ 0x0#8)
  | .fcos n d a => some (0x31#7 ++ bit n ++ d ++ a ++ 0x0#8)
  | .dot2 n d a b => some (0x32#7 ++ bit n ++ d ++ a ++ b)
  | .dot4 n d a b => some (0x33#7 ++ bit n ++ d ++ a ++ b)
  | .dot8 n d a b => some (0x34#7 ++ bit n ++ d ++ a ++ b)
  | .setmode e g => some (0x35#7 ++ 0x0#5 ++ e ++ g)
  | .getmode n d => some (0x36#7 ++ bit n ++ d ++ 0x0#16)
  | .mfs n d r => some (0x37#7 ++ bit n ++ d ++ 0x0#8 ++ r)
  | .mts s i => some (0x38#7 ++ 0x0#1 ++ s ++ i)
  | .bra o j => some (0x40#7 ++ o ++ j)
  | .call o => some (0x41#7 ++ o)
  | .join => some (0x42#7 ++ 0x0#25)
  | .brx s j => some (0x43#7 ++ 0x0#1 ++ s ++ j)
  | .calli a => some (0x44#7 ++ 0x0#9 ++ a ++ 0x0#8)
  | .ret => some (0x45#7 ++ 0x0#25)
  | .exit => some (0x46#7 ++ 0x0#25)
  | .ld n d k o i => some (0x50#7 ++ bit n ++ d ++ k ++ o ++ i)
  | .st s k o i => some (0x51#7 ++ 0x0#1 ++ s ++ k ++ o ++ i)
  | .lds n d k o i => some (0x52#7 ++ bit n ++ d ++ k ++ o ++ i)
  | .sts s k o i => some (0x53#7 ++ 0x0#1 ++ s ++ k ++ o ++ i)
  | .ldp n d k o i => some (0x54#7 ++ bit n ++ d ++ k ++ o ++ i)
  | .stp s k o i => some (0x55#7 ++ 0x0#1 ++ s ++ k ++ o ++ i)
  | .ldt n d k v h => some (0x56#7 ++ bit n ++ d ++ k ++ v ++ h)
  | .stt s k v h => some (0x57#7 ++ 0x0#1 ++ s ++ k ++ v ++ h)
  | .atomAdd n d k o c => some (0x60#7 ++ bit n ++ d ++ k ++ o ++ c)
  | .atomMin n d k o c => some (0x61#7 ++ bit n ++ d ++ k ++ o ++ c)
  | .atomMax n d k o c => some (0x62#7 ++ bit n ++ d ++ k ++ o ++ c)
  | .atomAnd n d k o c => some (0x63#7 ++ bit n ++ d ++ k ++ o ++ c)
  | .atomOr n d k o c => some (0x64#7 ++ bit n ++ d ++ k ++ o ++ c)
  | .atomXor n d k o c => some (0x65#7 ++ bit n ++ d ++ k ++ o ++ c)
  | .atomXchg n d k o c => some (0x66#7 ++ bit n ++ d ++ k ++ o ++ c)
  | .atomCas n d k o c => some (0x67#7 ++ bit n ++ d ++ k ++ o ++ c)
  | .redAdd s k o c => some (0x68#7 ++ 0x0#1 ++ s ++ k ++ o ++ c)
  | .redMin s k o c => some (0x69#7 ++ 0x0#1 ++ s ++ k ++ o ++ c)
  | .redMax s k o c => some (0x6A#7 ++ 0x0#1 ++ s ++ k ++ o ++ c)
  | .redAnd s k o c => some (0x6B#7 ++ 0x0#1 ++ s ++ k ++ o ++ c)
  | .redOr s k o c => some (0x6C#7 ++ 0x0#1 ++ s ++ k ++ o ++ c)
  | .redXor s k o c => some (0x6D#7 ++ 0x0#1 ++ s ++ k ++ o ++ c)
  | .mma n d a b => some (0x70#7 ++ bit n ++ d ++ a ++ b)
  | .mmad n d a b => some (0x71#7 ++ bit n ++ d ++ a ++ b)
  | .mmadg n d a b => some (0x72#7 ++ bit n ++ d ++ a ++ b)
  | .mmadw n d a b => some (0x73#7 ++ bit n ++ d ++ a ++ b)
  | .rast n d a b => some (0x74#7 ++ bit n ++ d ++ a ++ b)
  | .tex n d a b => some (0x75#7 ++ bit n ++ d ++ a ++ b)
  | .texg n d a b => some (0x76#7 ++ bit n ++ d ++ a ++ b)
  | .rayq n d a b => some (0x77#7 ++ bit n ++ d ++ a ++ b)
  | .trace n d a b => some (0x78#7 ++ bit n ++ d ++ a ++ b)
  | .lupd d a b => some (0x79#7 ++ 0x0#1 ++ d ++ a ++ b)
  | .tbinit d a b => some (0x7A#7 ++ 0x0#1 ++ d ++ a ++ b)
  | .tbtest n d a b => some (0x7B#7 ++ bit n ++ d ++ a ++ b)
  | .cvtF32F64 r a b => some (0x7E#7 ++ 0x0#6 ++ 0x0#1 ++ r ++ a ++ b)
  | .cvtF64F32 r a b => some (0x7E#7 ++ 0x1#6 ++ 0x0#1 ++ r ++ a ++ b)
  | .cvtF32H16 r a b => some (0x7E#7 ++ 0x2#6 ++ 0x0#1 ++ r ++ a ++ b)
  | .cvtH16F32 r a b => some (0x7E#7 ++ 0x3#6 ++ 0x0#1 ++ r ++ a ++ b)
  | .cvtF32W16 r a b => some (0x7E#7 ++ 0x4#6 ++ 0x0#1 ++ r ++ a ++ b)
  | .cvtW16F32 r a b => some (0x7E#7 ++ 0x5#6 ++ 0x0#1 ++ r ++ a ++ b)
  | .cvtF32S32 r a b => some (0x7E#7 ++ 0x6#6 ++ 0x0#1 ++ r ++ a ++ b)
  | .cvtF32Z32 r a b => some (0x7E#7 ++ 0x7#6 ++ 0x0#1 ++ r ++ a ++ b)
  | .cvtS32F32 r a b => some (0x7E#7 ++ 0x8#6 ++ 0x0#1 ++ r ++ a ++ b)
  | .cvtZ32F32 r a b => some (0x7E#7 ++ 0x9#6 ++ 0x0#1 ++ r ++ a ++ b)
  | .cvtF64S64 r a b => some (0x7E#7 ++ 0xA#6 ++ 0x0#1 ++ r ++ a ++ b)
  | .cvtF64Z64 r a b => some (0x7E#7 ++ 0xB#6 ++ 0x0#1 ++ r ++ a ++ b)
  | .cvtS64F64 r a b => some (0x7E#7 ++ 0xC#6 ++ 0x0#1 ++ r ++ a ++ b)
  | .cvtZ64F64 r a b => some (0x7E#7 ++ 0xD#6 ++ 0x0#1 ++ r ++ a ++ b)
  | .cvtF64S32 r a b => some (0x7E#7 ++ 0xE#6 ++ 0x0#1 ++ r ++ a ++ b)
  | .cvtS32F64 r a b => some (0x7E#7 ++ 0xF#6 ++ 0x0#1 ++ r ++ a ++ b)
  | .cvtF32S64 r a b => some (0x7E#7 ++ 0x10#6 ++ 0x0#1 ++ r ++ a ++ b)
  | .cvtS64F32 r a b => some (0x7E#7 ++ 0x11#6 ++ 0x0#1 ++ r ++ a ++ b)
  | .cvtQ8F32 r a b => some (0x7E#7 ++ 0x12#6 ++ 0x0#1 ++ r ++ a ++ b)
  | .cvtF32Q8 r a b => some (0x7E#7 ++ 0x13#6 ++ 0x0#1 ++ r ++ a ++ b)
  | .cvtQ6F32 r a b => some (0x7E#7 ++ 0x14#6 ++ 0x0#1 ++ r ++ a ++ b)
  | .cvtF32Q6 r a b => some (0x7E#7 ++ 0x15#6 ++ 0x0#1 ++ r ++ a ++ b)
  | .cvtQ4F32 r a b => some (0x7E#7 ++ 0x16#6 ++ 0x0#1 ++ r ++ a ++ b)
  | .cvtF32Q4 r a b => some (0x7E#7 ++ 0x17#6 ++ 0x0#1 ++ r ++ a ++ b)
  | .cvtS8S32 r a b => some (0x7E#7 ++ 0x18#6 ++ 0x0#1 ++ r ++ a ++ b)
  | .cvtZ8Z32 r a b => some (0x7E#7 ++ 0x19#6 ++ 0x0#1 ++ r ++ a ++ b)
  | .cvtS16S32 r a b => some (0x7E#7 ++ 0x1A#6 ++ 0x0#1 ++ r ++ a ++ b)
  | .cvtZ16Z32 r a b => some (0x7E#7 ++ 0x1B#6 ++ 0x0#1 ++ r ++ a ++ b)
  | .cvtS64S32 r a b => some (0x7E#7 ++ 0x1C#6 ++ 0x0#1 ++ r ++ a ++ b)
  | .cvtZ64Z32 r a b => some (0x7E#7 ++ 0x1D#6 ++ 0x0#1 ++ r ++ a ++ b)
  | .cvtS32S64 r a b => some (0x7E#7 ++ 0x1E#6 ++ 0x0#1 ++ r ++ a ++ b)
  | .cvtZ32Z64 r a b => some (0x7E#7 ++ 0x1F#6 ++ 0x0#1 ++ r ++ a ++ b)
  | .packH16 r a b => some (0x7E#7 ++ 0x20#6 ++ 0x0#1 ++ r ++ a ++ b)
  | .unpackH16 a b => some (0x7E#7 ++ 0x21#6 ++ 0x0#3 ++ a ++ b)
  | .packW16 r a b => some (0x7E#7 ++ 0x22#6 ++ 0x0#1 ++ r ++ a ++ b)
  | .unpackW16 a b => some (0x7E#7 ++ 0x23#6 ++ 0x0#3 ++ a ++ b)
  | .packQ8 r a b => some (0x7E#7 ++ 0x24#6 ++ 0x0#1 ++ r ++ a ++ b)
  | .unpackQ8 a b => some (0x7E#7 ++ 0x25#6 ++ 0x0#3 ++ a ++ b)
  | .packQ6 r a b => some (0x7E#7 ++ 0x26#6 ++ 0x0#1 ++ r ++ a ++ b)
  | .unpackQ6 a b => some (0x7E#7 ++ 0x27#6 ++ 0x0#3 ++ a ++ b)
  | .packQ4 r a b => some (0x7E#7 ++ 0x28#6 ++ 0x0#1 ++ r ++ a ++ b)
  | .unpackQ4 a b => some (0x7E#7 ++ 0x29#6 ++ 0x0#3 ++ a ++ b)
  | .packS8 a b => some (0x7E#7 ++ 0x2A#6 ++ 0x0#3 ++ a ++ b)
  | .unpackS8 a b => some (0x7E#7 ++ 0x2B#6 ++ 0x0#3 ++ a ++ b)
  | .packZ8 a b => some (0x7E#7 ++ 0x2C#6 ++ 0x0#3 ++ a ++ b)
  | .unpackZ8 a b => some (0x7E#7 ++ 0x2D#6 ++ 0x0#3 ++ a ++ b)
  | .packS4 a b => some (0x7E#7 ++ 0x2E#6 ++ 0x0#3 ++ a ++ b)
  | .unpackS4 a b => some (0x7E#7 ++ 0x2F#6 ++ 0x0#3 ++ a ++ b)
  | .packZ4 a b => some (0x7E#7 ++ 0x30#6 ++ 0x0#3 ++ a ++ b)
  | .unpackZ4 a b => some (0x7E#7 ++ 0x31#6 ++ 0x0#3 ++ a ++ b)
  | .tcopy a => some (0x7F#7 ++ 0x0#6 ++ 0x0#3 ++ a ++ 0x0#8)
  | .tcopys a => some (0x7F#7 ++ 0x1#6 ++ 0x0#3 ++ a ++ 0x0#8)
  | .treduce a => some (0x7F#7 ++ 0x2#6 ++ 0x0#3 ++ a ++ 0x0#8)
  | .bind a => some (0x7F#7 ++ 0x3#6 ++ 0x0#3 ++ a ++ 0x0#8)
  | .unbind a => some (0x7F#7 ++ 0x4#6 ++ 0x0#3 ++ a ++ 0x0#8)
  | .waitc c t => some (0x7F#7 ++ 0x5#6 ++ c ++ 0x0#10 ++ t)
  | .tbexpect a b => some (0x7F#7 ++ 0x6#6 ++ 0x0#3 ++ a ++ b)
  | .tbarrive a => some (0x7F#7 ++ 0x7#6 ++ 0x0#3 ++ a ++ 0x0#8)
  | .tbwait a b => some (0x7F#7 ++ 0x8#6 ++ 0x0#3 ++ a ++ b)
  | .bar c m => some (0x7F#7 ++ 0x9#6 ++ c ++ 0x0#4 ++ m ++ 0x0#8)
  | .gbar => some (0x7F#7 ++ 0xA#6 ++ 0x0#19)
  | .backoff => some (0x7F#7 ++ 0xB#6 ++ 0x0#19)
  | .fence s => some (0x7F#7 ++ 0xC#6 ++ s ++ 0x0#16)
  | .fenceRp s a => some (0x7F#7 ++ 0xD#6 ++ s ++ a ++ 0x0#8)
  | .sptest d b => some (0x7F#7 ++ 0xE#6 ++ 0x0#3 ++ d ++ b)
  | .spcast c d b => some (0x7F#7 ++ 0xF#6 ++ c ++ d ++ b)
  | .spcastOff c d b => some (0x7F#7 ++ 0x10#6 ++ c ++ d ++ b)
  | .sysflush a b => some (0x7F#7 ++ 0x11#6 ++ 0x0#3 ++ a ++ b)
  | .sysinv a b => some (0x7F#7 ++ 0x12#6 ++ 0x0#3 ++ a ++ b)
  | .mldn a b => some (0x7F#7 ++ 0x13#6 ++ 0x0#3 ++ a ++ b)
  | .mldw a b => some (0x7F#7 ++ 0x14#6 ++ 0x0#3 ++ a ++ b)
  | .curve s b => some (0x7F#7 ++ 0x15#6 ++ s ++ 0x0#8 ++ b)
  | .bmap b => some (0x7F#7 ++ 0x16#6 ++ 0x0#11 ++ b)
  | .dtest p a b => some (0x7F#7 ++ 0x17#6 ++ p ++ a ++ b)
  | .blend o a b => some (0x7F#7 ++ 0x18#6 ++ o ++ a ++ b)
  | .pstore l a b => some (0x7F#7 ++ 0x19#6 ++ l ++ a ++ b)
  | .resid a => some (0x7F#7 ++ 0x1A#6 ++ 0x0#3 ++ a ++ 0x0#8)
  | .evpop d b => some (0x7F#7 ++ 0x1B#6 ++ 0x0#3 ++ d ++ b)
  | .svc w h l => some (0x7F#7 ++ 0x1C#6 ++ 0x0#2 ++ bit w ++ h ++ l)
  | .assert a => some (0x7F#7 ++ 0x1D#6 ++ 0x0#3 ++ a ++ 0x0#8)
  | .trap c => some (0x7F#7 ++ 0x1E#6 ++ 0x0#11 ++ c)
  | .resume => some (0x7F#7 ++ 0x1F#6 ++ 0x0#19)
  | .skip => some (0x7F#7 ++ 0x20#6 ++ 0x0#19)
  | .brkpt => some (0x7F#7 ++ 0x21#6 ++ 0x0#19)
  | .uisend d b => some (0x7F#7 ++ 0x22#6 ++ 0x0#3 ++ d ++ b)
  | .uiret => some (0x7F#7 ++ 0x23#6 ++ 0x0#19)
  | .idemEnter => some (0x7F#7 ++ 0x24#6 ++ 0x0#19)
  | .idemLeave => some (0x7F#7 ++ 0x24#6 ++ 0x10000#19)
  | .hold => some (0x7F#7 ++ 0x25#6 ++ 0x0#19)
  | .waitEnd _ _ => none
  | .loadReturn _ _ _ _ => none
  | .heldLoadComplete _ _ => none
  | .storePerform _ _ _ => none
  | .remotePerform _ _ _ => none
  | .matrixWriteback _ _ => none
  | .fmtEmuComplete _ _ => none
  | .walkComplete _ _ _ _ => none
  | .demandMapComplete _ _ => none
  | .frameGrant _ _ _ => none
  | .migrationComplete _ _ _ => none
  | .hostMigrationRequest _ _ => none
  | .throttleExpiry _ _ => none
  | .sideLogReplay _ _ => none
  | .cacheEviction _ _ _ _ => none
  | .sysCacheOpComplete _ _ _ => none
  | .atomicopCompletion _ _ _ _ => none
  | .epochClose _ => none
  | .dmrCompare _ _ => none
  | .copyStart _ _ => none
  | .sectorLanding _ _ _ _ => none
  | .copyPause _ _ _ => none
  | .copyResume _ _ _ => none
  | .copyStop _ _ _ _ => none
  | .treduceComplete _ _ => none
  | .oculusCompare _ _ => none
  | .gangDieArrival _ _ _ => none
  | .lanternExec _ _ _ => none
  | .uiDelivery _ => none
  | .alarmExpiry _ _ => none
  | .alarmTrap _ _ => none
  | .breakpointMatch _ _ => none
  | .stepHold _ _ => none
  | .latchIdleInvalidate _ _ _ => none
  | .aging _ _ => none
  | .backoffDecay _ _ => none
  | .backoffDelayEnd _ _ => none
  | .resumeClassExpiry _ _ => none
  | .demandParkEligible _ _ => none
  | .demandPark _ _ => none
  | .imageDrainComplete _ => none
  | .teamRestore _ _ => none
  | .shadowFillComplete _ _ _ => none
  | .bankSwap _ _ => none
  | .preemptRequest _ _ => none
  | .preemptSafePoint _ _ => none
  | .contextWake _ => none
  | .packetRead _ _ => none
  | .teamPlace _ => none
  | .launchComplete _ => none
  | .completionWordWrite _ => none
  | .svcDeferredPost _ _ => none
  | .serviceRequestServe _ _ _ _ => none
  | .cupolaDoorbell _ => none
  | .cupolaRound _ _ _ => none
  | .launchQueueDoorbell _ _ => none
  | .qctlWrite _ _ => none
  | .invgo _ => none
  | .invalidationComplete => none
  | .chalt _ _ => none
  | .contextEnable _ => none
  | .contextEndRequest _ => none
  | .loghead _ _ => none
  | .doorbellSend _ _ => none
  | .peerSendReceive _ _ _ _ => none
  | .debugHold _ => none
  | .debugRelease _ => none
  | .debugHoldAll _ => none
  | .debugWindowWrite _ _ _ => none
  | .registerWrite _ _ _ _ => none
  | .atsInvalidationRequest _ => none
  | .pageRequestResponse _ _ _ => none
  | .inboundAtomicop => none
  | .firmwareRecovery _ => none
  | .powerGood => none
  | .stage1Complete _ _ _ => none
  | .stage2Complete _ _ _ => none
  | .clockStep _ => none
  | .hotSpot105 => none
  | .hotSpot115 => none
  | .cxlPortFailure _ => none
  | .serviceInstanceFailure _ _ => none
  | .eccCorrected _ => none
  | .eccImageError _ => none
  | .stage0Complete => none
  | .completionTimeout _ _ => none
  | .hostRuntimeServiceReply _ _ _ _ => none
  | .sendStatusReturn _ _ _ => none
  | .partitionChange _ _ => none
  | .doorbellPageBind _ _ => none
  | .dieScratchpadBlockGive _ _ _ => none

/-- Little-endian bytes of a word, and back (R3, R199). -/
def wordBytes (w : Word) : List Byte := [w.extractLsb' 0 8, w.extractLsb' 8 8, w.extractLsb' 16 8, w.extractLsb' 24 8]

/-- The word of four little-endian bytes; bytes that are not there are 0. -/
def bytesWord (bs : List Byte) : Word := (bs.getD 3 0 ++ bs.getD 2 0 ++ bs.getD 1 0 ++ bs.getD 0 0 : BitVec 32)

/-- Decoding from the bytes in memory. -/
def decodeBytes (bs : List Byte) : Except Fate Instr := decode (bytesWord bs)

/-- The instruction the decoder reads from a table word of `nbits` bits, the bits above them 0. -/
def decodeTableWord (nbits w : Nat) : Option Instr :=
  match decodeBytes (wordBytes (BitVec.ofNat 32 (w % 2 ^ nbits))) with
  | .ok i => some i
  | .error _ => none

end Sys2Proof
end

