-- ==== Sys2Proof/Config.lean ====
section
/-!
DEFINITION. What the shipped module fixes (R1, R10, R94) and the free values: constants without a body, of which nothing can
be evaluated or proved (log entries 5 to 7).
-/

namespace Sys2Proof.Config

/-- Dies of the module (R10). -/
abbrev dies : Nat := 4

/-- Physical cores of a die (R10). -/
abbrev coresPerDie : Nat := 64

/-- Cells of a die (R10). -/
abbrev cellsPerDie : Nat := 16

/-- Slices of a die (R12). -/
abbrev slicesPerDie : Nat := 16

/-- Group slots of a core (R14). -/
abbrev groupSlots : Nat := 96

/-- Register granules of a core's bank (R14). -/
abbrev granules : Nat := 512

/-- Scratchpad of a core's bank in KiB (R14). -/
abbrev scratchKiB : Nat := 320

/-- Bytes of a die's scratchpad (R94). -/
abbrev dieScratchBytes : Nat := 32 * 1024 * 1024

/-- Units of a service request ring (R393). -/
abbrev ringUnits : Nat := 8192

/-- Reconvergence entries of a section (R98). -/
abbrev stackMax : Nat := 256

/-- Copy command queue entries that any section may take (R120). -/
abbrev sharedCopyEntries : Nat := 64

/-- FREE VALUE (log entry 5): the core cycles that step number `n` of the machine takes (R87). -/
opaque cyclesOfStep : Nat → Nat

/-- FREE VALUE (log entry 5): the tens of nanoseconds that step number `n` of the machine takes (R87). -/
opaque tensOfNsOfStep : Nat → Nat

/-- FREE VALUE (log entry 26): the bytes that a spilled reconvergence entry, or a part of an image without a stated layout, takes in
a save area (R98, R114, R115): serial number, byte. -/
opaque imageByte : Nat → Nat → Byte

/-- FREE VALUE (log entry 6): whether a transcendental under RNE returns the upper of the two bracketing values, where R280
leaves the choice open (operation, format code, operand bits). -/
opaque transUpper : Nat → Nat → Nat → Bool

/-- FREE VALUE (log entry 7): the SHA-512 digest function of R381, which the spec names and does not define. -/
opaque sha512 : List Byte → List Byte

/-- FREE VALUE (log entry 7): the Ed25519 check of R381: key, digest, signature. -/
opaque ed25519Verify : List Byte → List Byte → List Byte → Bool

/-- FREE VALUE (log entry 7): the key digest fused in the part (R381). -/
opaque fusedKeyDigest : List Byte

end Sys2Proof.Config
end

