-- ==== Sys2Proof/Machine/Store.lean ====
section
/-!
DEFINITION. Tables in canonical form, little-endian bytes (R3), and masks of lanes (R16).
-/

namespace Sys2Proof.Machine

/-- The value a table holds at a key: the default where the key is not listed. -/
def tget {α : Type} (d : α) : Table α → Nat → α
  | [], _ => d
  | (k', v) :: r, k => if k = k' then v else tget d r k

/-- Writing one key; the default removes every entry of the key, so that equal tables are equal data. -/
def tset {α : Type} [DecidableEq α] (d : α) : Table α → Nat → α → Table α
  | [], k, v => if v = d then [] else [(k, v)]
  | (k', v') :: r, k, v =>
    if k < k' then (if v = d then (k', v') :: r.filter (fun e => e.1 != k) else (k, v) :: (k', v') :: r)
    else if k = k' then (if v = d then r.filter (fun e => e.1 != k) else (k, v) :: r)
    else (k', v') :: tset d r k v

/-- Writing several keys in order. -/
def tsets {α : Type} [DecidableEq α] (d : α) (t : Table α) (kvs : List (Nat × α)) : Table α :=
  kvs.foldl (fun t kv => tset d t kv.1 kv.2) t

/-- Keys strictly rise and no entry equals the default. -/
def Table.wf {α : Type} [DecidableEq α] (d : α) : Table α → Bool
  | [] => true
  | [(_, v)] => decide (v ≠ d)
  | (k, v) :: (k', v') :: r => decide (k < k') && decide (v ≠ d) && Table.wf d ((k', v') :: r)

/-- The little-endian bytes of a number (R3). -/
def toBytes : Nat → Nat → List Byte
  | 0, _ => []
  | n + 1, v => BitVec.ofNat 8 v :: toBytes n (v / 256)

/-- The number of little-endian bytes (R3). -/
def ofBytes : List Byte → Nat
  | [] => 0
  | b :: r => b.toNat + 256 * ofBytes r

/-- The bytes of a byte table from an offset on. -/
def readBytes (t : Table Byte) (off n : Nat) : List Byte := (List.range n).map (fun i => tget 0 t (off + i))

/-- Writing bytes to a byte table from an offset on. -/
def writeBytes (t : Table Byte) (off : Nat) (bs : List Byte) : Table Byte :=
  tsets 0 t (bs.mapIdx (fun i b => (off + i, b)))

/-- Reading `n` little-endian bytes as a number. -/
def readNat (t : Table Byte) (off n : Nat) : Nat := ofBytes (readBytes t off n)

/-- Writing a number as `n` little-endian bytes. -/
def writeNat (t : Table Byte) (off n v : Nat) : Table Byte := writeBytes t off (toBytes n v)

/-- Bits `lo` and up, `w` of them, of a number (R7). -/
def bits (v lo w : Nat) : Nat := v / 2 ^ lo % 2 ^ w

/-- The value of an `n`-bit number read as two's complement (R7). -/
def sext (v n : Nat) : Int := if v % 2 ^ n < 2 ^ (n - 1) then (v % 2 ^ n : Nat) else (v % 2 ^ n : Nat) - (2 ^ n : Nat)

/-- Bit of a Bool. -/
def b2n (b : Bool) : Nat := if b then 1 else 0

/-- The lanes of a mask over `g` groups, in section-relative group and then lane order (R77, R257). -/
def lanesOf (m : Mask) (g : Nat) : List Nat := (List.range (32 * g)).filter (fun l => m.getLsbD l)

/-- The mask of a list of lanes. -/
def maskOf (ls : List Nat) : Mask := ls.foldl (fun m l => m ||| BitVec.twoPow 1024 l) 0

/-- All lanes of `g` groups. -/
def fullMask (g : Nat) : Mask := BitVec.ofNat 1024 (2 ^ (32 * g) - 1)

/-- The 32-bit mask word of a group (R16). -/
def maskWord (m : Mask) (g : Nat) : Word := m.extractLsb' (32 * g) 32

/-- The summary word of a mask (R16). -/
def maskSummary (m : Mask) : Word :=
  BitVec.ofNat 32 ((List.range 32).foldl (fun a g => if maskWord m g = 0 then a else a + 2 ^ g) 0)

/-- The mask of one group's lanes. -/
def groupMask (g : Nat) : Mask := BitVec.ofNat 1024 ((2 ^ 32 - 1) * 2 ^ (32 * g))

/-- Groups whose mask word is not empty, ascending (R17). -/
def groupsOf (m : Mask) (g : Nat) : List Nat := (List.range g).filter (fun i => decide (maskWord m i ≠ 0))

end Sys2Proof.Machine
end

