-- ==== Sys2Proof/Machine/Float.lean ====
section
/-!
DEFINITION. Number formats, exact values and the one rounding (R35 to R48, R280).
-/

namespace Sys2Proof.Machine

/-- An exact rational, normalised by `Q.make`; the denominator is positive. -/
structure Q where
  num : Int
  den : Nat
  deriving DecidableEq, Repr

/-- A rational in lowest terms. -/
def Q.make (n : Int) (d : Nat) : Q :=
  let g := Nat.gcd n.natAbs d
  if g ≤ 1 then ⟨n, d⟩ else ⟨n / (g : Int), d / g⟩

def Q.ofInt (n : Int) : Q := ⟨n, 1⟩
def Q.zero : Q := ⟨0, 1⟩
def Q.one : Q := ⟨1, 1⟩
def Q.add (a b : Q) : Q := Q.make (a.num * b.den + b.num * a.den) (a.den * b.den)
def Q.neg (a : Q) : Q := ⟨-a.num, a.den⟩
def Q.sub (a b : Q) : Q := a.add b.neg
def Q.mul (a b : Q) : Q := Q.make (a.num * b.num) (a.den * b.den)
def Q.abs (a : Q) : Q := ⟨a.num.natAbs, a.den⟩
/-- 1 ÷ a; 0 for 0, which no caller asks. -/
def Q.inv (a : Q) : Q := if a.num = 0 then Q.zero else if a.num < 0 then ⟨-a.den, a.num.natAbs⟩ else ⟨a.den, a.num.natAbs⟩
def Q.div (a b : Q) : Q := a.mul b.inv
def Q.lt (a b : Q) : Bool := decide (a.num * b.den < b.num * a.den)
def Q.le (a b : Q) : Bool := decide (a.num * b.den ≤ b.num * a.den)
def Q.eq (a b : Q) : Bool := decide (a.num * b.den = b.num * a.den)
def Q.isZero (a : Q) : Bool := decide (a.num = 0)
def Q.isNeg (a : Q) : Bool := decide (a.num < 0)
def Q.min (a b : Q) : Q := if b.lt a then b else a
def Q.max (a b : Q) : Q := if a.lt b then b else a
def Q.floor (a : Q) : Int := a.num / (a.den : Int)
def Q.ceil (a : Q) : Int := -((-a.num) / (a.den : Int))
/-- 2^e. -/
def Q.pow2 (e : Int) : Q := if e < 0 then ⟨1, 2 ^ e.natAbs⟩ else ⟨2 ^ e.natAbs, 1⟩
def Q.half : Q := ⟨1, 2⟩
def Q.sum (l : List Q) : Q := l.foldl Q.add Q.zero

/-- floor(log2 a) of a positive rational. -/
def Q.log2 (a : Q) : Int :=
  let e : Int := (Nat.log2 a.num.natAbs : Int) - (Nat.log2 a.den : Int)
  if (Q.pow2 e).le a then e else e - 1

/-- floor(√n), by bits. -/
def isqrtAux : Nat → Nat → Nat → Nat
  | 0, _, r => r
  | k + 1, n, r => isqrtAux k n (if (r + 2 ^ k) * (r + 2 ^ k) ≤ n then r + 2 ^ k else r)

/-- floor(√n). -/
def isqrt (n : Nat) : Nat := isqrtAux (Nat.log2 n / 2 + 1) n 0

/-- The square root of a rational when it is rational; else a rational on the same side of every number of fewer than `k`
bits after its leading bit. -/
def Q.sqrt (k : Nat) (a : Q) : Q :=
  let rn := isqrt a.num.natAbs
  let rd := isqrt a.den
  if rn * rn = a.num.natAbs ∧ rd * rd = a.den then ⟨rn, rd⟩
  else
    let s : Nat := k + Nat.log2 a.den
    let r := isqrt (a.num.natAbs * 4 ^ s / a.den)
    Q.make (2 * r + 1) (2 * 2 ^ s)

/-- The floating-point formats (R37). -/
inductive Fmt where
  | f64 | f32 | h16 | w16 | q8 | q6 | q4
  deriving DecidableEq, Repr

def Fmt.expBits : Fmt → Nat
  | .f64 => 11 | .f32 => 8 | .h16 => 5 | .w16 => 8 | .q8 => 4 | .q6 => 3 | .q4 => 2
def Fmt.fracBits : Fmt → Nat
  | .f64 => 52 | .f32 => 23 | .h16 => 10 | .w16 => 7 | .q8 => 3 | .q6 => 2 | .q4 => 1
def Fmt.bias : Fmt → Int
  | .f64 => 1023 | .f32 => 127 | .h16 => 15 | .w16 => 127 | .q8 => 8 | .q6 => 3 | .q4 => 1
/-- The all-ones exponent encodes infinities and NaNs (R38). -/
def Fmt.ieee : Fmt → Bool
  | .f64 | .f32 | .h16 | .w16 => true
  | .q8 | .q6 | .q4 => false
def Fmt.width (f : Fmt) : Nat := 1 + f.expBits + f.fracBits
def Fmt.code : Fmt → Nat
  | .f64 => 10 | .f32 => 11 | .h16 => 12 | .w16 => 13 | .q8 => 14 | .q6 => 15 | .q4 => 16

/-- Rounding modes (R41). -/
inductive RM where
  | rne | rtz | rup | rdn
  deriving DecidableEq, Repr

/-- GMODE's rounding field (R41). -/
def RM.ofField (x : BitVec 2) : RM :=
  if x = 0 then .rne else if x = 1 then .rtz else if x = 2 then .rup else .rdn

/-- Saturation values (R36). -/
inductive Sat where
  | narrow | all | none
  deriving DecidableEq, Repr

/-- GMODE's saturation field (R36); code 3 cannot be written (R62). -/
def Sat.ofField (x : BitVec 2) : Sat := if x = 1 then .all else if x = 2 then .none else .narrow

/-- FPFLAGS bits (R46). -/
abbrev fNV : Word := 1
abbrev fDZ : Word := 2
abbrev fOF : Word := 4
abbrev fUF : Word := 8
abbrev fNX : Word := 16
abbrev fSAT : Word := 32

/-- The value a bit pattern encodes (R38): a magnitude with its sign, so that zeros keep theirs. -/
inductive FVal where
  | nan (signalling : Bool)
  | inf (neg : Bool)
  | fin (neg : Bool) (mag : Q)
  deriving DecidableEq, Repr

def FVal.isNan : FVal → Bool
  | .nan _ => true
  | _ => false
def FVal.isSnan : FVal → Bool
  | .nan s => s
  | _ => false
def FVal.isInf : FVal → Bool
  | .inf _ => true
  | _ => false
def FVal.isZero : FVal → Bool
  | .fin _ q => q.isZero
  | _ => false
def FVal.sign : FVal → Bool
  | .nan _ => false
  | .inf s => s
  | .fin s _ => s
/-- The exact value of a finite pattern (R7). -/
def FVal.toQ : FVal → Q
  | .fin true q => q.neg
  | .fin false q => q
  | _ => Q.zero
def FVal.neg : FVal → FVal
  | .nan s => .nan s
  | .inf s => .inf (!s)
  | .fin s q => .fin (!s) q
/-- A finite value of a rational; zero takes the sign given. -/
def FVal.ofQ (zneg : Bool) (q : Q) : FVal := if q.isZero then .fin zneg Q.zero else .fin q.isNeg q.abs

/-- The NaN code or canonical NaN (R39, R40); q4 has none and writes 0. -/
def Fmt.nan : Fmt → Nat
  | .f64 => 0x7FF8000000000000 | .f32 => 0x7FC00000 | .h16 => 0x7E00 | .w16 => 0x7FC0 | .q8 => 0x80 | .q6 => 0x20 | .q4 => 0

/-- The value of a bit pattern (R38, R39). -/
def Fmt.value (f : Fmt) (v : Nat) : FVal :=
  let v := v % 2 ^ f.width
  let s := decide (bits v (f.width - 1) 1 = 1)
  let e := bits v f.fracBits f.expBits
  let m := bits v 0 f.fracBits
  if f.ieee then
    if e = 2 ^ f.expBits - 1 then (if m = 0 then .inf s else .nan (decide (bits v (f.fracBits - 1) 1 = 0)))
    else if e = 0 then .fin s ((Q.ofInt m).mul (Q.pow2 (1 - f.bias - f.fracBits)))
    else .fin s ((Q.ofInt (2 ^ f.fracBits + m)).mul (Q.pow2 (e - f.bias - f.fracBits)))
  else if v = 2 ^ (f.width - 1) then (if f = .q4 then .fin false Q.zero else .nan false)
  else if e = 0 then .fin s ((Q.ofInt m).mul (Q.pow2 (1 - f.bias - f.fracBits)))
  else .fin s ((Q.ofInt (2 ^ f.fracBits + m)).mul (Q.pow2 (e - f.bias - f.fracBits)))

/-- The pattern of the largest finite magnitude (R37). -/
def Fmt.maxBits (f : Fmt) : Nat := if f.ieee then 2 ^ (f.width - 1) - 2 ^ f.fracBits - 1 else 2 ^ (f.width - 1) - 1

def Fmt.signed (f : Fmt) (neg : Bool) (v : Nat) : Nat := if neg then v + 2 ^ (f.width - 1) else v

def Fmt.infBits (f : Fmt) : Nat := 2 ^ (f.width - 1) - 2 ^ f.fracBits

/-- The pattern is subnormal (R44). -/
def Fmt.isSubnormal (f : Fmt) (v : Nat) : Bool := decide (bits v f.fracBits f.expBits = 0 ∧ bits v 0 f.fracBits ≠ 0)

/-- The integer nearest to a nonnegative rational under a mode, for a value of the given sign (R41). -/
def roundMag (rm : RM) (neg : Bool) (x : Q) : Nat :=
  let fl := x.floor.toNat
  let r := x.sub (Q.ofInt fl)
  if r.isZero then fl
  else
    match rm with
    | .rtz => fl
    | .rup => if neg then fl else fl + 1
    | .rdn => if neg then fl + 1 else fl
    | .rne => if r.lt Q.half then fl else if Q.half.lt r then fl + 1 else if fl % 2 = 0 then fl else fl + 1

/-- A result and the flags it sets (R46, R47). -/
structure FRes where
  bits  : Nat
  flags : Word
  deriving DecidableEq, Repr

/-- The result of an overflow (R43). -/
def overflow (f : Fmt) (rm : RM) (sat : Sat) (neg : Bool) : FRes :=
  let toInf : Bool := match rm with
    | .rne => true
    | .rtz => false
    | .rup => !neg
    | .rdn => neg
  match f.ieee, sat with
  | true, .all => ⟨f.signed neg f.maxBits, fOF ||| fNX ||| (if toInf then fSAT else 0)⟩
  | true, _ => ⟨f.signed neg (if toInf then f.infBits else f.maxBits), fOF ||| fNX⟩
  | false, .none => if f = .q4 then ⟨f.signed neg f.maxBits, fOF ||| fNX ||| fSAT⟩ else ⟨f.nan, fOF ||| fNX⟩
  | false, _ => ⟨f.signed neg f.maxBits, fOF ||| fNX ||| fSAT⟩

/-- round(±mag, f, rm) of R7 for a nonzero magnitude, with R43 and R44; `ftz` flushes a tiny f32 result. -/
def roundNonzero (f : Fmt) (rm : RM) (sat : Sat) (ftz : Bool) (neg : Bool) (mag : Q) : FRes :=
  let F : Int := f.fracBits
  let emin : Int := 1 - f.bias
  let e := mag.log2
  let e' := if e < emin then emin else e
  let n := roundMag rm neg (mag.mul (Q.pow2 (F - e')))
  let exactly := ((Q.ofInt n).mul (Q.pow2 (e' - F))).eq mag
  let maxMag := match f.value f.maxBits with
    | .fin _ q => q
    | _ => Q.zero
  if maxMag.lt ((Q.ofInt n).mul (Q.pow2 (e' - F))) then overflow f rm sat neg
  else
    let nu := roundMag rm neg (mag.mul (Q.pow2 (F - e)))
    let tiny := ((Q.ofInt nu).mul (Q.pow2 (e - F))).lt (Q.pow2 emin)
    if tiny && ftz && decide (f = .f32) then ⟨f.signed neg 0, fUF ||| fNX⟩
    else
      let v := ((e' + f.bias - 1) * 2 ^ f.fracBits + n).toNat
      let v := if v = 0 ∧ f.ieee = false then 0 else f.signed neg v
      ⟨v, if exactly then 0 else if tiny then fUF ||| fNX else fNX⟩

/-- Narrowing an exact result or special value to a format (R40, R43, R44): `fput` of R273 and every other rounding. -/
def putF (f : Fmt) (rm : RM) (sat : Sat) (ftz : Bool) : FVal → FRes
  | .nan s => ⟨f.nan, (if s ∨ f = .q4 then fNV else 0)⟩
  | .inf neg =>
    if f.ieee then
      if sat = .all then ⟨f.signed neg f.maxBits, fSAT⟩ else ⟨f.signed neg f.infBits, 0⟩
    else overflow f rm sat neg
  | .fin neg q => if q.isZero then ⟨if f.ieee then f.signed neg 0 else 0, 0⟩ else roundNonzero f rm sat ftz neg q

/-- The sign of an exact zero sum (R48): minus when every term is −0 or the mode is RDN. -/
def zeroSumNeg (rm : RM) (terms : List FVal) : Bool :=
  decide (rm = .rdn) || terms.all (fun t => t.isZero && t.sign)

/-- An exact product as a value (R48): NaN, infinity or a signed exact product; the flag is 0 × ∞. -/
def mulF (a b : FVal) : FVal × Bool :=
  match a, b with
  | .nan s, .nan s' => (.nan (s || s'), false)
  | .nan s, _ => (.nan s, false)
  | _, .nan s => (.nan s, false)
  | .inf s, .inf s' => (.inf (s != s'), false)
  | .inf s, .fin s' q => if q.isZero then (.nan true, true) else (.inf (s != s'), false)
  | .fin s q, .inf s' => if q.isZero then (.nan true, true) else (.inf (s != s'), false)
  | .fin s q, .fin s' q' => (.fin (s != s') (q.mul q'), false)

/-- The product of several factors (R48, scales included), from the first on. Where one product holds a quiet NaN with a zero and an infinity,
whether that counts as 0 × infinity (NV) is open, and the model's answer is that of this order (log entry 111). -/
def prodF (l : List FVal) : FVal := l.foldl (fun a b => (mulF a b).1) (.fin false Q.one)

/-- The exact sum of terms (R48), every special value by its rule: a signalling NaN here stands for every cause that sets NV. -/
def sumF (rm : RM) (terms : List FVal) : FVal :=
  let nans := terms.filter FVal.isNan
  let pinf := terms.any (fun t => t == .inf false)
  let ninf := terms.any (fun t => t == .inf true)
  if !nans.isEmpty then .nan (nans.any FVal.isSnan || (pinf && ninf))
  else if pinf && ninf then .nan true
  else if pinf then .inf false
  else if ninf then .inf true
  else
    let t := Q.sum (terms.map FVal.toQ)
    .ofQ (zeroSumNeg rm terms) t

/-- One sum of R48 rounded once. -/
def roundSum (f : Fmt) (rm : RM) (sat : Sat) (terms : List FVal) : FRes := putF f rm sat false (sumF rm terms)

/-- rn(a op b) of R54 on f32 patterns, with its flags. -/
def f32Val (v : Nat) : FVal := Fmt.f32.value v
def addF32 (rm : RM) (sat : Sat) (a b : Nat) : FRes := roundSum .f32 rm sat [f32Val a, f32Val b]
def subF32 (rm : RM) (sat : Sat) (a b : Nat) : FRes := roundSum .f32 rm sat [f32Val a, (f32Val b).neg]
def mulF32 (rm : RM) (sat : Sat) (a b : Nat) : FRes := putF .f32 rm sat false (mulF (f32Val a) (f32Val b)).1

/-- a ÷ b (R274), with DZ. -/
def divF (a b : FVal) : FVal × Word :=
  match a, b with
  | .nan s, .nan s' => (.nan (s || s'), 0)
  | .nan s, _ => (.nan s, 0)
  | _, .nan s => (.nan s, 0)
  | .inf _, .inf _ => (.nan true, 0)
  | .inf s, .fin s' _ => (.inf (s != s'), 0)
  | .fin s _, .inf s' => (.fin (s != s') Q.zero, 0)
  | .fin s q, .fin s' q' =>
    if q'.isZero then (if q.isZero then (.nan true, 0) else (.inf (s != s'), fDZ))
    else (.fin (s != s') (q.div q'), 0)

/-- Converting a value to an integer under a mode: the nearest integer, or the end of the range (R45). -/
def toIntF (rm : RM) (lo hi : Int) (v : FVal) : Int × Word :=
  match v with
  | .nan _ => (0, fNV)
  | .inf s => (if s then lo else hi, fNV)
  | .fin s q =>
    let n : Int := roundMag rm s q
    let n := if s then -n else n
    if n < lo then (lo, fNV) else if hi < n then (hi, fNV)
    else (n, if (Q.ofInt n).eq (FVal.fin s q).toQ then 0 else fNX)

/-- Fixed-point bits of the transcendental evaluations. -/
abbrev tP : Nat := 400

/-- Σ 1 ÷ (n 2^n) in fixed point: ln 2. -/
def ln2Fix : Nat := (List.range (tP + 10)).foldl (fun a n => a + 2 ^ (tP + 8) / ((n + 1) * 2 ^ (n + 1))) 0 / 2 ^ 8

/-- arctan(1/x) in fixed point with `p` bits. -/
def atanInv (p x : Nat) : Int :=
  ((List.range (p / 2 + 2)).foldl (fun (a : Int × Int) (k : Nat) =>
    let t := a.2
    ((if k % 2 = 0 then a.1 + t / ((2 * k + 1 : Nat) : Int) else a.1 - t / ((2 * k + 1 : Nat) : Int)), t / (x * x : Nat))) (0, (2 ^ p / x : Nat))).1

/-- π in fixed point with `p` bits, by Machin's sum. -/
def piFix (p : Nat) : Int := (16 * atanInv (p + 16) 5 - 4 * atanInv (p + 16) 239) / 2 ^ 16

/-- e^y for a fixed-point y in [0, 1). -/
def expFix (y : Nat) : Nat :=
  ((List.range 100).foldl (fun (a : Nat × Nat) n => (a.1 + a.2, a.2 * y / 2 ^ tP / (n + 1))) (0, 2 ^ tP)).1

/-- 2^a for a rational that is no integer (R279). -/
def exp2Q (a : Q) : Q :=
  let n := a.floor
  let f := a.sub (Q.ofInt n)
  -- an operand within 2^-300 of an integer lies on the same side of every number near 2^n
  let y := (f.num.natAbs * ln2Fix) / f.den
  let m := if y = 0 then 2 ^ tP else expFix y
  let near1 := f.mul (Q.pow2 (-1))
  let r : Q := if y < 2 ^ 100 then Q.one.add (near1.min (Q.pow2 (-300))) else Q.make (2 * m + 1) (2 * 2 ^ tP)
  let top := Q.one.sub f
  let r := if top.lt (Q.pow2 (-300)) then (Q.ofInt 2).sub (Q.pow2 (-300)) else r
  r.mul (Q.pow2 n)

/-- The binary digits of log2 m, m in [1, 2), by repeated squaring in fixed point. -/
def log2Digits : Nat → Nat → Nat → Nat
  | 0, _, acc => acc
  | k + 1, m, acc =>
    let s := m * m / 2 ^ 1200
    if 2 * 2 ^ 1200 ≤ s then log2Digits k (s / 2) (2 * acc + 1) else log2Digits k s (2 * acc)

/-- log2 a for a positive rational that is no power of two (R279). -/
def log2Q (a : Q) : Q :=
  let e := a.log2
  let m := a.mul (Q.pow2 (-e))
  let d := log2Digits 400 (m.num.natAbs * 2 ^ 1200 / m.den) 0
  (Q.ofInt e).add (Q.make (2 * d + 1) (2 * 2 ^ 400))

/-- sin(π r) for a rational 0 < r < 1/2, to about 300 bits beyond its leading one; within 2^-100 of 1/2 the value lies between
1 - 2^-190 and 1, on one side of every number that decides a rounding. -/
def sinPiQ (r : Q) : Q :=
  if (Q.half.sub r).lt (Q.pow2 (-100)) then Q.one.sub (Q.pow2 (-190)) else
  let p := 400 + Nat.log2 r.den
  let x := (r.num * piFix p) / r.den
  let x2 := x * x / 2 ^ p
  let s := ((List.range 80).foldl (fun (a : Int × Int) (k : Nat) =>
    (a.1 + a.2, -(a.2 * x2 / 2 ^ p / ((2 * k + 2) * (2 * k + 3) : Nat)))) ((0 : Int), x)).1
  Q.make (2 * s + 1) (2 * 2 ^ p)

/-- sin(π a) of a rational whose double is no integer: sign and magnitude (R279). -/
def sinPiSigned (a : Q) : Bool × Q :=
  let t := a.sub ((Q.ofInt 2).mul (Q.ofInt (a.mul Q.half).floor))  -- a mod 2
  let neg := Q.one.lt t
  let t := if neg then t.sub Q.one else t
  let t := if Q.half.lt t then Q.one.sub t else t
  (neg, sinPiQ t)

/-- Narrowing a transcendental value that no format represents (R280): under RNE, within 2^-10 of a tie, the free choice. -/
def putTrans (op : Nat) (operand : Nat) (f : Fmt) (rm : RM) (sat : Sat) (ftz : Bool) (neg : Bool) (mag : Q) : FRes :=
  let F : Int := f.fracBits
  let emin : Int := 1 - f.bias
  let e := if mag.log2 < emin then emin else mag.log2
  let x := mag.mul (Q.pow2 (F - e))
  let fl := Q.ofInt x.floor
  let r := x.sub fl
  let near := decide (rm = .rne) && (Q.half.sub (Q.pow2 (-10))).le r && r.le (Q.half.add (Q.pow2 (-10)))
  let x' := if near then fl.add (if Config.transUpper op f.code operand then ⟨3, 4⟩ else ⟨1, 4⟩) else x
  roundNonzero f rm sat ftz neg (x'.mul (Q.pow2 (e - F)))

end Sys2Proof.Machine
end

