-- ==== Sys2Proof/Machine/State.lean ====
section
/-!
DEFINITION. The state of the module as plain data: lanes and sections, teams, cores, dies, slices, contexts, launches, the
host's registers, memory (R57, R70, R94, R120, R144, R178, R371, R373), and what one step can answer besides a next state.
-/

namespace Sys2Proof.Machine

/-- Why the machine stops. -/
inductive Fault where
  /-- Raised by every instruction constructor when no section and no lantern record stands to issue it (State.sel names none).
  Safe: `step` never runs an instruction without its issuer, and the spec has no such step (R18). -/
  | noIssuer
  deriving DecidableEq, Repr

/-- What has no meaning. -/
inductive Refusal where
  /-- Raised by an arm of `exec` whose instruction has no meaning yet. Safe. -/
  | notModelled (mnemonic : String)
  deriving DecidableEq, Repr

/-- Section states (R74). -/
inductive SecState where
  | running | waiting | ejectedPending | handler | held | parked | exited
  deriving DecidableEq, Repr

/-- Reasons of a wait (R74), `none` for a section that does not wait. -/
inductive WaitOn where
  | none | waitc | tbwait | bar | absent | heldLoad | sideLog | fmtEmu | copyEntry | mfs | preempt
  deriving DecidableEq, Repr

/-- What ends a wait, kept so that WAIT_END can test it (R75). -/
inductive WaitFor where
  | again                                   -- the instruction is evaluated again
  | counter (cls n : Nat)                   -- R182
  | barrier (off : Nat) (q : Nat)           -- R186
  | phase (pc : DWord)                      -- R189, R190
  | line (tid line : Nat)                   -- R105
  | event                                   -- ended by an event of its own
  deriving DecidableEq, Repr

/-- Kinds of reconvergence entries (R243). -/
inductive EntryKind where
  | branch | call | recall
  deriving DecidableEq, Repr

/-- One reconvergence entry (R243). -/
structure Entry where
  kind    : EntryKind
  origin  : DWord
  joinPc  : Option DWord
  resume  : DWord
  full    : Mask
  pend    : Option (Mask × DWord)
  jc      : Nat
  /-- For a recall entry, the position from the bottom of the entry whose join count the lane holds. -/
  owner   : Option Nat
  /-- The entry had ejected lanes (R27). -/
  hadEjected : Bool
  /-- A call entry pushed by trace (R318). -/
  traced  : Bool
  /-- The lanes that stand at ORIGIN to execute a brx or calli again (R248, R250). -/
  redo    : Mask
  /-- For a recall entry, the lanes for which the interrupted path had still to retry its instruction (R26, R80). -/
  retry   : Option Mask
  deriving DecidableEq, Repr

/-- One bypass latch of one group (R66). -/
structure Latch where
  valid : Bool
  recov : Bool
  /-- The destination selector named by the tag; none when never written since launch or restore. -/
  tag   : Option Sel
  /-- The result was a pair. -/
  wide  : Bool
  /-- The 64 bits of each logical lane. -/
  vals  : Table DWord
  deriving DecidableEq, Repr

/-- The registers an instruction of a path reads and writes: a section's own, or those of an ejected lane's record (R24). -/
structure Thread where
  pc      : DWord
  gmode   : Word
  fpflags : Word
  /-- The lanes of the current path (R243). -/
  path    : Mask
  /-- The lanes that have not exited (R34). -/
  live    : Mask
  groups  : Nat
  /-- The vector-register budget (R59). -/
  budget  : Nat
  /-- v0 to v191, key 256 × lane index + n. -/
  vregs   : Table Word
  kregs   : Table Word
  /-- p0 to p6, key 8 × lane index + n. -/
  preds   : Table Bool
  /-- b0 to b3, key 4 × group + n. -/
  latches : Table Latch
  /-- Groups whose granules have been freed (R34, R82). -/
  freed   : BitVec 32
  ejected : Bool
  deriving DecidableEq, Repr

/-- How handler mode was entered (R344). -/
inductive EntryHow where
  | trap | alarm | brk | ui
  deriving DecidableEq, Repr

/-- Where SKIP continues (R80, R251): after the instruction, at a PC, or by ending the path as a return does. -/
inductive SkipHow where
  | next | to (pc : DWord) | ret
  deriving DecidableEq, Repr

/-- The handler state of R79. -/
structure HandlerState where
  path  : Mask
  /-- The number of reconvergence entries at the entry (the stack top). -/
  depth : Nat
  prev  : SecState
  gmode : Word
  how   : EntryHow
  /-- The boundary PC at which a user interrupt was taken (R85). -/
  pc    : DWord
  /-- The first code of a DOUBLE (R78). -/
  code  : BitVec 8
  skip : SkipHow
  /-- The lanes a retry still had to serve at the entry (R80). -/
  retry : Option Mask
  /-- No breakpoint was to match the instruction at the boundary PC (R80). -/
  noBkpt : Bool
  deriving DecidableEq, Repr

/-- What IDEM recorded (R346). -/
structure IdemRec where
  k      : List Word
  gmode  : Word
  fpflags : Word
  path   : Mask
  pc     : DWord
  deriving DecidableEq, Repr

/-- A counted operation of a section (R179 to R181): its class 0 copy, 1 gather, 2 collective, 3 remote, 4 system. -/
structure OutOp where
  cls  : Nat
  op   : Nat
  done : Bool
  deriving DecidableEq, Repr

/-- A curve slot (R171): the source offset and the 144 bytes of the table. -/
structure CurveSlot where
  off   : Nat
  bytes : List Byte
  deriving DecidableEq, Repr

/-- A stationary tile (R289): its columns' 32 bytes each, key 32 × column + byte. -/
structure Tile where
  bits : Table Byte
  edge : BitVec 2
  tfmt : BitVec 4
  deriving DecidableEq, Repr

/-- What a matrix instruction computes (R294): its first destination, N, the registers written (lane, register, value), the
registers of each group's run, the value its first destination takes in each lane, its flags, and its taps. -/
structure MatRes where
  n     : Bool
  d     : Sel
  regs  : List (Nat × Nat × Word)
  runs  : List (Nat × Nat)
  first : Table Word
  flags : Word
  taps  : List (Nat × Byte)
  deriving DecidableEq, Repr

/-- What a memory operation does at its place (R262, R323). -/
inductive OpKind where
  | store | add | min | max | and | or | xor | xchg | cas | lupd
  deriving DecidableEq, Repr

/-- Where an element lies once window and translation have been decided (R94, R262): physical pieces of global memory, a team's
scratchpad, or a die's. -/
inductive Spot where
  | phys (pas : List (Nat × Nat))
  | team (tid off : Nat)
  | die (d off : Nat)
  deriving DecidableEq, Repr

/-- One lane's element of a memory operation: its generic address, its pieces of virtual memory, its spot when resolved, and
its data. -/
structure LaneOp where
  lane : Nat
  addr : DWord
  vas  : List (Nat × Nat)
  spot : Option Spot
  data : DWord
  /-- The swap value of cas; the hypothesis of lupd. -/
  data2 : DWord
  deriving DecidableEq, Repr

/-- One memory operation of one instruction, with the type, scope and rounding it was issued under (R55, R156). -/
structure MemOp where
  kind  : OpKind
  ty    : BitVec 5
  size  : Nat
  scope : BitVec 3
  rd    : BitVec 2
  lanes : List LaneOp
  /-- ATOM without return, which R265 orders as an atomic, as against RED and LUPD. -/
  atomic : Bool
  deriving DecidableEq, Repr

/-- A side-log entry (R156): position, page, the operation restricted to the page, and the counted operation it belongs to. -/
structure LogEntry where
  seq  : Nat
  page : Nat
  op   : MemOp
  id   : Nat
  deriving DecidableEq, Repr

/-- What a memory instruction has done of itself: the lanes served, one by one (R257, R258, R261) or over the host link, and the lanes
it still asks the host for (R259, R263). It stands issued until the last of them is served. -/
structure HostReq where
  /-- The record of the ejected lane that issued it, none for the section's path. -/
  who   : Option Nat
  /-- The lanes still to be served, in the order of R257. -/
  op    : MemOp
  /-- The destination, none for an operation without return. -/
  dest  : Option Sel
  isLoad : Bool
  /-- Old or loaded values received so far, by lane. -/
  got   : List (Nat × DWord)
  /-- Lanes that failed, with the fault code. -/
  bad   : List (Nat × BitVec 8)
  /-- The counted operation of which passes have been issued. -/
  part  : Option Nat
  /-- The number below which other operations count as older. -/
  since : Nat
  deriving DecidableEq, Repr

/-- A dual-run operation waiting in the comparator (R195). -/
structure DmrOp where
  id   : Nat
  /-- The record of the ejected lane that issued it, none for the section's path. -/
  who  : Option Nat
  pc   : DWord
  op   : MemOp
  dest : Option Sel
  counted : Option Nat
  deriving DecidableEq, Repr

/-- A send whose status has not come back from a peer (R376): its number, the peer context and device, the vector and the payload. -/
structure PeerSend where
  id   : Nat
  pctx : Nat
  dev  : Nat
  vec  : Nat
  pay  : DWord
  /-- The record of the ejected lane that issued it, none for the section's path. -/
  who  : Option Nat
  dest : Sel
  lanes : Mask
  deriving DecidableEq, Repr

/-- What a release has still to let happen (R329): an arrival at the barrier at an offset, at a team barrier with a mask of roles,
at the gang barrier. -/
inductive RelStep where
  | tbarrive (off : Nat)
  | bar (n : Nat) (roles : BitVec 4)
  | gbar
  deriving DecidableEq, Repr

/-- A step that waits for its release (R329): the number below which its section's operations count as older, its scope, what is to
happen, and the PC of its instruction. -/
structure Release where
  before : Nat
  scope : Nat
  step : RelStep
  pc : DWord
  deriving DecidableEq, Repr

/-- A service request that waits to be posted (R138, R329): the number below which its section's operations count as older, and the request
itself, header and lane blocks. -/
structure SvcWait where
  before : Nat
  req : List (List Byte)
  deriving DecidableEq, Repr

/-- A section (R16, R70 to R74). -/
structure Section where
  role  : Nat
  /-- Team group index of its group 0 (R15). -/
  group0 : Nat
  th    : Thread
  stack : List Entry
  state : SecState
  prev  : SecState
  hmode : Bool
  waitOn : WaitOn
  waitFor : WaitFor
  bkLevel : BitVec 3
  idem  : Bool
  dmr   : Bool
  det   : Bool
  replay : Bool
  redir : Bool
  holdReq : Bool
  parkWhy : BitVec 2
  stepGrp : BitVec 5
  stepLane : BitVec 5
  step  : Bool
  trapCode : Word
  trapPc : DWord
  trapAddr : DWord
  trapAux : Word
  trapMask : Mask
  stimer : DWord
  stalarm : DWord
  /-- The alarm has expired and waits for its boundary (R88). -/
  alarmDue : Bool
  /-- A debugger's hold waits for the next boundary (R92). -/
  holdDue : Bool
  /-- A release with STEP lets one instruction execute (R93). -/
  stepping : Bool
  /-- That instruction has executed, and the step waits for its boundary (R93). -/
  stepDone : Bool
  /-- The PC after the stepped instruction, for a lane that the step has ended (R93). -/
  stepPc : DWord
  /-- No breakpoint matches on the first issue after a handler's return (R80). -/
  noBkpt : Bool
  /-- RESUME retries TRAPPC for these lanes, and then continues with this mask (R80). -/
  retry : Option Mask
  outs  : List OutOp
  hs    : Option HandlerState
  idemRec : Option IdemRec
  slots : Table (Option CurveSlot)
  bmap  : Table Byte
  /-- The source offset of the active branch map (R172). -/
  bmapOff : Nat
  tiles : Table Tile
  log   : List LogEntry
  logSeq : Nat
  /-- What the q6 matrix instruction under emulation will leave (R53). -/
  emu   : Option MatRes
  /-- Taps computed by mmad and not yet written (R294): scratchpad offset and byte. -/
  taps  : List (Nat × Byte)
  /-- The operand of a resid handed to the oculus and not yet retired (R319). -/
  oculus : Option Sel
  hostReq : Option HostReq
  /-- Arrivals made at barriers and still awaited (R348): PC of the instruction, gang barrier or not, counter, and whether the
  phase is over. -/
  arrived : List (DWord × Bool × Nat × Bool)
  /-- The delay of backoff has not ended (R338). -/
  delayed : Bool
  /-- BKLEVEL 7 has lasted 65,536 cycles (R30): since the step of this number. -/
  parkElig : Option Nat
  /-- Resumed after park: class 1 (R129). -/
  resumed : Bool
  aged  : Bool
  /-- By port, the number of the step after which it last issued, 0 for never (R129). -/
  lastIssue : Table Nat
  /-- A parking svc awaits its reply, for these lanes (R138); its reply when posted. -/
  svcLanes : Option (List Nat)
  svcReply : Option (List (List Byte))
  /-- Requests to be posted, oldest first: their releases are not complete, or they found no room in the ring (R138, R329). -/
  svcPending : List SvcWait
  cmp   : List DmrOp
  peerSend : Option PeerSend
  /-- Steps that wait for their releases, oldest first (R329). -/
  releases : List Release
  /-- The number of its last release (R359). -/
  lastRel : Nat
  /-- The fence.rps under way, of the path or of an ejected lane's record: the number below which operations count as issued before the
  drain (R267). -/
  drains : List (Option Nat × Nat)
  /-- Lines that fence.rp has promoted and the section has not read since (R359). -/
  promo : List Nat
  /-- The ports whose schedulers have picked the section for its present instruction (R15, R17, R129). -/
  granted : List Nat
  /-- Copies issued (R195). -/
  copies : Nat
  /-- Instructions retired (R139). -/
  retired : Nat
  deriving DecidableEq, Repr

/-- A 128-byte line of team scratchpad (R104): pending count, bound state, and the record and
engine class of the copy that left it absent. -/
structure LineSt where
  count : Nat
  bound : Bool
  poison : Option (DWord × Nat)
  deriving DecidableEq, Repr

/-- A team barrier counter (R188). -/
structure BarCtr where
  phase : BitVec 4
  roles : BitVec 4
  pending : Nat
  /-- Roles that have arrived in the open phase. -/
  came  : BitVec 4
  deriving DecidableEq, Repr

/-- Where a team stands (R113, R114). -/
inductive Bank where
  | active | shadow | saved | gone
  deriving DecidableEq, Repr

/-- A contribution accepted into a reduction epoch (R55, R363): its logical identifier and step. -/
structure Contribution where
  key  : List Nat
  op   : MemOp
  lane : LaneOp
  deriving DecidableEq, Repr

/-- A copy command queue entry, or a paused copy (R133, R134, R117). -/
structure Copy where
  id    : Nat
  tid   : Nat
  role  : Nat
  /-- 0 tcopy, 1 tcopys, 2 treduce, 3 bound copy. -/
  form  : Nat
  cls   : Nat
  block : BitVec 256
  shared : Bool
  /-- The engine works on it (R134). -/
  started : Bool
  /-- It has started once: its record is read, and `left` stands (R117, R168). -/
  begun : Bool
  paused : Bool
  /-- The sectors still to land (inbound) or to perform (outbound): index. -/
  left  : List Nat
  /-- The team whose lines it made absent at issue, and the lines. -/
  ltid  : Nat
  lines : List Nat
  /-- Destination offsets that a younger copy of the section has written (R106). -/
  taken : List Nat
  /-- The PC of the instruction that issued it, and its number among the copies of its section (R195). -/
  pc    : DWord
  nth   : Nat
  /-- Outbound sectors that wait in the comparator (R195). -/
  inCmp : List Nat
  /-- The 128 bytes of its shape record (R168). -/
  srec  : List Byte
  gmode : Word
  /-- The region-table entry of a bound copy. -/
  region : Option Nat
  /-- The ordinal of a treduce of its team (R332). -/
  ordinal : Nat
  /-- The sparse source's data, read when it starts (R108). -/
  data  : List Byte
  deriving DecidableEq, Repr

/-- A region-table entry (R162). -/
structure Region where
  src   : DWord
  soff  : Nat
  v     : Bool
  fired : Bool
  done  : Bool
  tid   : Nat
  lines : Nat
  deriving DecidableEq, Repr

/-- A continuation record (R24). -/
structure LanternRec where
  id    : Nat
  tid   : Nat
  role  : Nat
  lane  : Nat
  th    : Thread
  joinPc : Option DWord
  /-- Position from the bottom of the entry whose join count it holds. -/
  owner : Nat
  /-- Its own call entries (R254): return PCs, innermost first, and whether trace pushed them. -/
  calls : List (DWord × Bool)
  waiting : Bool
  deriving DecidableEq, Repr

/-- A team (R13, R14, R99). -/
structure Team where
  tid   : Nat
  lid   : Nat
  ctx   : Nat
  /-- Index in the grid. -/
  index : Nat
  gang  : Nat
  rank  : Nat
  gangSize : Nat
  die   : Nat
  core  : Nat
  slot  : Nat
  bank  : Bank
  groups : Nat
  secs  : List Section
  scratch : Table Byte
  /-- Team scratchpad bytes, rounded up to a KiB (R99). -/
  scratchSize : Nat
  /-- The first KiB of its range in the bank's scratchpad (R99). -/
  base  : Nat
  /-- Private bytes per lane (R98). -/
  privSize : Nat
  lines : Table LineSt
  /-- By barrier offset, the CMD record and engine class of the copy that set its CERR (R187). -/
  cerrs : Table (Option (DWord × Nat))
  bcs   : Table BarCtr
  /-- The other copy of a dual-run team, and whether this one is the primary (R195). -/
  twin  : Option Nat
  primary : Bool
  /-- The image drains to the save area (R131, R391). -/
  draining : Bool
  discarded : Bool
  /-- It was placed or parked when its context ended, so that a debugger still reads it (R81). -/
  stood : Bool
  /-- What of the image left the core's queues: continuation records, paused copies, region-table entries (R114). -/
  recs  : List LanternRec
  copies : List Copy
  regs  : List Region
  treduces : Nat
  epoch : List Contribution
  /-- Sections that have arrived at gbar in the open gang phase. -/
  gbarCame : List Nat
  deriving DecidableEq, Repr

/-- A gang barrier (R190): per die the arrivals still missing, the cross-die count, the phase. -/
structure Gang where
  lid   : Nat
  gang  : Nat
  open_ : Bool
  dieCount : Table Nat
  cross : Nat
  phase : BitVec 4
  /-- Dies whose count is complete and whose arrival has not been sent (R190). -/
  due   : List Nat
  deriving DecidableEq, Repr

/-- The fields of a launch packet (R124). -/
structure Packet where
  done  : DWord
  save  : DWord
  privB : DWord
  kargs : DWord
  scratch : Nat
  priv  : Nat
  gangM1 : Nat
  lat   : Nat
  trdepth : Nat
  kcount : Nat
  /-- GROUPS and GRAN of each declared role. -/
  roles : List (Nat × Nat)
  entryW : Nat
  uie   : Bool
  dep   : Bool
  early : Bool
  dmr   : Bool
  replay : Bool
  det   : Bool
  irq   : Bool
  chain : Nat
  reserve : Nat
  grid  : Nat
  deriving DecidableEq, Repr

/-- An accepted launch (R120, R126). -/
structure Launch where
  lid   : Nat
  ctx   : Nat
  queue : Nat
  number : Word
  part  : Nat
  pkt   : Packet
  kvals : List Word
  /-- The launch it depends on (R126). -/
  after : Option Nat
  /-- Teams placed so far, in ascending index. -/
  placed : Nat
  /-- Where the search for the next cluster starts on the curve (R128). -/
  curvePos : Nat
  exited : Nat
  complete : Bool
  wordDone : Bool
  epoch : List Contribution
  epochClosed : Bool
  /-- Bytes 31:0 of its packet (R143). -/
  raw   : List Byte
  deriving DecidableEq, Repr

/-- One element of a global store that has not performed at its home (R258, R355): its bytes by physical address. -/
structure BufStore where
  id    : Nat
  tid   : Nat
  role  : Nat
  /-- The record of the ejected lane that issued it, none for the section's path (R329). -/
  who   : Option Nat
  /-- The number of its section's last release before it (R359). -/
  rel   : Nat
  bytes : List (Nat × Byte)
  deriving DecidableEq, Repr

/-- A RED, LUPD or ATOM without return under way to its place (R262). -/
structure RemoteOp where
  id    : Nat
  tid   : Nat
  role  : Nat
  who   : Option Nat
  rel   : Nat
  op    : MemOp
  deriving DecidableEq, Repr

/-- A SYSFLUSH or SYSINV under way (R271): its range of virtual addresses. -/
structure SysOp where
  id    : Nat
  tid   : Nat
  role  : Nat
  ctx   : Nat
  flush : Bool
  va    : Nat
  len   : Nat
  deriving DecidableEq, Repr

/-- The shadow bank (R113). -/
inductive Shadow where
  | empty | filling | full | draining
  deriving DecidableEq, Repr

/-- A cached line of global memory (R94). -/
abbrev CacheLine := List Byte

/-- A core (R12, R113, R120). -/
structure Core where
  copyq : List Copy
  halted : Bool
  dcache : Table CacheLine
  storeBuf : List BufStore
  ibuf  : Table Word
  /-- Key 2^37 × context + virtual page; the leaf entry and the log2 of the page size. -/
  tlb   : Table (DWord × Nat)
  /-- Directory entries that the TLB and the walkers hold, by their physical addresses (R152). -/
  dirs  : Table (Option DWord)
  regions : Table Region
  lantern : List LanternRec
  oculus : List (Nat × Nat)
  shadow : Shadow
  ctx   : Option Nat
  shadowCtx : Option Nat
  preempt : Bool
  parked : List Nat
  /-- The team a demand park was made for (R131): a parked team, or the launch of an unplaced one with its index. -/
  parkFor : Option (Nat × Option Nat)
  lastOn : Table (Option (Nat × Nat))
  arrayTile : Table (Option (Nat × Nat))
  pmc   : Table (BitVec 48)
  pmsel : Table Byte
  pmctx : BitVec 16
  deriving DecidableEq, Repr

/-- A composite under way at a die's cupola (R326, R327). -/
structure Composite where
  ctx   : Nat
  src   : DWord
  dst   : DWord
  npix  : Nat
  mode  : Nat
  log2n : Nat
  rank  : Nat
  gather : Bool
  done  : DWord
  /-- The participants: peer device id, 0xFFFF for this device, and die. -/
  parts : List (Nat × Nat)
  /-- The 64 bytes of its record. -/
  record : List Byte
  round : Nat
  /-- The span of pixels still held: first and count. -/
  lo    : Nat
  span  : Nat
  /-- The colours and depths of the span, in the layout of SRC. -/
  image : Table Byte
  /-- Its span stands in its DST (GATHER 1: until rank 0 has received it). -/
  finished : Bool
  deriving DecidableEq, Repr

/-- A die (R12, R94, R326). -/
structure Die where
  scratch : Table Byte
  owners : Table (Option Nat)
  doorbell : List (Nat × Nat)
  cupola : List Composite
  cupolaHalt : Bool
  wake  : List Nat
  deriving DecidableEq, Repr

/-- A service request in a slice's ring (R137, R393). -/
structure SvcReq where
  seq   : Nat
  tid   : Nat
  role  : Nat
  ctx   : Nat
  num   : Nat
  nowait : Bool
  replyW : DWord
  blocks : List (List Byte)
  unit  : Nat
  units : Nat
  served : Bool
  /-- The order in which requests were served. -/
  order : Nat
  delivered : Bool
  /-- The counted operation of a nowait request. -/
  id    : Nat
  deriving DecidableEq, Repr

/-- A frame request of a page home or service instance to the host driver (R154, R392). -/
structure FrameReq where
  ctx   : Nat
  /-- Pages to map: virtual address and page-size log2. -/
  pages : List (DWord × Nat)
  demand : Bool
  /-- The request of an allocation: die, slice and seq of its ring, and the pages of each block. -/
  svc   : Option (Nat × Nat × Nat)
  perBlock : List (Option (List DWord))
  answer : Option (List (Option Nat))
  deriving DecidableEq, Repr

/-- A slice copy of a line of a pinned host page, with the bytes device writes changed (R119). -/
structure SliceLine where
  data  : List Byte
  dirty : List Bool
  deriving DecidableEq, Repr

/-- A slice (R12, R137, R150). -/
structure Slice where
  rpost : Word
  rfree : Word
  seq   : Nat
  reqs  : List SvcReq
  lines : Table SliceLine
  frames : List FrameReq
  deriving DecidableEq, Repr

/-- A request pending at a page home: a page to map on demand, to migrate to the device, or to hand to the host. -/
structure HomeReq where
  ctx   : Nat
  va    : DWord
  toHost : Bool
  /-- Its move to the host is under way: the entry has been written OWN 1 (R160). -/
  begun : Bool
  /-- Who waits for the page, by team and role, or by a name of another unit. -/
  who : List (Nat × Nat)
  /-- The page home could not serve it: those who wait for it then take PAGE (R154). -/
  failed : Bool
  deriving DecidableEq, Repr

/-- A context (R21, R83, R90, R373). -/
structure Context where
  exists_ : Bool
  enabled : Bool
  ended : Bool
  endCode : Byte
  endAddr : DWord
  ptroot : DWord
  permbase : DWord
  permcnt : Nat
  logbase : DWord
  logsize : Nat
  loghead : Word
  logtail : Word
  eqbase : DWord
  eqlog2 : Nat
  eqtail : Word
  eqlost : Word
  moves : Word
  pins  : Word
  irqaddr : DWord
  irqdata : Word
  routebase : DWord
  routecnt : Nat
  homeDie : Nat
  part  : Nat
  trapent : DWord
  allocbase : DWord
  alloclen : DWord
  uimask : DWord
  uipend : DWord
  uivec : Word
  uipay : DWord
  uientry : DWord
  /-- The launch that last set UIENTRY (R83). -/
  uilaunch : Option Nat
  uivpay : Table DWord
  uicount : Table (BitVec 16)
  uiwake : Table Bool
  bkpt  : Table DWord
  wpt   : Table DWord
  dmrCount : DWord
  thrMoves : Nat
  thrWindow : Nat
  thrThrottle : Nat
  /-- WALL times of the last moves of each page (R161). -/
  history : Table (List Nat)
  /-- Pages pinned by the thrash detector: their device frame and WALL at the pin (R161). -/
  pinned : Table (Option (Nat × Nat))
  /-- Allocation window pages in use, and the first page and length of each allocation (R392). -/
  used  : Table Bool
  allocs : Table Nat
  /-- Wake requests kept in the image because a die's list was full (R142). -/
  wakeKept : Bool
  /-- Record numbers of the order log that a replay has used (R140). -/
  replayed : Table Bool
  /-- Debug window selection (R375). -/
  dbgSel : DWord
  dbgLsel : DWord
  dbgRefused : Bool
  /-- Completion interrupts sent: address and data (R369). -/
  irqs  : List (DWord × Word)
  deriving DecidableEq, Repr

/-- A launch queue (R121). -/
structure Queue where
  base  : DWord
  en    : Bool
  err   : Bool
  prio  : BitVec 2
  log2  : BitVec 4
  ctx   : BitVec 16
  head  : Word
  tail  : Word
  deriving DecidableEq, Repr

/-- A sender doorbell page (R374). -/
structure Doorbell where
  token : Option (BitVec 48)
  pay   : DWord
  target : Word
  status : Word
  deriving DecidableEq, Repr

/-- Who issues an instruction: a section of a team, or an ejected lane's record. -/
inductive Issuer where
  | sect (tid role : Nat)
  | lantern (die core id : Nat)
  deriving DecidableEq, Repr

/-- What comes next: an act of another unit or party, the issue of one instruction on a port of a core, what physics does to
stored data (bytes come to hold an uncorrected error, R78, or hold good data again), a store of the host or of firmware to
memory (R144, R149), or what firmware does of itself: it sets a context's MOVES, WINDOW and THROTTLE, in nanoseconds (R161), or reads
and clears an array's count of corrected errors (R194). -/
inductive Act where
  | event (e : Event)
  | issue (die core port : Nat)
  | fail (sp : Spot)
  | mend (sp : Spot)
  | host (pa : Nat) (data : List Byte)
  | thrash (ctx moves window throttle : Nat)
  | eccClear (array : Nat)
  deriving DecidableEq, Repr

/-- The boot stage (R371, R380). -/
inductive Stage where
  | off | s0 | s1 | s2 | failed
  deriving DecidableEq, Repr

/-- An entry of the side log of a discarded team's section (R118, R158). -/
structure Orphan where
  ctx   : Nat
  tid   : Nat
  role  : Nat
  entry : LogEntry
  deriving DecidableEq, Repr

/-- The whole module. -/
structure State where
  -- start-up and management (R371, R380 to R382)
  stage : Stage
  /-- Stage 0 has ended: configuration requests get no retry status (R380). -/
  cfgReady : Bool
  cause : Byte
  clockMHz : Nat
  /-- WALL at the last change of the clock (R382). -/
  clockAt : Option DWord
  plimit : DWord
  aopen : Bool
  invbase : DWord
  invlen : DWord
  invctx : BitVec 16
  invgo : Word
  /-- The invalidation that runs: context, first address, length. -/
  invJob : Option (Nat × Nat × Nat)
  inverr : Bool
  invdone : Word
  fusedMin : Word
  cxlBytes : Nat
  /-- The populated CXL ports, ascending (R377). -/
  cxlPorts : List Nat
  /-- Peer devices that a trained link reaches (R376). -/
  peers : List Nat
  /-- Statuses returned over the links for sends received (R376): peer device and status, oldest first. -/
  peerReplies : List (Nat × Nat)
  devErrHead : Word
  devErrTail : Word
  devErrLost : Word
  devErrs : Table (List Byte)
  staged : Table Byte
  /-- The image length of a recovery under way (R380). -/
  recover : Option Nat
  ats   : List Nat
  eccCounts : Table Word
  -- timers (R87)
  cycle : DWord
  wall  : DWord
  -- outside parties' registers
  queues : Table Queue
  doorbells : Table Doorbell
  parts : Table (List Nat)
  turn  : Table Nat
  -- work
  contexts : Table Context
  launches : List Launch
  teams : List Team
  gangs : List Gang
  cores : Table Core
  diesT : Table Die
  slices : Table Slice
  homes : List HomeReq
  remote : List RemoteOp
  sysOps : List SysOp
  /-- Chains whose last launch was rejected: context and chain (R125). -/
  broken : List (Nat × Nat)
  /-- Entries of the side logs of discarded teams (R118, R158). -/
  orphans : List Orphan
  /-- Bytes of memory that hold an uncorrected error (R78, R94): one byte of an array, or the bytes of physical pieces. -/
  failed : List Spot
  -- memory: every target of R149, by physical address
  mem   : List Host.Cell
  -- the model's own fields
  agenda : List Act
  focus : Nat × Nat × Nat
  sel   : Option Issuer
  /-- Sections, by team and role, whose next pass the scoreboard or the memory unit has held back since anything else happened
  (R17, R129). -/
  stalled : List (Nat × Nat)
  stepNo : Nat
  nextTid : Nat
  nextLid : Nat
  nextOp : Nat
  deriving DecidableEq, Repr

/-- The module right after reset, before power-good (R371, R373, R380): every register at the value the spec states, and
the values of log entries 2 to 4 where it states none. -/
def State.reset : State where
  stage := .off
  cfgReady := false
  cause := 0
  clockMHz := 1700
  clockAt := none
  plimit := 2800
  aopen := false
  invbase := 0
  invlen := 0
  invctx := 0
  invgo := 0
  invJob := none
  inverr := false
  invdone := 0
  fusedMin := 0
  cxlBytes := 0
  cxlPorts := []
  peers := []
  peerReplies := []
  devErrHead := 0
  devErrTail := 0
  devErrLost := 0
  devErrs := []
  staged := []
  recover := none
  ats := []
  eccCounts := []
  cycle := 0
  wall := 0
  queues := []
  doorbells := []
  parts := []
  turn := []
  contexts := []
  launches := []
  teams := []
  gangs := []
  cores := []
  diesT := []
  slices := []
  homes := []
  remote := []
  sysOps := []
  broken := []
  orphans := []
  failed := []
  mem := []
  agenda := []
  focus := (0, 0, 0)
  sel := none
  stalled := []
  stepNo := 0
  nextTid := 0
  nextLid := 0
  nextOp := 0

end Sys2Proof.Machine
end

