-- ==== Sys2Proof/WellFormed.lean ====
section
/-!
DEFINITION. Which instructions carry legal operand fields, as far as the word alone decides it (R58, R200, R202, R205, R207,
R210, R211 and the operand rules of each entry). A word that decodes to an instruction that is not well formed raises OPND at
issue. Events carry no word; every event is well formed.
-/

namespace Sys2Proof

/-- A vector selector v0 to v191 (R204). -/
def isVec (x : Sel) : Bool := x.toNat < 0xC0

/-- A uniform selector k0 to k47 (R204). -/
def isUni (x : Sel) : Bool := 0xC0 ≤ x.toNat && x.toNat < 0xF0

/-- The number n of kn. -/
def uniNo (x : Sel) : Nat := x.toNat - 0xC0

/-- A selector that may be read (R58). -/
def isSrc (x : Sel) : Bool := x.toNat < 0xF7

/-- A selector that may be a destination (R58): a register, or zero, which discards. -/
def isDst (x : Sel) : Bool := x.toNat < 0xF0 || x.toNat == 0xF4

/-- A selector that may be read as a pair: registers must be even (R58). -/
def isSrc64 (x : Sel) : Bool := if x.toNat < 0xF0 then x.toNat % 2 == 0 else isSrc x

/-- A selector that may be a pair destination (R58). -/
def isDst64 (x : Sel) : Bool := isDst x && x.toNat % 2 == 0

/-- A uniform selector whose number is a multiple of `m`. -/
def isUniMul (m : Nat) (x : Sel) : Bool := isUni x && uniNo x % m == 0

/-- A run of `n` vector registers within v0 to v191. -/
def isVecRun (n : Nat) (x : Sel) : Bool := isVec x && x.toNat + n ≤ 0xC0

/-- A run of `n` registers wholly vector or wholly uniform (R285). -/
def isRun (n : Nat) (x : Sel) : Bool := isVecRun n x || (isUni x && x.toNat + n ≤ 0xF0)

/-- A predicate operand: bits 7:4 are 0 (R207). -/
def isPredOp (x : Sel) : Bool := x.toNat < 16

/-- The base pair field of formats M and T names k0 to k47 (R200). -/
def isPairField (k : BitVec 5) : Bool := k.toNat < 24

/-- A scope code (R208). -/
def isScope (c : BitVec 3) : Bool := c.toNat < 6

/-- The system register of a number (R70): whether it is 64 bits wide; none for a reserved number. -/
def sysWidth (r : Nat) : Option Bool :=
  if r ≤ 0x01 then some true
  else if r ≤ 0x04 then some false
  else if r = 0x08 ∨ r = 0x0B ∨ r = 0x12 then some false
  else if r = 0x09 ∨ r = 0x0A ∨ (0x10 ≤ r ∧ r ≤ 0x14) then some true
  else if 0x18 ≤ r ∧ r ≤ 0x1B then some true
  else if 0x20 ≤ r ∧ r ≤ 0x24 then some false
  else if 0x28 ≤ r ∧ r ≤ 0x33 then some true
  else if 0x3F ≤ r ∧ r ≤ 0x66 then some false
  else if 0x80 ≤ r ∧ r ≤ 0xBF then some true
  else if 0xC0 ≤ r ∧ r ≤ 0xFF then some false
  else none

/-- The legality of the operand fields of an instruction, as its word alone decides it. -/
def Instr.wellFormed : Instr → Bool
  | .iadd _ d a b | .isub _ d a b | .imul _ d a b | .imulh _ d a b | .imad _ d a b | .imin _ d a b | .imax _ d a b
  | .and _ d a b | .or _ d a b | .xor _ d a b | .shl _ d a b | .shr _ d a b | .rdlane _ d a b | .shfl _ d a b | .shflx _ d a b
  | .fadd _ d a b | .fsub _ d a b | .fmul _ d a b | .ffma _ d a b | .fdiv _ d a b | .fmin _ d a b | .fmax _ d a b
  | .dot2 _ d a b | .dot4 _ d a b | .dot8 _ d a b => isDst d && isSrc a && isSrc b
  | .lea _ d a b => isDst64 d && isSrc64 a && isSrc b
  | .iabs _ d a | .not _ d a | .popc _ d a | .clz _ d a | .mov _ d a | .fsqrt _ d a | .fabs _ d a | .fneg _ d a | .fclass _ d a
  | .frcp _ d a | .frsq _ d a | .fexp2 _ d a | .flog2 _ d a | .fsin _ d a | .fcos _ d a => isDst d && isSrc a
  | .icmp c _ a b => decide (c.toNat < 6) && isSrc a && isSrc b
  | .fcmp c _ a b => decide (c.toNat < 7) && isSrc a && isSrc b
  | .addi _ d _ | .movi _ d _ | .movhi _ d _ | .movp _ d | .getmode _ d => isDst d
  | .mfs _ d r => match sysWidth r.toNat with
    | some w => if w then isDst64 d else isDst d
    | none => false
  | .ballot _ d a => isDst d && isPredOp a
  | .vote o _ a => decide (o.toNat < 3) && isPredOp a
  | .plop o _ a b => decide (o.toNat < 3) && isPredOp a && isPredOp b
  | .setmode _ _ => true
  | .mts s i => match sysWidth i.toNat with
    | some w => if w then isSrc64 s else isSrc s
    | none => false
  | .bra _ _ | .call _ | .join | .ret | .exit => true
  | .brx s _ => isSrc64 s
  | .calli a => isSrc64 a
  | .ld _ d k o _ | .lds _ d k o _ | .ldp _ d k o _ => isDst d && isPairField k && isSrc o
  | .st s k o _ | .sts s k o _ | .stp s k o _ => isSrc s && isPairField k && isSrc o
  | .ldt _ d k v h => isDst d && isPairField k && isVec v && decide (h.toNat < 3)
  | .stt s k v h => isSrc s && isPairField k && isVec v && decide (h.toNat < 3)
  | .atomAdd n d k o c | .atomMin n d k o c | .atomMax n d k o c | .atomAnd n d k o c | .atomOr n d k o c | .atomXor n d k o c
  | .atomXchg n d k o c => (if n then isSrc d else isDst d) && isPairField k && isSrc o && isScope c
  | .atomCas _ d k o c => isRun 2 d && d.toNat % 2 == 0 && isPairField k && isSrc o && isScope c
  | .redAdd s k o c | .redMin s k o c | .redMax s k o c | .redAnd s k o c | .redOr s k o c | .redXor s k o c =>
      isSrc s && isPairField k && isSrc o && isScope c
  | .mma _ d a b | .mmad _ d a b => isVecRun 32 d && isVec a && decide (b.toNat < 0xF0)
  | .mmadg _ d a b => isVec d && isVecRun 32 a && decide (b.toNat < 0xF0)
  | .mmadw _ d a b => isVec d && isVecRun 40 a && decide (b.toNat < 0xF0)
  | .rast _ d a b => isVecRun 7 d && isUniMul 4 a && decide (uniNo a ≤ 36) && isUni b
  | .tex _ d a b => isVecRun 4 d && isVecRun 6 a && isUni b
  | .texg _ d a b => isVecRun 4 d && isVecRun 4 a && isUni b
  | .rayq _ d a b => isVecRun 4 d && isVecRun 8 a && isUniMul 2 b
  | .trace _ d a b => isVec d && isVecRun 9 a && isUniMul 4 b
  | .lupd d a b => isSrc d && isUniMul 2 a && isSrc b
  | .tbinit d a b => isUni d && isSrc a && isSrc b
  | .tbtest _ d a b => isDst d && isUni a && isSrc b
  -- conversions: a 64-bit side is a pair (R282)
  | .cvtF32F64 _ a b | .cvtS32F64 _ a b => isDst a && isSrc64 b
  | .cvtF64F32 _ a b | .cvtF64S32 _ a b => isDst64 a && isSrc b
  | .cvtF64S64 _ a b | .cvtF64Z64 _ a b | .cvtS64F64 _ a b | .cvtZ64F64 _ a b => isDst64 a && isSrc64 b
  | .cvtF32S64 _ a b => isDst a && isSrc64 b
  | .cvtS64F32 _ a b => isDst64 a && isSrc b
  | .cvtF32H16 _ a b | .cvtH16F32 _ a b | .cvtF32W16 _ a b | .cvtW16F32 _ a b | .cvtF32S32 _ a b | .cvtF32Z32 _ a b
  | .cvtS32F32 _ a b | .cvtZ32F32 _ a b | .cvtQ8F32 _ a b | .cvtF32Q8 _ a b | .cvtQ6F32 _ a b | .cvtF32Q6 _ a b
  | .cvtQ4F32 _ a b | .cvtF32Q4 _ a b => isDst a && isSrc b
  -- integer to integer: no override (R210)
  | .cvtS8S32 r a b | .cvtZ8Z32 r a b | .cvtS16S32 r a b | .cvtZ16Z32 r a b => r == 0 && isDst a && isSrc b
  | .cvtS64S32 r a b | .cvtZ64Z32 r a b => r == 0 && isDst64 a && isSrc b
  | .cvtS32S64 r a b | .cvtZ32Z64 r a b => r == 0 && isDst a && isSrc64 b
  | .packH16 _ a b | .packW16 _ a b => isDst a && isRun 2 b
  | .packQ8 _ a b | .packQ6 _ a b => isDst a && isRun 4 b
  | .packQ4 _ a b => isDst a && isRun 8 b
  | .packS8 a b | .packZ8 a b => isDst a && isRun 4 b
  | .packS4 a b | .packZ4 a b => isDst a && isRun 8 b
  | .unpackH16 a b | .unpackW16 a b => isRun 2 a && isSrc b
  | .unpackQ8 a b | .unpackQ6 a b | .unpackS8 a b | .unpackZ8 a b => isRun 4 a && isSrc b
  | .unpackQ4 a b | .unpackS4 a b | .unpackZ4 a b => isRun 8 a && isSrc b
  | .tcopy a | .tcopys a | .treduce a => isUniMul 8 a
  | .bind a | .resid a => isUniMul 4 a
  | .unbind a | .tbarrive a => isUni a
  | .waitc c _ => decide (c.toNat < 5)
  | .tbexpect a b | .tbwait a b => isUni a && isSrc b
  | .bar c _ => decide (c.toNat < 4)
  | .gbar | .backoff => true
  | .fence s => isScope s
  | .fenceRp s a => isScope s && isUniMul 2 a
  | .sptest d b => isDst d && isSrc64 b
  | .spcast c d b => decide (c.toNat < 5) && isDst64 d && isSrc b
  | .spcastOff c d b => decide (c.toNat < 5) && isDst d && isSrc64 b
  | .sysflush a b | .sysinv a b => isUniMul 2 a && isUni b
  | .mldn a b | .mldw a b => isVec a && isUni b
  | .curve _ b | .bmap b => isUni b
  | .dtest p a b => decide (p.toNat < 7) && isVecRun 4 a && isUni b
  | .blend o a b | .pstore o a b => decide (o.toNat < 4) && isVecRun 3 a && isUni b
  | .evpop d b => isVecRun 4 d && isUni b
  | .svc _ _ _ | .trap _ | .resume | .skip | .brkpt | .uiret | .idemEnter | .idemLeave | .hold => true
  | .assert a => isUniMul 2 a
  | .uisend d b => isDst d && isUniMul 4 b
  | i => i.isEvent

end Sys2Proof
end

