-- ==== Sys2Proof/Machine/Operands.lean ====
section
/-!
DEFINITION. Operand forms: GMODE's fields (R62, R63), selectors as sources and destinations (R58, R60, R61), the bypass
latches (R66 to R68), the active lanes (R7), and the checks every instruction meets at issue, in the order of R206.
-/

namespace Sys2Proof.Machine

/-- GMODE at launch and at handler entry (R62, R65). -/
abbrev gmodeReset : Word := 0x27

def gPred (g : Word) : Nat := (g.extractLsb' 0 3).toNat
def gSense (g : Word) : Bool := g.getLsbD 3
def gType (g : Word) : BitVec 5 := g.extractLsb' 4 5
def gRd (g : Word) : BitVec 2 := g.extractLsb' 9 2
def gSat (g : Word) : BitVec 2 := g.extractLsb' 11 2
def gFtz (g : Word) : Bool := g.getLsbD 13
def gEject (g : Word) : Nat := (g.extractLsb' 16 4).toNat

/-- A value GMODE may take (R62). -/
def gmodeOk (g : Word) : Bool :=
  g.extractLsb' 20 12 == 0 && g.extractLsb' 14 2 == 0 && decide (gEject g ≤ 8) && gSat g != 3 && decide ((gType g).toNat ≤ 0x10)

/-- The integer TYPEs s8 to z64 (R63, R223). -/
def tyInt (t : BitVec 5) : Bool := decide (t.toNat < 8)
/-- The signed integer TYPEs. -/
def tySigned (t : BitVec 5) : Bool := decide (t.toNat < 4)
/-- Bits of an integer TYPE. -/
def tyBits (t : BitVec 5) : Nat := 8 * 2 ^ (t.toNat % 4)
/-- An integer TYPE of 64 bits. -/
def tyInt64 (t : BitVec 5) : Bool := t == 3 || t == 7
/-- The scalar float TYPEs f64, f32, h16, w16 (R273). -/
def tyFloat (t : BitVec 5) : Bool := decide (0xA ≤ t.toNat ∧ t.toNat ≤ 0xD)
/-- Any TYPE whose elements are pairs: s64, z64, f64. -/
def tyPair (t : BitVec 5) : Bool := t == 3 || t == 7 || t == 0xA
/-- The bytes of one element of a memory form (R255); none for s4, z4, q4 and the reserved codes. -/
def tyBytes (t : BitVec 5) : Option Nat :=
  match t.toNat with
  | 0 | 4 | 14 | 15 => some 1
  | 1 | 5 | 12 | 13 => some 2
  | 2 | 6 | 11 => some 4
  | 3 | 7 | 10 => some 8
  | _ => none

/-- A latch never written since launch or restore (R68). -/
def latch0 : Latch := ⟨false, false, none, false, []⟩

namespace Thread

/-- vn of a lane (R57). -/
def vreg (th : Thread) (l n : Nat) : Word := tget 0 th.vregs (256 * l + n)
/-- Writing vn of a lane. -/
def setV (th : Thread) (l n : Nat) (w : Word) : Thread := { th with vregs := tset 0 th.vregs (256 * l + n) w }
/-- kn (R57). -/
def kreg (th : Thread) (n : Nat) : Word := tget 0 th.kregs n
/-- Writing kn. -/
def setK (th : Thread) (n : Nat) (w : Word) : Thread := { th with kregs := tset 0 th.kregs n w }
/-- pn of a lane; p7 always reads 1 (R57). -/
def pred (th : Thread) (l p : Nat) : Bool := if p = 7 then true else tget false th.preds (8 * l + p)
/-- Writing pn of a lane; a write to p7 is discarded (R57). -/
def setP (th : Thread) (l p : Nat) (b : Bool) : Thread :=
  if p = 7 then th else { th with preds := tset false th.preds (8 * l + p) b }
/-- A pair of vector registers (R60). -/
def vpair (th : Thread) (l n : Nat) : DWord := th.vreg l (n + 1) ++ th.vreg l n
/-- A pair of uniform registers (R60). -/
def kpair (th : Thread) (n : Nat) : DWord := th.kreg (n + 1) ++ th.kreg n

/-- A lane's guard holds (R62). -/
def guard (th : Thread) (l : Nat) : Bool := th.pred l (gPred th.gmode) != gSense th.gmode
/-- The lanes of the path in the order of R77. -/
def lanes (th : Thread) (m : Mask) : List Nat := lanesOf m th.groups
/-- The lanes of a mask whose guard holds (R7). -/
def guarded (th : Thread) (m : Mask) : Mask := maskOf ((th.lanes m).filter th.guard)
/-- The lowest lane of a mask (R61, R77). -/
def lowest (th : Thread) (m : Mask) : Option Nat := (th.lanes m).head?

/-- A register named by a selector, as 64 bits; `w` reads a pair (R58, R60). -/
def regVal (th : Thread) (l : Nat) (x : Sel) (w : Bool) : DWord :=
  if x.toNat < 0xC0 then (if w then th.vpair l x.toNat else (th.vreg l x.toNat).setWidth 64)
  else if x.toNat < 0xF0 then (if w then th.kpair (uniNo x) else (th.kreg (uniNo x)).setWidth 64)
  else 0

/-- A latch of a group. -/
def latch (th : Thread) (g n : Nat) : Latch := tget latch0 th.latches (4 * g + n)

/-- A latch can be read (R68). -/
def latchReadable (th : Thread) (g n : Nat) : Bool := (th.latch g n).valid || (th.latch g n).recov

/-- What a readable latch returns (R68). -/
def latchVal (th : Thread) (l n : Nat) : DWord :=
  let b := th.latch (l / 32) n
  if b.valid then tget 0 b.vals (l % 32)
  else match b.tag with
    | some t => if b.recov then th.regVal l t b.wide else 0
    | none => 0

/-- A source selector as 64 bits (R58). -/
def src64 (th : Thread) (l : Nat) (x : Sel) : DWord :=
  if x.toNat < 0xF0 then th.regVal l x true
  else if x.toNat < 0xF4 then th.latchVal l (x.toNat - 0xF0)
  else if x.toNat = 0xF5 then BitVec.ofNat 64 (l % 32)
  else if x.toNat = 0xF6 then BitVec.ofNat 64 (l / 32)
  else 0

/-- A source selector as 32 bits (R58). -/
def src32 (th : Thread) (l : Nat) (x : Sel) : Word :=
  if x.toNat < 0xF0 then (th.regVal l x false).setWidth 32 else (th.src64 l x).setWidth 32

/-- A source of the width given, as a number. -/
def src (th : Thread) (w : Bool) (l : Nat) (x : Sel) : Nat := if w then (th.src64 l x).toNat else (th.src32 l x).toNat

/-- A 32-bit source of a form that acts once for the section: the lowest lane of the mask, or a uniform's own value (R328). -/
def srcOnce (th : Thread) (m : Mask) (x : Sel) : Word := th.src32 ((th.lowest m).getD 0) x

/-- A predicate operand of a lane: index, inversion (R207). -/
def predOp (th : Thread) (l : Nat) (x : Sel) : Bool := th.pred l (x.toNat % 8) != x.getLsbD 3

/-- The registers a latch's tag names meet a run of `c` registers from `x` (R66). -/
def tagMeets (b : Latch) (x : Sel) (c : Nat) : Bool :=
  match b.tag with
  | some t => decide (t.toNat < x.toNat + c ∧ x.toNat < t.toNat + (if b.wide then 2 else 1) ∧ (t.toNat < 0xC0 ↔ x.toNat < 0xC0))
  | none => false

/-- A write of `c` registers from `x` clears the recoverable bits of the latches of a group that name one (R66). -/
def unrec (th : Thread) (g : Nat) (x : Sel) (c : Nat) : Thread :=
  { th with latches := tsets latch0 th.latches ((List.range 4).filterMap (fun n =>
      let b := th.latch g n
      if tagMeets b x c then some (4 * g + n, { b with recov := false }) else none)) }

/-- A pass of a group shifts its latches and places a new b0 (R66). -/
def pushLatch (th : Thread) (g : Nat) (b : Latch) : Thread :=
  let new := [(4 * g + 3, th.latch g 2), (4 * g + 2, th.latch g 1), (4 * g + 1, th.latch g 0), (4 * g, b)]
  { th with latches := tsets latch0 th.latches new }

/-- Every latch becomes invalid; what is recoverable stays so (R67, R68). -/
def killLatches (th : Thread) : Thread :=
  { th with latches := th.latches.map (fun e => (e.1, { e.2 with valid := false })) |>.filter (fun e => e.2 ≠ latch0) }

/-- At restore, latches are invalid and no tag is recoverable (R69). -/
def dropLatches (th : Thread) : Thread := { th with latches := [] }

/-- Writing one 32-bit or 64-bit value to a vector register or pair of a lane. -/
def putV (th : Thread) (w : Bool) (l n : Nat) (v : DWord) : Thread :=
  if w then (th.setV l n (v.setWidth 32)).setV l (n + 1) (v.extractLsb' 32 32) else th.setV l n (v.setWidth 32)

/-- Writing one 32-bit or 64-bit value to a uniform register or pair. -/
def putK (th : Thread) (w : Bool) (n : Nat) (v : DWord) : Thread :=
  if w then (th.setK n (v.setWidth 32)).setK (n + 1) (v.extractLsb' 32 32) else th.setK n (v.setWidth 32)

/-- Write-back of an instruction's result (R58, R60, R61): each active lane's value to a vector destination, the lowest active
lane's to a uniform one, none with N = 1 or to zero. -/
def writeBack (th : Thread) (n w : Bool) (act : Mask) (d : Sel) (f : Nat → DWord) : Thread :=
  if n then th
  else if d.toNat < 0xC0 then
    let th' := (th.lanes act).foldl (fun t l => t.putV w l d.toNat (f l)) th
    (groupsOf act th.groups).foldl (fun t g => t.unrec g d (if w then 2 else 1)) th'
  else if d.toNat < 0xF0 then
    match th.lowest act with
    | some l =>
      let th' := th.putK w (uniNo d) (f l)
      (List.range th.groups).foldl (fun t g => t.unrec g d (if w then 2 else 1)) th'
    | none => th
  else th

/-- The latch slots of a pass of group `g`, after write-back (R66). -/
def latchVals (th : Thread) (w : Bool) (act : Mask) (d : Sel) (f : Nat → DWord) (g : Nat) : Table DWord :=
  let narrow (v : DWord) : DWord := if w then v else (v.setWidth 32 : Word).setWidth 64
  tsets 0 [] ((List.range 32).map (fun m =>
    let l := laneIdx g m
    (m, if 0xC0 ≤ d.toNat ∧ d.toNat < 0xF0 then
          (match th.lowest act with
           | some l0 => narrow (f l0)
           | none => th.regVal l d w)
        else if act.getLsbD l then narrow (f l) else th.regVal l d w)))

/-- The passes of an instruction that names a destination shift the latches of each group with a nonempty mask word (R65, R66). -/
def latchPass (th : Thread) (n w : Bool) (path act : Mask) (d : Sel) (f : Nat → DWord) : Thread :=
  (groupsOf path th.groups).foldl (fun t g =>
    t.pushLatch g ⟨true, !n && d != 0xF4, some d, w, th.latchVals w act d f g⟩) th

/-- The whole effect of a result on registers and latches. -/
def putResult (th : Thread) (n w : Bool) (path act : Mask) (d : Sel) (f : Nat → DWord) : Thread :=
  (th.writeBack n w act d f).latchPass n w path act d f

/-- A run of `c` results from `d` on: each register written, the first one latched (R215, R285). -/
def putRun (th : Thread) (n : Bool) (path act : Mask) (d : Sel) (c : Nat) (f : Nat → Nat → Word) : Thread :=
  let th' := (List.range c).foldl (fun t i =>
    t.writeBack n false act (BitVec.ofNat 8 (d.toNat + i)) (fun l => (f l i).setWidth 64)) th
  th'.latchPass n false path act d (fun l => (f l 0).setWidth 64)

/-- Writing a predicate of every active lane. -/
def putPred (th : Thread) (act : Mask) (p : Nat) (f : Nat → Bool) : Thread :=
  (th.lanes act).foldl (fun t l => t.setP l p (f l)) th

/-- FPFLAGS gains flags (R47). -/
def orFlags (th : Thread) (fs : Word) : Thread := { th with fpflags := th.fpflags ||| fs }

/-- The PC after an instruction that does not transfer control (R199). -/
def advance (th : Thread) : Thread := { th with pc := th.pc + 4 }

end Thread

/-- A fault raised by an instruction: code, lanes, TRAPADDR and TRAPAUX (R77, R78). -/
structure Trap where
  code  : Nat
  lanes : Mask
  addr  : DWord
  aux   : Word
  deriving DecidableEq, Repr

/-- Fault codes (R78). -/
abbrev cOPC : Nat := 0x01
abbrev cOPND : Nat := 0x02
abbrev cLATCH : Nat := 0x03
abbrev cBUDGET : Nat := 0x04
abbrev cUNIFORM : Nat := 0x05
abbrev cPAGE : Nat := 0x10
abbrev cPROT : Nat := 0x11
abbrev cSPACE : Nat := 0x12
abbrev cALIGN : Nat := 0x13
abbrev cSHAPE : Nat := 0x14
abbrev cSYS_UR : Nat := 0x15
abbrev cSYS_CA : Nat := 0x16
abbrev cSYS_TIMEOUT : Nat := 0x17
abbrev cCURVE : Nat := 0x21
abbrev cBMAP : Nat := 0x22
abbrev cTRACE_DEPTH : Nat := 0x30
abbrev cTRACE_PAYLOAD : Nat := 0x31
abbrev cASSERT : Nat := 0x40
abbrev cSOFTTRAP : Nat := 0x41
abbrev cBREAK : Nat := 0x42
abbrev cWATCH : Nat := 0x43
abbrev cSTEP : Nat := 0x44
abbrev cCMD : Nat := 0x50
abbrev cDMR : Nat := 0x60
abbrev cDOUBLE : Nat := 0x70
abbrev cECC : Nat := 0x71

/-- What an instruction names: registers written and read with the count of 32-bit registers each selector covers. -/
structure Uses where
  n   : Bool
  dst : List (Sel × Nat)
  src : List (Sel × Nat)

/-- Vector registers at or above the budget that a selector's run names; the lowest (R59, R78). -/
def overBudget (budget : Nat) (x : Sel × Nat) : Option Nat :=
  if x.1.toNat < 0xC0 ∧ budget < x.1.toNat + x.2 then some (Nat.max x.1.toNat budget) else none

/-- The least of several numbers. -/
def least : List Nat → Option Nat
  | [] => none
  | x :: r => match least r with
    | none => some x
    | some y => some (Nat.min x y)

/-- BUDGET, UNIFORM and LATCH, in the order of R206. -/
def regFault (th : Thread) (act : Mask) (u : Uses) : Option Trap :=
  match least ((u.dst ++ u.src).filterMap (overBudget th.budget)) with
  | some r => some ⟨cBUDGET, act, 0, BitVec.ofNat 32 r⟩
  | none =>
    match (if th.ejected && !u.n then (u.dst.find? (fun x => isUni x.1)) else none) with
    | some x => some ⟨cUNIFORM, act, 0, x.1.setWidth 32⟩
    | none =>
      match u.src.find? (fun x => decide (0xF0 ≤ x.1.toNat ∧ x.1.toNat < 0xF4) &&
          (groupsOf act th.groups).any (fun g => !th.latchReadable g (x.1.toNat - 0xF0))) with
      | some x => some ⟨cLATCH, act, 0, x.1.setWidth 32⟩
      | none => none

/-- The checks of R206 before an entry's own faults: OPND of the word even with no lane active, then OPND of the entry,
BUDGET, UNIFORM and LATCH when a lane is. -/
def issueFault (th : Thread) (path act : Mask) (word : Word) (static : Bool) (dyn : Bool) (u : Uses) : Option Trap :=
  if !static then some ⟨cOPND, if act = 0 then path else act, 0, word⟩
  else if act = 0 then none
  else if !dyn then some ⟨cOPND, act, 0, word⟩
  else regFault th act u

/-- Whether a selector may stand where the mode asks for a pair as a source. -/
def pairSrc (w : Bool) (x : Sel) : Bool := !w || isSrc64 x
/-- Whether a selector may stand where the mode asks for a pair as a destination. -/
def pairDst (w : Bool) (x : Sel) : Bool := !w || isDst64 x
/-- The registers a selector covers. -/
def wsel (w : Bool) (x : Sel) : Sel × Nat := (x, if w then 2 else 1)

end Sys2Proof.Machine
end

