-- ==== Sys2Proof/Machine/Flags.lean ====
section
/-!
DEFINITION. Results and flags: the integer helpers of R223 with SAT (R36), the float helpers of R273, and what each sets in
FPFLAGS (R46, R47).
-/

namespace Sys2Proof.Machine

/-- A 64-bit pattern of an integer in two's complement. -/
def ofInt64 (t : Int) : DWord := BitVec.ofInt 64 t

/-- The range of an integer of `n` bits (R223). -/
def intLo (sgn : Bool) (n : Nat) : Int := if sgn then -(2 ^ (n - 1) : Nat) else 0
def intHi (sgn : Bool) (n : Nat) : Int := if sgn then (2 ^ (n - 1) : Nat) - 1 else (2 ^ n : Nat) - 1

/-- The integer of the range congruent to `t` modulo 2^n (R223). -/
def wrapInt (sgn : Bool) (n : Nat) (t : Int) : Int :=
  let r := t % (2 ^ n : Nat)
  if sgn && decide (intHi sgn n < r) then r - (2 ^ n : Nat) else r

/-- `fin` of R223 on an exact integer: the value written and SAT. -/
def finInt (sgn : Bool) (n : Nat) (sat : BitVec 2) (t : Int) : Int × Word :=
  if t < intLo sgn n ∨ intHi sgn n < t then
    if sat = 1 then ((if t < intLo sgn n then intLo sgn n else intHi sgn n), fSAT) else (wrapInt sgn n t, 0)
  else (t, 0)

/-- `opnd` of R223: the low n bits of a register or pair, sign- or zero-extended. -/
def intOpnd (sgn : Bool) (n : Nat) (v : Nat) : Int := if sgn then sext v n else (v % 2 ^ n : Nat)

/-- `opnd` of a selector under GMODE. -/
def Thread.iopnd (th : Thread) (l : Nat) (x : Sel) : Int :=
  let t := gType th.gmode
  intOpnd (tySigned t) (tyBits t) (th.src (tyInt64 t) l x)

/-- `fin` under GMODE: the bits written and the flags. -/
def Thread.ifin (th : Thread) (t : Int) : DWord × Word :=
  let ty := gType th.gmode
  let r := finInt (tySigned ty) (tyBits ty) (gSat th.gmode) t
  (ofInt64 r.1, r.2)

/-- The format of a scalar float TYPE; f32 for any other, which no form accepts. -/
def tyFmt (t : BitVec 5) : Fmt := if t = 0xA then .f64 else if t = 0xC then .h16 else if t = 0xD then .w16 else .f32

/-- GMODE's rounding mode and saturation. -/
def gRM (g : Word) : RM := RM.ofField (gRd g)
def gSatF (g : Word) : Sat := Sat.ofField (gSat g)

/-- An f32 pattern with FTZ applied (R44). -/
def flush (ftz : Bool) (f : Fmt) (v : Nat) : Nat :=
  if ftz && decide (f = .f32) && f.isSubnormal v then v / 2 ^ 31 % 2 * 2 ^ 31 else v

/-- `fget` of R273: the pattern, flushed. -/
def Thread.fbits (th : Thread) (l : Nat) (x : Sel) : Nat :=
  let f := tyFmt (gType th.gmode)
  flush (gFtz th.gmode) f (th.src (decide (f = .f64)) l x % 2 ^ f.width)

/-- `fget` of R273 as a value. -/
def Thread.fget (th : Thread) (l : Nat) (x : Sel) : FVal := (tyFmt (gType th.gmode)).value (th.fbits l x)

/-- `fput` of R273. -/
def fputG (g : Word) (v : FVal) : DWord × Word :=
  let r := putF (tyFmt (gType g)) (gRM g) (gSatF g) (gFtz g) v
  (BitVec.ofNat 64 r.bits, r.flags)

/-- The OR of the flags of the lanes of a mask (R47). -/
def orOver (ls : List Nat) (f : Nat → Word) : Word := ls.foldl (fun a l => a ||| f l) 0

end Sys2Proof.Machine
end

