-- ==== Sys2Proof/Machine/Memory.lean ====
section
/-!
DEFINITION. Where things stand in State, physical memory, page tables and translation (R145 to R154), and the generic
address windows (R95 to R99).
-/

namespace Sys2Proof.Machine

/-- A core that holds nothing (R113, R120). -/
def core0 : Core where
  copyq := []
  halted := false
  dcache := []
  storeBuf := []
  ibuf := []
  tlb := []
  dirs := []
  regions := []
  lantern := []
  oculus := []
  shadow := .empty
  ctx := none
  shadowCtx := none
  preempt := false
  parked := []
  parkFor := none
  lastOn := []
  arrayTile := []
  pmc := []
  pmsel := []
  pmctx := 0

/-- A die that holds nothing (R94, R326). -/
def die0 : Die where
  scratch := []
  owners := []
  doorbell := []
  cupola := []
  cupolaHalt := false
  wake := []

/-- A slice at stage 2 (R393). -/
def slice0 : Slice where
  rpost := 0
  rfree := 0
  seq := 0
  reqs := []
  lines := []
  frames := []

/-- A context descriptor and its registers at reset (R70, R161, R373). -/
def ctx0 : Context where
  exists_ := false
  enabled := false
  ended := false
  endCode := 0
  endAddr := 0
  ptroot := 0
  permbase := 0
  permcnt := 0
  logbase := 0
  logsize := 0
  loghead := 0
  logtail := 0
  eqbase := 0
  eqlog2 := 0
  eqtail := 0
  eqlost := 0
  moves := 0
  pins := 0
  irqaddr := 0
  irqdata := 0
  routebase := 0
  routecnt := 0
  homeDie := 0
  part := 0
  trapent := 0
  allocbase := 0
  alloclen := 0
  uimask := 0
  uipend := 0
  uivec := 0
  uipay := 0
  uientry := 0
  uilaunch := none
  uivpay := []
  uicount := []
  uiwake := []
  bkpt := []
  wpt := []
  dmrCount := 0
  thrMoves := 4
  thrWindow := 1000000
  thrThrottle := 10000000
  history := []
  pinned := []
  used := []
  allocs := []
  wakeKept := false
  replayed := []
  dbgSel := 0
  dbgLsel := 0
  dbgRefused := false
  irqs := []

namespace State

def team? (s : State) (tid : Nat) : Option Team := s.teams.find? (fun t => t.tid == tid)
def launch? (s : State) (lid : Nat) : Option Launch := s.launches.find? (fun l => l.lid == lid)
def coreAt (s : State) (d c : Nat) : Core := tget core0 s.cores (64 * d + c)
def dieAt (s : State) (d : Nat) : Die := tget die0 s.diesT d
def sliceAt (s : State) (d i : Nat) : Slice := tget slice0 s.slices (16 * d + i)
def ctxAt (s : State) (c : Nat) : Context := tget ctx0 s.contexts c
def modTeam (s : State) (tid : Nat) (f : Team → Team) : State :=
  { s with teams := s.teams.map (fun t => if t.tid = tid then f t else t) }
def modLaunch (s : State) (lid : Nat) (f : Launch → Launch) : State :=
  { s with launches := s.launches.map (fun t => if t.lid = lid then f t else t) }
def modCore (s : State) (d c : Nat) (f : Core → Core) : State :=
  { s with cores := tset core0 s.cores (64 * d + c) (f (s.coreAt d c)) }
def modDie (s : State) (d : Nat) (f : Die → Die) : State := { s with diesT := tset die0 s.diesT d (f (s.dieAt d)) }
def modSlice (s : State) (d i : Nat) (f : Slice → Slice) : State :=
  { s with slices := tset slice0 s.slices (16 * d + i) (f (s.sliceAt d i)) }
def modCtx (s : State) (c : Nat) (f : Context → Context) : State :=
  { s with contexts := tset ctx0 s.contexts c (f (s.ctxAt c)) }
def sec? (s : State) (tid role : Nat) : Option Section := (s.team? tid).bind (fun t => t.secs.find? (fun c => c.role == role))
def modSec (s : State) (tid role : Nat) (f : Section → Section) : State :=
  s.modTeam tid (fun t => { t with secs := t.secs.map (fun c => if c.role = role then f c else c) })

/-- Bytes of physical memory from an address on. -/
def physRead (s : State) (pa n : Nat) : List Byte := readBytes s.mem pa n
/-- Writing bytes of physical memory. -/
def physWrite (s : State) (pa : Nat) (bs : List Byte) : State := { s with mem := writeBytes s.mem pa bs }

/-- The dies of a partition, ascending (R378). -/
def partDies (s : State) (p : Nat) : List Nat :=
  (List.range Config.dies).filter (fun d => (tget [] s.parts p).any (fun c => c / 16 == d))
/-- The physical cores of a partition, as 64 × die + core (R378). -/
def partCores (s : State) (p : Nat) : List Nat :=
  (List.range 256).filter (fun c => (tget [] s.parts p).any (fun x => x == 16 * (c / 64) + c % 64 / 4))

end State

/-- A page entry as a walk finds it: its bits, the log2 of its page size, its own physical address (R145, R148). -/
structure Leaf where
  e  : Nat
  lg : Nat
  pa : Nat
  deriving DecidableEq, Repr

def leafV (e : Nat) : Bool := bits e 0 1 == 1
def leafRD (e : Nat) : Bool := bits e 3 1 == 1
def leafWR (e : Nat) : Bool := bits e 4 1 == 1
def leafEX (e : Nat) : Bool := bits e 5 1 == 1
def leafSYS (e : Nat) : Bool := bits e 8 1 == 1
def leafOWN (e : Nat) : Nat := bits e 9 2
def leafDEM (e : Nat) : Bool := bits e 11 1 == 1
def leafPA (e : Nat) : Nat := bits e 12 40 * 4096

/-- The target of a physical address and its bits exist (R149). -/
def paOk (cxl : Nat) (pa : Nat) : Bool :=
  let t := pa / 2 ^ 48
  if t < 4 then decide (bits pa 36 12 = 0) else if t = 4 then decide (bits pa 0 48 < cxl) else decide (t = 8)

/-- A store of the host or of firmware to memory (R144): every byte of it has a target that exists (R149). -/
def hostStore (s : State) (pa : Nat) (bs : List Byte) : State :=
  if (List.range bs.length).all (fun i => paOk s.cxlBytes (pa + i)) then s.physWrite pa bs else s

/-- A page entry is well formed (R148, R149, R151). -/
def leafOk (cxl : Nat) (e lg : Nat) : Bool :=
  if !leafV e then leafDEM e
  else bits e 52 12 == 0 && bits e 6 2 == 0 && bits e 1 2 == 1 && decide (leafPA e % 2 ^ lg = 0) && paOk cxl (leafPA e)
    && leafOWN e != 3 && (!leafSYS e || leafOWN e == 2)
    && (if leafOWN e = 2 then decide (leafPA e / 2 ^ 48 = 8) else decide (leafPA e / 2 ^ 48 ≤ 4))

/-- A directory entry points to a table (R146, R147): its table's address. -/
def dirNext (e : Nat) (low : Nat) : Option Nat :=
  let next := bits e 12 40 * 4096
  if bits e 0 1 = 1 ∧ bits e 1 2 = 0 ∧ bits e 52 12 = 0 ∧ bits e low (12 - low) = 0 ∧ next / 2 ^ 48 < 4 ∧ bits next 36 12 = 0
  then some next else none

/-- An 8-byte table entry. -/
def readEntry (m : List Host.Cell) (pa : Nat) : Nat := readNat m pa 8

/-- A walk of the page tables (R145, R151): the page entry, or none for an unmapped address. `dir` reads a directory entry. A root that
lies outside targets 0 to 3 is read as any other memory: the spec gives no consequence (log entry 105). -/
def walkBy (dir : Nat → Nat) (m : List Host.Cell) (cxl root va : Nat) : Option Leaf :=
  let leafAt (pa lg : Nat) : Option Leaf := if leafOk cxl (readEntry m pa) lg then some ⟨readEntry m pa, lg, pa⟩ else none
  if 2 ^ 49 ≤ va then none else
  match dirNext (dir (root + 8 * bits va 41 8)) 3 with
  | none => none
  | some t2 =>
    let a2 := t2 + 8 * bits va 29 12
    let e2 := dir a2
    if bits e2 1 2 = 1 then leafAt a2 29
    else match dirNext e2 3 with
      | none => none
      | some t1 =>
        let e1 := dir (t1 + 8 * bits va 23 6)
        match dirNext e1 4 with
        | none => none
        | some t0 => if bits e1 3 1 = 0 then leafAt (t0 + 8 * bits va 12 11) 12 else leafAt (t0 + 8 * bits va 16 7) 16

/-- A walk that reads every entry in memory. -/
def walk (m : List Host.Cell) (cxl root va : Nat) : Option Leaf := walkBy (readEntry m) m cxl root va

/-- The physical addresses of the directory entries that a walk reads. -/
def walkDirs (dir : Nat → Nat) (root va : Nat) : List Nat :=
  let a3 := root + 8 * bits va 41 8
  match dirNext (dir a3) 3 with
  | none => [a3]
  | some t2 =>
    let a2 := t2 + 8 * bits va 29 12
    if bits (dir a2) 1 2 = 1 then [a3]
    else match dirNext (dir a2) 3 with
      | none => [a3, a2]
      | some t1 => [a3, a2, t1 + 8 * bits va 23 6]

/-- A directory entry as a core's walk reads it: the one it holds, however old (R152, R153). -/
def State.dirAt (s : State) (d c pa : Nat) : Nat := ((tget none (s.coreAt d c).dirs pa).map BitVec.toNat).getD (readEntry s.mem pa)

/-- The key of a TLB entry. -/
def tlbKey (ctx va lg : Nat) : Nat := 2 ^ 37 * ctx + va / 2 ^ lg * 2 ^ (lg - 12)

/-- The core's TLB entry for an address (R152). -/
def tlbFind (t : Table (DWord × Nat)) (ctx va : Nat) : Option (Nat × Nat) :=
  ([12, 16, 29].filterMap (fun lg => (t.find? (fun x => x.1 == tlbKey ctx va lg && x.2.2 == lg)).map (fun x => (x.2.1.toNat, lg)))).head?

/-- What a core's walk of the tables finds, with the directory entries it holds. -/
def State.coreWalk (s : State) (d c ctx va : Nat) : Option (Nat × Nat) :=
  (walkBy (s.dirAt d c) s.mem s.cxlBytes (s.ctxAt ctx).ptroot.toNat va).map (fun l => (l.e, l.lg))

/-- The entry an access of a core uses: a TLB entry it holds, however old (R153), or what a walk reads. A held entry that maps nothing is
used as such. -/
def State.entryFor (s : State) (d c ctx va : Nat) : Option (Nat × Nat) :=
  match tlbFind (s.coreAt d c).tlb ctx va with
  | some x => if leafOk s.cxlBytes x.1 x.2 then some x else none
  | none => s.coreWalk d c ctx va

/-- How translation classifies one access (R154). -/
inductive Xlat where
  | ok (pa : Nat) (pinned : Bool)
  | page
  | prot
  /-- V 0 and DEM 1, or host-owned: resolvable by the page home. -/
  | resolvable
  deriving DecidableEq, Repr

/-- Kinds of access of the trap record (R78). -/
inductive Access where
  | load | store | atomic | red | fetch
  deriving DecidableEq, Repr

def Access.code : Access → Nat
  | .load => 0
  | .store => 1
  | .atomic => 2
  | .red => 2
  | .fetch => 3

/-- The permission an access asks for (R148): an atomic both, a reduction or LUPD that of a store. -/
def leafAllows (e : Nat) : Access → Bool
  | .load => leafRD e
  | .store => leafWR e
  | .red => leafWR e
  | .atomic => leafRD e && leafWR e
  | .fetch => leafEX e

/-- Classification of an entry (R154). -/
def classify (x : Option (Nat × Nat)) (k : Access) (va : Nat) : Xlat :=
  match x with
  | none => .page
  | some (e, lg) =>
    if !leafAllows e k then .prot
    else if !leafV e || leafOWN e == 1 then .resolvable
    else .ok (leafPA e + va % 2 ^ lg) (leafOWN e == 2)

/-- A host page for which ATS grants no access is one that the page home has to ask for (R369). -/
def State.ats? (s : State) (x : Xlat) : Xlat :=
  match x with
  | .ok pa true => if s.ats.contains (pa / 4096) then .resolvable else x
  | _ => x

/-- Translation of a core's access in a context. -/
def State.translate (s : State) (d c ctx : Nat) (k : Access) (va : Nat) : Xlat := s.ats? (classify (s.entryFor d c ctx va) k va)

/-- Translation by a unit that holds no TLB: distributors, service cores, page homes. -/
def State.translateNow (s : State) (ctx : Nat) (k : Access) (va : Nat) : Xlat :=
  s.ats? (classify ((walk s.mem s.cxlBytes (s.ctxAt ctx).ptroot.toNat va).map (fun l => (l.e, l.lg))) k va)

/-- XOR of the w-bit groups of a number, from bit `lo` up, `k` of them. -/
def xorGroups (v w : Nat) (k : Nat) : Nat := (List.range k).foldl (fun a i => a ^^^ bits v (w * i) w) 0

/-- The page home of a virtual address: die and slice (R150). -/
def State.pageHome (s : State) (ctx va : Nat) : Nat × Nat :=
  let v := bits va 23 26
  let ds := s.partDies (s.ctxAt ctx).part
  let f := xorGroups v 2 13
  ((ds[f % ds.length]?).getD 0, xorGroups v 4 7)

/-- The class of a generic address (R95). -/
def addrClass (a : Nat) : Nat :=
  match bits a 56 8 with
  | 0x00 => 0
  | 0xF8 => 1
  | 0xFA => 2
  | 0xFC => 3
  | 0xFE => 4
  | _ => 7

/-- The bits R95 marks 0 are 0. -/
def addrZeros (a : Nat) : Bool :=
  match addrClass a with
  | 0 => bits a 49 7 == 0
  | 1 => bits a 48 6 == 0 && bits a 32 16 == 0 && bits a 25 7 == 0
  | 2 => bits a 48 4 == 0 && bits a 32 16 == 0
  | 3 => bits a 32 16 == 0
  | 4 => bits a 48 8 == 0 && bits a 32 16 == 0
  | _ => false

/-- A 0xFC generic address of a team's scratchpad offset. -/
def coreAddr (t : Team) (off : Nat) : DWord := BitVec.ofNat 64 (0xFC * 2 ^ 56 + t.die * 2 ^ 54 + t.core * 2 ^ 48 + off)

/-- The team of the issuing team's gang that a 0xFA address names, while it has not exited (R96, R388); the second copies of dual-run teams
have one another's scratchpads (R195). -/
def State.gangTeam? (s : State) (t : Team) (rank : Nat) : Option Team :=
  if t.rank = rank then some t
  else s.teams.find? (fun u => u.lid == t.lid && u.gang == t.gang && u.rank == rank && u.bank != .gone && u.primary == t.primary)

/-- SPACE of R96 for an access of `n` bytes by a lane of team `t`. -/
def State.spaceFault (s : State) (t : Team) (a n : Nat) : Bool :=
  if !addrZeros a then true
  else match addrClass a with
    | 1 => !(s.partDies (s.ctxAt t.ctx).part).contains (bits a 54 2)
    | 2 => decide (t.gangSize ≤ bits a 52 4) || match s.gangTeam? t (bits a 52 4) with
        | none => true
        | some u => decide (u.scratchSize < bits a 0 32 + n)
    | 3 => bits a 54 2 != t.die || bits a 48 6 != t.core || decide (t.scratchSize < bits a 0 32 + n)
    | 4 => decide (t.privSize < bits a 0 32 + n)
    | _ => false

/-- privaddr of R98. -/
def privAddr (s : State) (t : Team) (g l o : Nat) : Nat :=
  let P := t.privSize
  let base := match s.launch? t.lid with
    | some la => la.pkt.privB.toNat
    | none => 0
  base + t.index * t.groups * 32 * P + ((g * (P / 4) + o / 4) * 32 + l) * 4 + o % 4

/-- Where the bytes of one access lie (R94, R262). -/
inductive Place where
  /-- Global memory at virtual addresses: one piece, or the words of a private element (R98). -/
  | glob (vas : List (Nat × Nat))
  | team (tid off : Nat)
  | die (d off : Nat)
  deriving DecidableEq, Repr

/-- The place of an access that met no SPACE, by the lane of index `l` of a section. -/
def State.placeOf (s : State) (t : Team) (sec : Section) (l a n : Nat) : Place :=
  match addrClass a with
  | 1 => .die (bits a 54 2) (bits a 0 25)
  | 2 => match s.gangTeam? t (bits a 52 4) with
    | some u => .team u.tid (bits a 0 32)
    | none => .team t.tid (bits a 0 32)
  | 3 => .team t.tid (bits a 0 32)
  | 4 =>
    let g := sec.group0 + l / 32
    let o := bits a 0 32
    if n ≤ 4 then .glob [(privAddr s t g (l % 32) o, n)]
    else .glob ((List.range (n / 4)).map (fun i => (privAddr s t g (l % 32) (o + 4 * i), 4)))
  | _ => .glob [(bits a 0 49, n)]

/-- PROT of the die scratchpad (R96): the block is not the context's, or it is the cupola doorbell's block and the access is no
doorbell store. -/
def State.dieProt (s : State) (ctx d off n : Nat) (k : Access) : Bool :=
  let own (b : Nat) : Bool := tget none (s.dieAt d).owners b == some ctx
  if off / 65536 = 511 then
    !(k == .store && off == 0x01FFFFF8 && (n == 4 || n == 8) && (List.range 511).any own)
  else !own (off / 65536)

end Sys2Proof.Machine
end

