-- ==== Sys2Proof/Machine/Ops.lean ====
section
/-!
DEFINITION. The operations every meaning is built from: who issues, how an instruction retires or waits, error records (R143),
the end of a context (R75), the one entry to handler mode (R77 to R82), the recall of an ejected lane (R26), and the way back
(R80, R344).
-/

namespace Sys2Proof.Machine

/-- The answer of every step. -/
abbrev Res := Host.Outcome State Fault Refusal

/-- The operand rules that the word alone decides. -/
def staticOk (i : Instr) : Bool := i.wellFormed

/-- The word of an instruction, as TRAPAUX holds it. -/
def wordOf (i : Instr) : Word := (encode i).getD 0

/-- Who issues, and under what: the lanes of the path and those active (R7), a retry's lanes alone after RESUME (R80). -/
structure Iss where
  team : Team
  sec  : Section
  rec? : Option (Nat × Nat × LanternRec)
  th   : Thread
  path : Mask
  act  : Mask

/-- The issuer that State.sel names. -/
def State.iss? (s : State) : Option Iss :=
  match s.sel with
  | none => none
  | some (.sect tid role) =>
    match s.team? tid, s.sec? tid role with
    | some t, some c =>
      let p := match c.retry with
        | some m => c.th.path &&& m
        | none => c.th.path
      some ⟨t, c, none, c.th, p, c.th.guarded p⟩
    | _, _ => none
  | some (.lantern d c id) =>
    match (s.coreAt d c).lantern.find? (fun r => r.id == id) with
    | none => none
    | some r =>
      match s.team? r.tid, s.sec? r.tid r.role with
      | some t, some sc => some ⟨t, sc, some (d, c, r), r.th, r.th.path, r.th.guarded r.th.path⟩
      | _, _ => none

/-- The issuing section, changed. -/
def modOwn (k : Iss) (s : State) (f : Section → Section) : State := s.modSec k.team.tid k.sec.role f

/-- The issuing thread, replaced. -/
def putTh (k : Iss) (s : State) (th : Thread) : State :=
  match k.rec? with
  | none => modOwn k s (fun c => { c with th := th })
  | some (d, c, r) => s.modCore d c (fun x => { x with lantern := x.lantern.map (fun y => if y.id = r.id then { y with th := th } else y) })

/-- The issuing section is ready again: running, or in its handler (R75). -/
def readyState (c : Section) : SecState := if c.hmode then .handler else .running

/-- A held access has been served: it waits for no page any more, and what page homes could not map is no longer held against it
(R154). -/
def State.homesServed (s : State) (tid role : Nat) : State :=
  { s with homes := (s.homes.map (fun h => { h with who := h.who.filter (fun x => x != (tid, role)) })).filter (fun h => !h.failed || !h.who.isEmpty) }

/-- The name under which an issuer waits for a page: its section's role, or a number of its lane's record. -/
def Iss.homeKey (k : Iss) : Nat :=
  match k.rec? with
  | some r => 4096 + r.2.2.id
  | none => k.sec.role

/-- Retirement of the issued instruction (R77): counted, and a retry has been served. -/
def retire (k : Iss) (s : State) : State :=
  match k.rec? with
  | none => modOwn k s (fun c => { c with
      retired := c.retired + 1, retry := none, noBkpt := false, delayed := false, granted := []
      stepDone := c.stepDone || c.stepping, stepping := false
      waitOn := .none, waitFor := .again })
  | some _ => s

/-- Retirement with a new thread. -/
def retireWith (k : Iss) (s : State) (th : Thread) : State := retire k (putTh k s th)

/-- Retirement with no effect on registers: the PC goes on (R199). -/
def pass (k : Iss) (s : State) : State := retireWith k s k.th.advance

/-- The section waits before its instruction, for the reason and the condition given (R74, R75); an ejected lane is tried again. -/
def waitOn (k : Iss) (s : State) (w : WaitOn) (f : WaitFor) : State :=
  match k.rec? with
  | none => modOwn k s (fun c => { c with state := .waiting, waitOn := w, waitFor := f })
  | some _ => s

/-! ## Error records -/

/-- Bytes of a context's memory as a unit without a TLB reads them; none when translation does not allow it. -/
def State.sysRead (s : State) (ctx va n : Nat) : Option (List Byte) :=
  match s.translateNow ctx .load va with
  | .ok pa _ => some (s.physRead pa n)
  | _ => none

/-- Bytes written by such a unit; nothing when translation does not allow it. -/
def State.sysWrite (s : State) (ctx va : Nat) (bs : List Byte) : State :=
  match s.translateNow ctx .store va with
  | .ok pa _ => s.physWrite pa bs
  | _ => s

/-- A record of R143, its bytes. -/
structure Rec where
  kind : Nat
  ended : Bool
  die : Nat
  core : Nat
  ctx : Nat
  addr : Nat
  team : Nat
  role : Nat
  code : Nat
  queue : Nat
  detail : List Byte

def Rec.bytes (r : Rec) (wall : DWord) : List Byte :=
  toBytes 1 r.kind ++ toBytes 1 (b2n r.ended) ++ toBytes 1 r.die ++ toBytes 1 r.core ++ toBytes 2 r.ctx ++ toBytes 2 0
    ++ toBytes 8 wall.toNat ++ toBytes 8 r.addr ++ toBytes 4 r.team ++ toBytes 1 r.role ++ toBytes 1 r.code ++ toBytes 2 r.queue
    ++ (r.detail ++ toBytes 32 0).take 32

/-- A record of no team (R143). DIE is 0 whatever the die of the distributor, the model's choice (log entry 112). -/
def recOf (kind ctx : Nat) : Rec := ⟨kind, false, 0, 0xFF, ctx, 0, 0xFFFFFFFF, 0xFF, 0, 0, []⟩

/-- A record of a section. -/
def recBy (kind : Nat) (t : Team) (role : Nat) : Rec := ⟨kind, false, t.die, t.core, t.ctx, 0, t.index, role, 0, 0, []⟩

/-- The generic address of the record a context's queue takes next (R78, R373). -/
def State.nextRecAddr (s : State) (ctx : Nat) : Nat :=
  let x := s.ctxAt ctx
  x.eqbase.toNat + 64 + 64 * (x.eqtail.toNat % 2 ^ x.eqlog2)

/-- Posting a record to a context's error queue: written, or counted in LOST when the queue is full; FLAGS says whether the context
has ended (R143, R373). -/
def State.post (s : State) (r : Rec) : State :=
  let x := s.ctxAt r.ctx
  let r := { r with ended := r.ended || x.ended }
  match s.sysRead r.ctx x.eqbase.toNat 4 with
  | none => s
  | some h =>
    if 2 ^ x.eqlog2 ≤ (x.eqtail - BitVec.ofNat 32 (ofBytes h)).toNat then
      let lost := if x.eqlost = 0xFFFFFFFF then x.eqlost else x.eqlost + 1
      (s.modCtx r.ctx (fun y => { y with eqlost := lost })).sysWrite r.ctx (x.eqbase.toNat + 8) (toBytes 4 lost.toNat)
    else
      let s := s.sysWrite r.ctx (s.nextRecAddr r.ctx) (r.bytes s.wall)
      let s := s.sysWrite r.ctx (x.eqbase.toNat + 4) (toBytes 4 (x.eqtail + 1).toNat)
      s.modCtx r.ctx (fun y => { y with eqtail := x.eqtail + 1 })

/-- Posting a record to the device's error queue (R371). -/
def State.postDev (s : State) (r : Rec) : State :=
  if 1024 ≤ (s.devErrTail - s.devErrHead).toNat then
    { s with devErrLost := if s.devErrLost = 0xFFFFFFFF then s.devErrLost else s.devErrLost + 1 }
  else { s with devErrs := tset [] s.devErrs (s.devErrTail.toNat % 1024) (r.bytes s.wall), devErrTail := s.devErrTail + 1 }

/-! ## The end of a context -/

/-- A core without what a context's teams hold on it (R34). -/
def coreDrop (tids : List Nat) (ctx : Nat) (x : Core) : Core :=
  let keep (tid : Nat) : Bool := !tids.contains tid
  { x with
    copyq := x.copyq.filter (fun c => keep c.tid)
    regions := x.regions.filter (fun r => keep r.2.tid)
    lantern := x.lantern.filter (fun r => keep r.tid)
    oculus := x.oculus.filter (fun o => keep o.1)
    parked := x.parked.filter keep
    ctx := if x.ctx = some ctx then none else x.ctx
    shadowCtx := if x.shadowCtx = some ctx then none else x.shadowCtx
    shadow := if x.shadowCtx = some ctx then .empty else x.shadow
    preempt := if x.ctx = some ctx then false else x.preempt }

/-- A context ends (R75): END is written, every section becomes exited, what its teams hold is freed, its launches get no
completion word, its side logs are lost; then the record of the end. -/
def endContext (s : State) (ctx : Nat) (code : Nat) (addr : DWord) (r : Rec) : State :=
  if (s.ctxAt ctx).ended then s
  else
    let tids := (s.teams.filter (fun t => t.ctx == ctx)).map Team.tid
    let s := s.modCtx ctx (fun x => { x with ended := true, endCode := BitVec.ofNat 8 code, endAddr := addr })
    let quit (c : Section) : Section := { c with state := .exited, waitOn := .none, log := [] }
    let gone (t : Team) : Team := if t.ctx = ctx then { t with bank := .gone, stood := t.bank != .gone, secs := t.secs.map quit } else t
    let close (l : Launch) : Launch := if l.ctx = ctx then { l with complete := true, wordDone := true } else l
    let s : State := { s with
      teams := s.teams.map gone
      launches := s.launches.map close
      cores := (s.cores.map (fun x => (x.1, coreDrop tids ctx x.2))).filter (fun x => x.2 ≠ core0)
      orphans := s.orphans.filter (fun o => o.ctx != ctx)
      homes := s.homes.filter (fun h => h.ctx != ctx || h.toHost) }
    s.post { r with ended := true, addr := addr.toNat, code := code }

/-! ## Traps -/

/-- The trap record takes a fault (R77, R78). -/
def recordTrap (c : Section) (pc : DWord) (t : Trap) : Section :=
  { c with trapCode := BitVec.ofNat 32 t.code, trapPc := pc, trapAddr := t.addr, trapAux := t.aux, trapMask := t.lanes }

/-- The trap entry PC of a context (R383). -/
def trapEntry (x : Context) : DWord := x.trapent <<< 2

/-- Entry to handler mode (R79): the mask, the stack top, PREV and GMODE are saved; HMODE is set, GMODE reset, the latches
invalid; the section continues at `pc` with the mask `m`. -/
def enterHandler (c : Section) (how : EntryHow) (code : Nat) (skip : SkipHow) (prev : SecState) (pc : DWord) (m : Mask) : Section :=
  { c with
    hs := some ⟨c.th.path, c.stack.length, prev, c.th.gmode, how, c.th.pc, BitVec.ofNat 8 code, skip, c.retry, c.noBkpt⟩
    hmode := true
    prev := prev
    state := .handler
    waitOn := .none
    waitFor := .again
    stepping := false
    retry := none
    delayed := false
    redir := false
    noBkpt := false
    granted := []
    drains := c.drains.filter (fun x => x.1.isSome)
    th := { c.th.killLatches with gmode := gmodeReset, pc := pc, path := m } }

/-- The first code of a DOUBLE (R78). -/
def firstCode (c : Section) : Nat :=
  match c.hs with
  | some h => match h.how with
    | .trap | .brk => h.code.toNat
    | .alarm => 0x41
    | .ui => 0
  | none => 0

/-- Taking an exception: the fault of a section at its PC. In handler mode, or with no trap entry, the context ends with DOUBLE
(R81, R383); else the record is written and the handler entered (R79). -/
def takeTrapAt (s : State) (t : Team) (role : Nat) (how : EntryHow) (skip : SkipHow) (x : Trap) : State :=
  match s.sec? t.tid role with
  | none => s
  | some c =>
    let ctx := s.ctxAt t.ctx
    if c.hmode then
      let d : Trap := ⟨cDOUBLE, x.lanes, x.addr, BitVec.ofNat 32 (x.code + 256 * firstCode c)⟩
      endContext (s.modSec t.tid role (fun c => recordTrap c c.th.pc d)) t.ctx cDOUBLE x.addr (recBy 0x10 t role)
    else if ctx.trapent = 0 then
      let d : Trap := ⟨cDOUBLE, x.lanes, x.addr, BitVec.ofNat 32 (256 * x.code)⟩
      endContext (s.modSec t.tid role (fun c => recordTrap c c.th.pc d)) t.ctx cDOUBLE x.addr (recBy 0x10 t role)
    else
      s.modSec t.tid role (fun c =>
        let prev := if c.state = .waiting then .waiting else if c.state = .ejectedPending then .ejectedPending else .running
        enterHandler (recordTrap c c.th.pc x) how x.code skip prev (trapEntry ctx) x.lanes)

/-- The registers of one lane of a table keyed `w × lane + n`, and the rest. -/
def laneOnly {α : Type} (w l : Nat) (t : Table α) : Table α := t.filter (fun e => e.1 / w == l)
def laneNot {α : Type} (w l : Nat) (t : Table α) : Table α := t.filter (fun e => e.1 / w != l)

/-- A lane's registers and predicates put in place of those of its slot (R26, R27): the latches of its group that name a vector
register are no longer recoverable (R66). -/
def Thread.giveLane (th : Thread) (l : Nat) (r : Thread) : Thread :=
  { th.unrec (l / 32) 0 192 with
    vregs := tsets 0 (laneNot 256 l th.vregs) (laneOnly 256 l r.vregs)
    preds := tsets false (laneNot 8 l th.preds) (laneOnly 8 l r.preds)
    fpflags := th.fpflags ||| r.fpflags }

/-- The entries of a record's own calls, as the section's stack holds them above the recall entry: each with the PC of the call that
pushed it, one word before its return (R243, R249, R254). -/
def callEntries (r : LanternRec) : List Entry :=
  r.calls.map (fun c => ⟨.call, c.1 - 4, none, c.1, BitVec.twoPow 1024 r.lane, none, 0, none, false, c.2, 0, none⟩)

/-! ## Spill -/

/-- Bytes of a team's save area, ST (R115). -/
def saveBytes (p : Packet) : Nat :=
  let kib := 16 + 192 * p.roles.length + (p.roles.map (fun r => r.1 * r.2)).sum + p.scratch
  (kib + 3) / 4 * 4096

/-- The address at which reconvergence entry number `n` (1 for the bottom) spills (R98, R115). -/
def spillAddr (s : State) (t : Team) (role n : Nat) : Nat :=
  match s.launch? t.lid with
  | some l => l.pkt.save.toNat + t.index * saveBytes l.pkt + 1024 * (16 + 192 * role) + 256 * (Nat.min n 256 - 17)
  | none => 0

/-- Bytes that the spec gives no value: an entry or an image part in a save area (R98, R115, log entry 26). -/
def State.freeBytes (s : State) (pa n : Nat) : State :=
  { s.physWrite pa ((List.range n).map (Config.imageByte s.nextOp)) with nextOp := s.nextOp + 1 }

/-- A recall entry past the sixteenth stands in the spill area (R243); with no instruction that pushes it, nothing faults. -/
def State.spillRecall (s : State) (t : Team) (role n : Nat) : State :=
  if n ≤ 16 then s
  else match s.translateNow t.ctx .store (spillAddr s t role n) with
    | .ok pa _ => s.freeBytes pa 256
    | _ => s

/-- The recall of an ejected lane (R26): its state returns to its slot, its record is freed, and the section's current path
becomes that lane alone at its PC, above a recall entry that keeps the interrupted path and what of it a retry had still to serve. -/
def recallLane (s : State) (d c : Nat) (r : LanternRec) : State :=
  let s := s.modCore d c (fun x => { x with lantern := x.lantern.filter (fun y => y.id != r.id) })
  let s := match s.team? r.tid, s.sec? r.tid r.role with
    | some t, some x => s.spillRecall t r.role (x.stack.length + r.calls.length + 1)
    | _, _ => s
  s.modSec r.tid r.role (fun x =>
    let m := BitVec.twoPow 1024 r.lane
    let e : Entry := ⟨.recall, r.th.pc, r.joinPc, 0, m, some (x.th.path, x.th.pc), 0, some r.owner, false, false, 0, x.retry⟩
    { x with
      stack := callEntries r ++ e :: x.stack
      state := readyState x
      waitOn := .none
      retry := none
      granted := []
      th := { (x.th.giveLane r.lane r.th).killLatches with path := m, pc := r.th.pc } })

/-- An instruction of the section is under way, so that it stands at no boundary (R85, R302, R348): taps to be written, a held
load or host request, a RESID operation, an emulation, a comparison, a send to a peer. -/
def underWay (c : Section) : Bool :=
  !c.taps.isEmpty || c.oculus.isSome || c.hostReq.isSome || c.emu.isSome || c.cmp.any (fun o => o.dest.isSome)
    || c.peerSend.isSome || (c.state == .waiting && c.waitOn == .heldLoad) || (c.state != .waiting && c.waitFor == .event)

/-- The issuer may take an exception now: a section whose taps are written (R302); an ejected lane whose section stands at a
boundary outside any handler (R26). -/
def mayTrap (k : Iss) (s : State) : Bool :=
  match s.sec? k.team.tid k.sec.role with
  | none => false
  | some c => match k.rec? with
    | none => c.taps.isEmpty
    | some (_, _, r) =>
      -- what the lane itself has under way does not stand in its way
      let c := if c.hostReq.any (fun h => h.who == some r.id) then { c with hostReq := none } else c
      !c.hmode && !underWay c && !c.stepping && !c.stepDone && !c.holdDue

/-- Raising a fault for the issuer: a section traps; an ejected lane is recalled first. Until it may, it tries again. -/
def raiseWith (k : Iss) (s : State) (skip : SkipHow) (x : Trap) : State :=
  if !mayTrap k s then s
  else match k.rec? with
  | none => takeTrapAt s k.team k.sec.role .trap skip x
  | some (d, c, r) => takeTrapAt (recallLane s d c r) k.team k.sec.role .trap skip { x with lanes := BitVec.twoPow 1024 r.lane }

/-- Raising a fault. -/
def raise (k : Iss) (s : State) (x : Trap) : State := raiseWith k s .next x

/-- Recall without a trap (R254, R328): the core then executes the instruction for the recalled path. -/
def recallQuiet (k : Iss) (s : State) : State :=
  match k.rec? with
  | none => s
  | some (d, c, r) => if mayTrap k s then recallLane s d c r else s

/-! ## Issue -/

/-- Every instruction stands between these two: no issuer is the one fault of the machine, and the checks of R206 come first. -/
def issued (s : State) (f : Iss → State) : Res :=
  match s.iss? with
  | none => .fault .noIssuer
  | some k => .next (f k)

/-- An instruction under the guard: the checks of R206, nothing more with no lane active, else its effect (R206). With no lane
active `idle` gives what remains: the pass and its latches (R65, R66). -/
def guardedForm (i : Instr) (s : State) (dyn : Iss → Bool) (u : Iss → Uses) (idle : Iss → Thread) (eff : Iss → State) : Res :=
  issued s (fun k =>
    match issueFault k.th k.path k.act (wordOf i) (staticOk i) (dyn k) (u k) with
    | some x => raise k s x
    | none => if k.act = 0 then retireWith k s (idle k).advance else eff k)

/-- A form that ignores the guard (R64, R328): the lanes of its own faults are the path's; those of OPND from the word stay the
active ones (R206). -/
def pathForm (i : Instr) (s : State) (dyn : Iss → Bool) (u : Iss → Uses) (eff : Iss → State) : Res :=
  issued s (fun k =>
    match issueFault k.th k.path (if staticOk i then k.path else k.act) (wordOf i) (staticOk i) (dyn k) (u k) with
    | some x => raise k s x
    | none => if k.path = 0 then pass k s else eff k)

/-- The uses of a form that an ejected lane does not run: UNIFORM comes before LATCH (R206). -/
def usesUnlatched (k : Iss) (u : Uses) : Uses :=
  if k.th.ejected then { u with src := u.src.filter (fun x => !decide (0xF0 ≤ x.1.toNat ∧ x.1.toNat < 0xF4)) } else u

/-- A form of R328 that an ejected lane may not run: UNIFORM stands after OPND and BUDGET (R206). -/
def sectionForm (i : Instr) (s : State) (dyn : Iss → Bool) (u : Iss → Uses) (eff : Iss → State) : Res :=
  pathForm i s dyn (fun k => usesUnlatched k (u k)) (fun k =>
    match k.rec? with
    | some _ => raise k s ⟨cUNIFORM, k.path, 0, 0⟩
    | none => eff k)

/-- A register form: a new thread from the old one. -/
def regForm (i : Instr) (s : State) (dyn : Iss → Bool) (u : Iss → Uses) (f : Iss → Thread) : Res :=
  guardedForm i s dyn u f (fun k => retireWith k s (f k).advance)

/-- A register form of one result per lane: destination, N, whether it is a pair, sources, and the value and flags of a lane. -/
def laneForm (i : Instr) (s : State) (dyn : Word → Bool) (n : Bool) (d : Sel) (w : Word → Bool) (srcs : Word → List (Sel × Nat))
    (f : Thread → Nat → DWord × Word) : Res :=
  regForm i s (fun k => dyn k.th.gmode) (fun k => ⟨n, [wsel (w k.th.gmode) d], srcs k.th.gmode⟩)
    (fun k =>
      let th := k.th
      (th.putResult n (w th.gmode) k.path k.act d (fun l => (f th l).1)).orFlags (orOver (th.lanes k.act) (fun l => (f th l).2)))

/-- A form whose result is a predicate of each active lane. -/
def predForm (i : Instr) (s : State) (dyn : Word → Bool) (p : Nat) (srcs : Word → List (Sel × Nat))
    (f : Thread → Nat → Bool × Word) : Res :=
  regForm i s (fun k => dyn k.th.gmode) (fun k => ⟨true, [], srcs k.th.gmode⟩)
    (fun k =>
      let th := k.th
      (th.putPred k.act p (fun l => (f th l).1)).orFlags (orOver (th.lanes k.act) (fun l => (f th l).2)))

/-- A form that ends a handler, under any mask (R344): OPND where it is not allowed, UNIFORM on an ejected lane. -/
def returnForm (i : Instr) (s : State) (ok : Iss → Bool) (eff : Iss → State) : Res :=
  issued s (fun k =>
    match issueFault k.th k.path k.path (wordOf i) (staticOk i) true ⟨true, [], []⟩ with
    | some x => raise k s x
    | none =>
      match k.rec? with
      | some _ => raise k s ⟨cUNIFORM, k.path, 0, 0⟩
      | none => if ok k then eff k else raise k s ⟨cOPND, k.path, 0, wordOf i⟩)

/-! ## Freeing -/

/-- Groups whose lanes have all exited give up their granules and slots, unless a section of the team is in handler mode
(R34, R82). -/
def freeGroups (s : State) (tid : Nat) : State :=
  s.modTeam tid (fun t =>
    if t.secs.any (fun c => c.hmode) then t
    else { t with secs := t.secs.map (fun c =>
      let dead := (List.range c.th.groups).filter (fun g => maskWord c.th.live g = 0)
      { c with th := { c.th with freed := dead.foldl (fun m g => m ||| BitVec.twoPow 32 g) c.th.freed } }) })

end Sys2Proof.Machine
end

