-- ==== Sys2Proof/Machine/Atomics.lean ====
section
/-!
DEFINITION. One step at one place: what an ATOM, RED or LUPD computes (R261, R264, R323), reads and writes of team and die
scratchpad, the transaction barrier (R183, R184), the cached copies of a core and of a slice (R94, R119), and what a core's
loads see (R354, R355).
-/

namespace Sys2Proof.Machine

/-! ## What a step computes -/

/-- The value an atomic step writes, none for no write (R261): bytes of the element, old value, data, swap value. -/
def opNew (kind : OpKind) (ty : BitVec 5) (rd : BitVec 2) (size : Nat) (old data swap : Nat) : Option Nat :=
  let n := 8 * size
  let sg := tySigned ty
  match kind with
  | .store | .xchg => some data
  | .add =>
    if ty = 0xA ∨ ty = 0xB then
      let f := tyFmt ty
      some (roundSum f (RM.ofField rd) .narrow [f.value old, f.value data]).bits
    else some ((old + data) % 2 ^ n)
  | .min => some (if intOpnd sg n old ≤ intOpnd sg n data then old else data)
  | .max => some (if intOpnd sg n data ≤ intOpnd sg n old then old else data)
  | .and => some (Nat.land old data)
  | .or => some (Nat.lor old data)
  | .xor => some (Nat.xor old data)
  | .cas => if old = data then some swap else none
  | .lupd => none

/-- A latent record (R322) after a delta (R323), none for no write. -/
def latentNew (old delta hyp : Nat) : Option Nat :=
  if delta % 2 ^ 31 = 0 then none
  else if bits old 67 61 ≠ 0 ∨ bits old 64 2 ≠ hyp ∨ bits old 66 1 = 1 then none
  else
    let v := (roundSum .f32 .rne .narrow [Fmt.f32.value (bits old 0 32), Fmt.f32.value delta]).bits
    some (v + (bits old 32 32 + 1) % 2 ^ 32 * 2 ^ 32 + bits old 64 64 * 2 ^ 64)

/-- The bytes of one element. -/
def MemOp.bytes (op : MemOp) : Nat := op.size

/-- One step of a memory operation on the old number of an element, none for no write. -/
def MemOp.new (op : MemOp) (old : Nat) (x : LaneOp) : Option Nat :=
  let m := 2 ^ (8 * op.size)
  if op.kind = .lupd then latentNew old (x.data.toNat % 2 ^ 32) x.data2.toNat
  else opNew op.kind op.ty op.rd op.size old (x.data.toNat % m) (x.data2.toNat % m)

/-! ## The transaction barrier -/

/-- The fields of R183. -/
structure TBar where
  phase : Nat
  penda : Nat
  pends : Int
  expa  : Nat
  exps  : Nat
  init  : Bool
  cerr  : Bool
  serr  : Bool
  aerr  : Bool
  resv  : Nat
  deriving DecidableEq, Repr

def TBar.of (v : Nat) : TBar :=
  ⟨bits v 0 4, bits v 4 20, sext (bits v 24 32) 32, bits v 56 20, bits v 76 32, bits v 108 1 == 1, bits v 109 1 == 1,
   bits v 110 1 == 1, bits v 111 1 == 1, bits v 112 16⟩

def TBar.bits (b : TBar) : Nat :=
  b.phase + b.penda * 2 ^ 4 + (b.pends % (2 ^ 32 : Nat)).toNat * 2 ^ 24 + b.expa * 2 ^ 56 + b.exps * 2 ^ 76
    + b2n b.init * 2 ^ 108 + b2n b.cerr * 2 ^ 109 + b2n b.serr * 2 ^ 110 + b2n b.aerr * 2 ^ 111 + b.resv * 2 ^ 112

/-- A change that leaves both counts 0 completes the phase in the same step (R184). -/
def TBar.settle (b : TBar) : TBar :=
  if b.penda = 0 ∧ b.pends = 0 then { b with phase := (b.phase + 1) % 16, penda := b.expa, pends := sext b.exps 32 } else b

/-- One arrival (R184). -/
def TBar.arrive (b : TBar) : TBar := if b.penda = 0 then { b with aerr := true } else { b with penda := b.penda - 1 }.settle

/-- PENDS changes by an amount; refused with SERR outside s32 (R184). -/
def TBar.sectors (b : TBar) (n : Int) : TBar :=
  let p := b.pends + n
  if p < intLo true 32 ∨ intHi true 32 < p then { b with serr := true } else { b with pends := p }.settle

/-- A barrier of a team's scratchpad. -/
def Team.tbar (t : Team) (off : Nat) : TBar := TBar.of (readNat t.scratch off 16)
/-- Writing a barrier back. -/
def Team.setTbar (t : Team) (off : Nat) (b : TBar) : Team := { t with scratch := writeNat t.scratch off 16 b.bits }

/-- A program's write of one 4-byte word, or part of one, of team scratchpad: a write to a word that holds a count of an
initialised barrier is one of its changes (R184, R187). -/
def Team.putWord (t : Team) (off : Nat) (bs : List Byte) : Team :=
  let t := { t with scratch := writeBytes t.scratch off bs }
  let base := off / 16 * 16
  if off % 16 < 8 ∧ (t.tbar base).init then
    let b := t.tbar base
    if b.penda = 0 ∧ b.pends = 0 then t.setTbar base b.settle else t
  else t

/-- A program's write of an element of team scratchpad. -/
def Team.putElem (t : Team) (off : Nat) (bs : List Byte) : Team :=
  if bs.length ≤ 4 then t.putWord off bs else (t.putWord off (bs.take 4)).putWord (off + 4) (bs.drop 4)

/-! ## Cached copies -/

/-- The home slice at which a pinned host line's copy is kept. -/
def lineHome (pa : Nat) : Nat × Nat := (xorGroups (pa / 128) 2 20 % 4, xorGroups (pa / 128) 4 10)

/-- A physical address in host memory (R149). -/
def isHost (pa : Nat) : Bool := pa / 2 ^ 48 == 8

/-- The slice copy of a pinned host line (R119). -/
def State.sliceLine? (s : State) (line : Nat) : Option SliceLine :=
  ((s.sliceAt (lineHome line).1 (lineHome line).2).lines.find? (fun x => x.1 == line)).map Prod.snd

/-- The 128 bytes of a line as its home holds them; none for a pinned host line without a slice copy. -/
def State.homeLine? (s : State) (line : Nat) : Option (List Byte) :=
  if isHost line then (s.sliceLine? line).map SliceLine.data else some (s.physRead line 128)

/-- The dirty bytes of a slice copy are written to the host, each marked byte alone (R119). -/
def State.writeBack (s : State) (line : Nat) : State :=
  match s.sliceLine? line with
  | none => s
  | some x =>
    let s := (List.range 128).foldl (fun s i => if x.dirty.getD i false then s.physWrite (line + i) [x.data.getD i 0] else s) s
    s.modSlice (lineHome line).1 (lineHome line).2 (fun y =>
      { y with lines := y.lines.map (fun l => if l.1 = line then (l.1, { l.2 with dirty := List.replicate 128 false }) else l) })

/-- A slice copy is dropped, written back or not. -/
def State.dropSlice (s : State) (line : Nat) : State :=
  s.modSlice (lineHome line).1 (lineHome line).2 (fun y => { y with lines := y.lines.filter (fun l => l.1 != line) })

/-! ## Reads and writes at a spot -/

/-- A slice takes a copy of a host line with the data given (R119): it holds 4 MiB, and a full one evicts another line (R94). -/
def State.takeSlice (s : State) (line : Nat) (data : List Byte) : State :=
  let x := s.sliceAt (lineHome line).1 (lineHome line).2
  let s := match x.lines with
    | l :: _ => if 32768 ≤ x.lines.length then (s.writeBack l.1).dropSlice l.1 else s
    | [] => s
  s.modSlice (lineHome line).1 (lineHome line).2 (fun x =>
    { x with lines := tset ⟨[], []⟩ x.lines line ⟨data, List.replicate 128 false⟩ })

/-- A core's cached line. -/
def Core.line? (c : Core) (line : Nat) : Option CacheLine := (c.dcache.find? (fun x => x.1 == line)).map Prod.snd

/-- A core's data cache takes a line: it holds 128 KiB, and a full one evicts another line (R94). -/
def Core.keepLine (k : Core) (line : Nat) (x : CacheLine) : Core :=
  { k with dcache := tset [] (if (k.line? line).isNone && decide (1024 ≤ k.dcache.length) then k.dcache.drop 1 else k.dcache) line x }

/-- The line a core reads: its own copy, or its home's, which it then keeps. -/
def State.fillLine? (s : State) (d c line : Nat) : Option (List Byte × State) :=
  match (s.coreAt d c).line? line with
  | some x => some (x, s)
  | none => (s.homeLine? line).map (fun x => (x, s.modCore d c (fun k => k.keepLine line x)))

/-- A byte as the stores that stand in a core's buffer leave it, youngest last (R354, R355). -/
def overlay (buf : List BufStore) (pa : Nat) (b : Byte) : Byte :=
  buf.foldl (fun b e => match e.bytes.find? (fun x => x.1 == pa) with
    | some x => x.2
    | none => b) b

/-- Bytes of one line as a core's load sees them; none when the host must be asked. -/
def State.coreRead? (s : State) (d c pa n : Nat) : Option (List Byte × State) :=
  let line := pa / 128 * 128
  (s.fillLine? d c line).map (fun (x, s') =>
    ((List.range n).map (fun i => overlay (s.coreAt d c).storeBuf (pa + i) (x.getD (pa - line + i) 0)), s'))

/-- Every core of the device drops a line from its data cache. -/
def State.dropLineAll (s : State) (line : Nat) : State :=
  { s with cores := (s.cores.map (fun x => (x.1, { x.2 with dcache := x.2.dcache.filter (fun l => l.1 != line) }))).filter (fun x => x.2 ≠ core0) }

/-- A core drops a line from its data cache. -/
def State.dropLine (s : State) (d c line : Nat) : State :=
  s.modCore d c (fun k => { k with dcache := k.dcache.filter (fun l => l.1 != line) })

/-- One byte performed at its home (R355): memory, or the slice copy of a pinned host line with its mark (R119). -/
def State.homePut (s : State) (pa : Nat) (b : Byte) : State :=
  if isHost pa then
    let line := pa / 128 * 128
    let s := match s.sliceLine? line with
      | some _ => s
      | none => s.takeSlice line (s.physRead line 128)
    s.modSlice (lineHome line).1 (lineHome line).2 (fun x =>
      { x with lines := x.lines.map (fun l => if l.1 = line then
          (l.1, ⟨l.2.data.set (pa - line) b, l.2.dirty.set (pa - line) true⟩) else l) })
  else s.physWrite pa [b]

/-- Bytes performed at their home. -/
def State.homeWrite (s : State) (bs : List (Nat × Byte)) : State := bs.foldl (fun s x => s.homePut x.1 x.2) s

/-- Bytes as their home holds them; of a host line without a slice copy, as the host's memory holds them. -/
def State.homeRead (s : State) (pa n : Nat) : List Byte :=
  let line := pa / 128 * 128
  match s.homeLine? line with
  | some x => (List.range n).map (fun i => x.getD (pa - line + i) 0)
  | none => s.physRead pa n

/-- A core's cached copies take bytes that its own section has written. -/
def State.cachePut (s : State) (d c : Nat) (bs : List (Nat × Byte)) : State :=
  s.modCore d c (fun k => { k with dcache := k.dcache.map (fun l =>
    (l.1, bs.foldl (fun x b => if b.1 / 128 * 128 = l.1 then x.set (b.1 - l.1) b.2 else x) l.2)) })

/-- The physical addresses of a spot's bytes, in element order. -/
def physBytes (pas : List (Nat × Nat)) : List Nat := pas.flatMap (fun x => (List.range x.2).map (fun i => x.1 + i))

/-- The bytes at a spot, at its home or array. -/
def State.spotRead (s : State) (sp : Spot) (n : Nat) : List Byte :=
  match sp with
  | .phys pas => pas.flatMap (fun x => s.homeRead x.1 x.2)
  | .team tid off => match s.team? tid with
    | some t => readBytes t.scratch off n
    | none => []
  | .die d off => readBytes (s.dieAt d).scratch off n

/-- A store to the cupola's doorbell word (R326). -/
def isDoorbell (sp : Spot) : Bool :=
  match sp with
  | .die _ off => off == 0x01FFFFF8
  | _ => false

/-- Writing an element at a spot; a store to a cupola's doorbell word rings it (R326), with the context given. -/
def State.spotWrite (s : State) (ctx : Nat) (sp : Spot) (bs : List Byte) : State :=
  match sp with
  | .phys pas => s.homeWrite ((physBytes pas).zip bs)
  | .team tid off => s.modTeam tid (fun t => t.putElem off bs)
  | .die d off =>
    if isDoorbell sp then s.modDie d (fun x => { x with doorbell := x.doorbell ++ [(ctx, ofBytes (bs.take 4))] })
    else s.modDie d (fun x => { x with scratch := writeBytes x.scratch off bs })

/-- One lane's step at its spot: indivisible (R262). The old value is returned. -/
def State.stepAt (s : State) (ctx : Nat) (op : MemOp) (x : LaneOp) (sp : Spot) : Nat × State :=
  let old := ofBytes (s.spotRead sp op.size)
  match op.new old x with
  | some v => (old, s.spotWrite ctx sp (toBytes op.size v))
  | none => (old, s)

/-- The lines of a spot that a core's data cache may hold. -/
def Spot.linesOf (sp : Spot) : List Nat :=
  match sp with
  | .phys pas => pas.map (fun x => x.1 / 128 * 128)
  | _ => []

/-- Spots share a byte. -/
def Spot.meets (a b : Spot) (na nb : Nat) : Bool :=
  match a, b with
  | .phys x, .phys y => (physBytes x).any (fun p => (physBytes y).contains p)
  | .team t o, .team t' o' => t == t' && decide (o < o' + nb) && decide (o' < o + na)
  | .die t o, .die t' o' => t == t' && decide (o < o' + nb) && decide (o' < o + na)
  | _, _ => false

/-! ## Epochs -/

/-- Lexicographic order of logical identifiers (R55). -/
def keyLe : List Nat → List Nat → Bool
  | [], _ => true
  | _, [] => false
  | a :: r, b :: r' => if a < b then true else if b < a then false else keyLe r r'

/-- Insertion after every contribution that is not later: program order stays (R55). -/
def insertKey (x : Contribution) : List Contribution → List Contribution
  | [] => [x]
  | y :: r => if keyLe y.key x.key then y :: insertKey x r else x :: y :: r

def sortKeys (l : List Contribution) : List Contribution := l.foldl (fun a x => insertKey x a) []

/-- The steps of an epoch applied in the order of R55 (R363). -/
def applyEpoch (s : State) (ctx : Nat) (l : List Contribution) : State :=
  (sortKeys l).foldl (fun s x => match x.lane.spot with
    | some sp => (s.stepAt ctx x.op x.lane sp).2
    | none => s) s

end Sys2Proof.Machine
end

