-- ==== Sys2Proof/Machine/Blocks.lean ====
section
/-!
DEFINITION. Shape records (R164 to R168), command blocks and the sectors of a copy (R133, R167, R184), presence of scratchpad
lines (R104 to R107).
-/

namespace Sys2Proof.Machine

/-- A shape record's fields (R164). -/
structure Shape where
  meta_  : Nat
  base   : Nat
  stride : List Int
  dim    : List Nat
  tile   : List Nat
  spel   : Nat
  sparse : Bool
  permit : Bool
  perm   : Nat
  esize  : Nat
  rank   : Nat
  resv   : Bool
  deriving DecidableEq, Repr

/-- The fields of 128 bytes. -/
def Shape.of (bs : List Byte) : Shape :=
  let v := ofBytes bs
  { meta_ := bits v 960 64, base := bits v 896 64
    stride := (List.range 7).map (fun d => sext (bits v (448 + 64 * d) 64) 64)
    dim := (List.range 7).map (fun d => bits v (224 + 32 * d) 32)
    tile := (List.range 7).map (fun d => bits v (112 + 16 * d) 16)
    spel := bits v 14 2, sparse := bits v 13 1 == 1, permit := bits v 12 1 == 1, perm := bits v 10 2
    esize := 2 ^ bits v 6 2, rank := bits v 3 3
    resv := bits v 16 96 == 0 && bits v 8 2 == 0 && bits v 0 3 == 0 }

/-- A well-formed record (R168): `sparse` as the instruction wants it, `copy` for a shaped copy. META is 0 unless SPARSE (R164). -/
def Shape.ok (r : Shape) (sparse copy : Bool) : Bool :=
  r.resv && decide (r.rank ≠ 0) && decide (r.perm ≠ 3) && decide (r.spel ≠ 3) && r.sparse == sparse
    && (r.sparse || (r.meta_ == 0))
    && (List.range 7).all (fun d => decide (d < r.rank) || (r.stride.getD d 0 == 0 && r.dim.getD d 0 == 0 && r.tile.getD d 0 == 0))
    && (!copy || (List.range r.rank).all (fun d => decide (r.tile.getD d 0 ≠ 0)))

/-- PERM on a scratchpad offset (R166). -/
def permOff (p o : Nat) : Nat :=
  match p with
  | 1 => o - bits o 2 5 * 4 + Nat.xor (bits o 2 5) (bits o 7 5) * 4
  | 2 => o - bits o 4 3 * 16 + Nat.xor (bits o 4 3) (bits o 7 3) * 16
  | _ => o

/-- Under this number plus its section's role, a copy's page faults are failed by a page home (R117). -/
abbrev copyRole : Nat := 1000

/-- The fields of a command block (R133). -/
structure Block where
  gaddr : Nat
  soff  : Nat
  bytes : Nat
  shape : Nat
  bar   : Nat
  op    : Nat
  resv  : Bool
  deriving DecidableEq, Repr

def Block.of (b : BitVec 256) : Block :=
  let v := b.toNat
  ⟨bits v 0 64, bits v 64 32, bits v 96 32, bits v 128 32, bits v 160 32, bits v 192 4,
   bits v 196 60 == 0 && bits v 161 3 == 0⟩

/-- Offset of the transaction barrier a block names (R133). -/
def Block.barOff (b : Block) : Option Nat := if b.bar % 2 = 1 then some (b.bar / 16 * 16) else none

/-- One piece of a sector: scratchpad offset, generic address on the other side (none where an element lies outside the
tensor), bytes. -/
structure Piece where
  off  : Nat
  addr : Option Nat
  n    : Nat
  deriving DecidableEq, Repr

/-- Elements of a box. -/
def Shape.count (r : Shape) : Nat := (r.tile.take r.rank).foldl (· * ·) 1

/-- Coordinates of the dense element `j` of a box, dimension 0 fastest. -/
def coordsOf : List Nat → Nat → List Nat
  | [], _ => []
  | t :: r, j => (j % t) :: coordsOf r (j / t)

/-- The memory side of the dense element `j` (R167); none at or past DIM. -/
def Shape.elemAddr (r : Shape) (gaddr j : Nat) : Option Nat :=
  let c := coordsOf (r.tile.take r.rank) j
  if (List.range r.rank).all (fun d => decide (c.getD d 0 < r.dim.getD d 0)) then
    some (((gaddr : Int) + (List.range r.rank).foldl (fun a d => a + (c.getD d 0 : Int) * r.stride.getD d 0) 0) % (2 ^ 64 : Nat)).toNat
  else none

/-- Bits of a sparse element (R164). -/
def Shape.spBits (r : Shape) : Nat := 4 * 2 ^ r.spel

/-- Bytes the scratchpad side of a shaped copy takes (R167, R184). -/
def Shape.denseBytes (r : Shape) : Nat := if r.sparse then (r.count * r.spBits + 7) / 8 else r.count * r.esize

/-- The pieces of sector `i` of a linear copy. -/
def linearPieces (b : Block) (i : Nat) : List Piece := [⟨b.soff + 32 * i, some (b.gaddr + 32 * i), 32⟩]

/-- The pieces of sector `i` of a shaped copy that is not sparse; PERM moves the 4-byte words of an element each (R166). -/
def shapedPieces (b : Block) (r : Shape) (i : Nat) : List Piece :=
  (List.range (32 / r.esize)).flatMap (fun x =>
    let j := i * (32 / r.esize) + x
    let off := b.soff + j * r.esize
    let a := r.elemAddr b.gaddr j
    if r.count ≤ j then []
    else if r.esize = 8 ∧ r.perm ≠ 0 then [⟨permOff r.perm off, a, 4⟩, ⟨permOff r.perm (off + 4), a.map (fun a => (a + 4) % 2 ^ 64), 4⟩]
    else [⟨permOff r.perm off, a, r.esize⟩])

/-- The number of sectors (R184). -/
def sectorCount (b : Block) (r : Option Shape) : Nat :=
  match r with
  | some r => (r.denseBytes + 31) / 32
  | none => b.bytes / 32

/-- The 128-byte lines a copy writes or reads in team scratchpad. -/
def copyLines (b : Block) (r : Option Shape) : List Nat :=
  let n := match r with
    | some r => r.denseBytes
    | none => b.bytes
  if n = 0 then [] else (List.range ((b.soff + n - 1) / 128 + 1 - b.soff / 128)).map (fun i => b.soff / 128 + i)

/-- The line of a sector: PERM moves words within a line only (R166). -/
def sectorLine (b : Block) (i : Nat) : Nat := (b.soff + 32 * i) / 128

/-- The shape of a copy, none for a linear one (R133, R168). -/
def Copy.shape (c : Copy) : Option Shape := if (Block.of c.block).bytes = 0 then some (Shape.of c.srec) else none

/-- The pieces of a sector of a copy. -/
def Copy.pieces (c : Copy) (i : Nat) : List Piece :=
  match c.shape with
  | some r => shapedPieces (Block.of c.block) r i
  | none => linearPieces (Block.of c.block) i

/-- A copy as its record stands: until it starts, a store may still change what it will read (R168). -/
def Copy.asRead (c : Copy) (scratch : Table Byte) : Copy :=
  let b := Block.of c.block
  if c.begun ∨ b.bytes ≠ 0 then c
  else
    let c := { c with srec := readBytes scratch b.shape 128 }
    { c with left := List.range (sectorCount b c.shape) }

/-! ## Presence -/

/-- A line that is present, with nothing pending (R104). -/
def line0 : LineSt := ⟨0, false, none⟩

def Team.line (t : Team) (i : Nat) : LineSt := tget line0 t.lines i
def Team.setLine (t : Team) (i : Nat) (x : LineSt) : Team := { t with lines := tset line0 t.lines i x }

/-- The lines of a range of team scratchpad. -/
def rangeLines (off n : Nat) : List Nat :=
  if n = 0 then [] else (List.range ((off + n - 1) / 128 + 1 - off / 128)).map (fun i => off / 128 + i)

/-- Entries of the copy command queue that stand: shared, and of one section's own (R134). -/
def sharedUsed (c : Core) : Nat := (c.copyq.filter (fun x => x.shared && !x.paused)).length
def ownUsed (c : Core) (tid role : Nat) : Nat :=
  (c.copyq.filter (fun x => !x.shared && !x.paused && x.tid == tid && x.role == role)).length

/-- What a touch of scratchpad lines meets (R105, R107). -/
inductive Touch where
  | ok
  /-- Absent: the state may have started a bound copy. -/
  | wait (s : State) (line : Nat)
  | cmd (addr : DWord) (cls : Nat)

/-- The lines of a region-table entry that are still bound-absent. -/
def boundLines (t : Team) (r : Region) : List Nat := (rangeLines r.soff (r.lines * 128)).filter (fun l => (t.line l).bound)

/-- The bound copy of an entry can be queued: a shared entry is free (R107). -/
def canBind (s : State) (t : Team) (r : Region) : Bool :=
  decide (sharedUsed (s.coreAt t.die t.core) < Config.sharedCopyEntries) && (boundLines t r).all (fun l => decide ((t.line l).count < 3))

/-- The first touch of an entry queues its bound copy (R107), when a shared entry is free; no section's counter counts it. The engine starts
it in the order of its queue (R134). -/
def startBound (s : State) (t : Team) (i : Nat) (r : Region) : State :=
  let bound := boundLines t r
  if !canBind s t r then s
  else
    let b : Nat := r.src.toNat + r.soff * 2 ^ 64 + r.lines * 128 * 2 ^ 96
    let c : Copy := { id := s.nextOp, tid := t.tid, role := 0, form := 3, cls := 0, block := BitVec.ofNat 256 b, shared := true
                      started := false, begun := false, paused := false, left := List.range (r.lines * 4), ltid := t.tid, lines := bound, taken := [], pc := 0, nth := 0, inCmp := []
                      srec := [], gmode := 0, region := some i, ordinal := 0, data := [] }
    let s := s.modTeam t.tid (fun t => bound.foldl (fun t l => t.setLine l { t.line l with bound := false, count := (t.line l).count + 1 }) t)
    let s := s.modCore t.die t.core (fun k => { k with
      copyq := k.copyq ++ [c]
      regions := k.regions.map (fun e => if e.1 = i then (e.1, { e.2 with fired := true }) else e) })
    { s with nextOp := s.nextOp + 1 }

/-- The region-table entry of a team that binds a line. -/
def State.regionOf (s : State) (t : Team) (line : Nat) : Option (Nat × Region) :=
  (s.coreAt t.die t.core).regions.find? (fun e => e.2.v && e.2.tid == t.tid && decide (e.2.soff / 128 ≤ line ∧ line < e.2.soff / 128 + e.2.lines))

/-- Touching lines of a team's scratchpad: present, or waiting, or CMD where a dropped or stopped copy left the line absent
(R105, R107, R135, R396). -/
def touch (s : State) (tid : Nat) (lines : List Nat) : Touch :=
  match s.team? tid with
  | none => .ok
  | some t =>
    match lines.find? (fun l => t.line l ≠ line0) with
    | none => .ok
    | some l =>
      let x := t.line l
      if x.bound then
        match s.regionOf t l with
        | some (i, r) => .wait (startBound s t i r) l
        | none => .wait s l
      else if x.count = 0 then
        match x.poison with
        | some p => .cmd p.1 p.2
        | none => .ok
      else .wait s l

/-- A waiting touch of a line may go on or try again: the line is present, or its bound copy can be queued now (R105, R107). -/
def lineOpen (s : State) (t : Team) (l : Nat) : Bool :=
  let x := t.line l
  if x.bound then (match s.regionOf t l with
    | some (_, r) => canBind s t r
    | none => true)
  else decide (x.count = 0)

/-- A line that a copy's engine has to wait for: absent, other than through the copy itself (R105, R332). -/
def Copy.waitsOn (c : Copy) (u : Team) (l : Nat) : Bool :=
  (u.line l).bound || decide ((if c.ltid = u.tid ∧ c.lines.contains l = true then 1 else 0) < (u.line l).count)

/-- What a copy's engine meets at lines of a team's scratchpad that it reads (R105, R107, R396). -/
def copyTouch (s : State) (c : Copy) (tid : Nat) (lines : List Nat) : Touch :=
  match s.team? tid with
  | none => .ok
  | some t =>
    match lines.find? (fun l => c.waitsOn t l || (t.line l).poison.isSome) with
    | none => .ok
    | some l => match (t.line l).bound, s.regionOf t l with
      | true, some (i, r) => .wait (startBound s t i r) l
      | _, _ => match c.waitsOn t l, (t.line l).poison with
        | false, some p => .cmd p.1 p.2
        | _, _ => .wait s l

/-- The bytes of a team's scratchpad that lie within it. -/
def Team.inScratch (t : Team) (off n : Nat) : Bool := decide (off + n ≤ t.scratchSize)

end Sys2Proof.Machine
end

