-- ==== Sys2Proof/Machine/Access.lean ====
section
/-!
DEFINITION. One instruction's access to memory, lane by lane: addresses (R201), window, alignment and permission (R96, R154),
watchpoints (R91), presence (R105), the side log (R156, R157), the page home (R154), the host link (R259, R263), and what then
performs (R257, R262).
-/

namespace Sys2Proof.Machine

/-! ## Counted operations -/

/-- The value of a section's counter of a class (R181). -/
def counter (c : Section) (cls : Nat) : Nat := (c.outs.filter (fun o => o.cls == cls)).length

/-- Completed operations leave in issue order, class by class (R181). -/
def pruneOuts : List Nat → List OutOp → List OutOp
  | _, [] => []
  | b, o :: r => if o.done && !b.contains o.cls then pruneOuts b r else o :: pruneOuts (if o.done then b else o.cls :: b) r

/-- An operation is marked complete. -/
def outMark (id : Nat) (c : Section) : Section := { c with outs := c.outs.map (fun o => if o.op = id then { o with done := true } else o) }

/-- An operation has completed (R181). -/
def outDone (id : Nat) (c : Section) : Section := { outMark id c with outs := pruneOuts [] (outMark id c).outs }

/-- A counted operation of a section has completed (R181); while the team is away, the counters wait for its restore (R197). -/
def State.opDone (s : State) (tid role id : Nat) : State :=
  match s.team? tid with
  | some t => s.modSec tid role (if t.bank = .active then outDone id else outMark id)
  | none => s

/-- A counted operation is issued (R180). -/
def outAdd (cls id : Nat) (c : Section) : Section := { c with outs := c.outs ++ [⟨cls, id, false⟩] }

/-- Performance counters of a core gain events of a kind while their context is resident (R196). -/
def State.pmAdd (s : State) (d c ev n : Nat) : State :=
  let x := s.coreAt d c
  if n = 0 ∨ x.pmsel.all (fun e => e.2.toNat != ev) ∨ x.ctx ≠ some x.pmctx.toNat then s
  else s.modCore d c (fun x => { x with pmc := tsets 0 x.pmc ((List.range 8).filterMap (fun i =>
    if (tget 0 x.pmsel i).toNat = ev then
      let v := (tget 0 x.pmc i).toNat + n
      some (i, BitVec.ofNat 48 (if 2 ^ 48 ≤ v then 2 ^ 48 - 1 else v))
    else none)) })

/-! ## The page home -/

/-- The base of the page of an address as the tables stand, none for an unmapped one. -/
def State.pageBase (s : State) (ctx va : Nat) : Option (Leaf × Nat) :=
  (walk s.mem s.cxlBytes (s.ctxAt ctx).ptroot.toNat va).map (fun l => (l, va / 2 ^ l.lg * 2 ^ l.lg))

/-- A fault that the page home resolves is sent to it: a page to move, or a frame to ask the host driver for (R154, R160). -/
def State.askHome (s : State) (ctx va : Nat) (who : List (Nat × Nat)) : State :=
  match s.pageBase ctx va with
  | none => s
  | some (l, base) =>
    let mine (h : HomeReq) : Bool := h.ctx == ctx && h.va == BitVec.ofNat 64 base && !h.toHost && !h.failed
    if s.homes.any mine then
      { s with homes := s.homes.map (fun h => if mine h then { h with who := h.who ++ who.filter (fun x => !h.who.contains x) } else h) }
    -- an access under an old entry (R153) asks for a page that stands mapped: there is nothing to do
    else if leafV l.e && leafOWN l.e == 0 then s
    else
      let s : State := { s with homes := s.homes ++ [⟨ctx, BitVec.ofNat 64 base, false, false, who, false⟩] }
      if leafV l.e then s
      else
        let h := s.pageHome ctx base
        let f : FrameReq := { ctx := ctx, pages := [(BitVec.ofNat 64 base, l.lg)], demand := true, svc := none, perBlock := [], answer := none }
        s.modSlice h.1 h.2 (fun x => { x with frames := x.frames ++ [f] })

/-- A choice that waits asks for the page of the order log that it needs (R139, R154). -/
def State.waitTurn (s : State) (ctx : Nat) (va : Option Nat) : State :=
  match va with
  | some va => s.askHome ctx va []
  | none => s

/-- The page home has failed an access that waited under this name (R154). -/
def State.homeFailed (s : State) (ctx va tid role : Nat) : Bool :=
  match s.pageBase ctx va with
  | none => false
  | some (_, base) => s.homes.any (fun h => h.ctx == ctx && h.va == BitVec.ofNat 64 base && h.failed && h.who.contains (tid, role))

/-! ## Elements -/

/-- One active lane's element: its generic address; `bad` for a window form whose sum is out of range (R201). -/
structure Elem where
  lane : Nat
  a    : Nat
  bad  : Bool
  data : DWord
  data2 : DWord
  deriving DecidableEq, Repr

/-- The address of a lane (R201) from the base pair field, the offset selector, the element size and the immediate. -/
def Thread.mAddr (th : Thread) (l : Nat) (m : BitVec 5) (o : Sel) (e i : Nat) : Nat :=
  (((th.kpair (2 * m.toNat)).toNat : Int) + sext (th.src32 l o).toNat 32 * e + (i * e : Nat)) % (2 ^ 64 : Nat) |>.toNat

/-- The offset of a window form (R201, R256). -/
def Thread.winSum (th : Thread) (l : Nat) (m : BitVec 5) (o : Sel) (e i : Nat) : Int :=
  ((th.kreg (2 * m.toNat)).toNat : Int) + sext (th.src32 l o).toNat 32 * e + (i * e : Nat)

/-- The element of a window form: the generic address of its window over bits 31:0 of the sum. -/
def winElem (win : Nat) (l : Nat) (sum : Int) : Elem :=
  { lane := l, a := win + (sum % (2 ^ 32 : Nat)).toNat, bad := decide (sum < 0 ∨ (2 ^ 32 : Nat) ≤ sum), data := 0, data2 := 0 }

/-- Where an access stands. -/
inductive Ready where
  | spot (sp : Spot) (vas : List (Nat × Nat))
  /-- Every byte is in the section's own logged stores (R157). -/
  | val (v : Nat)
  /-- The host link has answered. -/
  | got (v : DWord)
  /-- The host must be asked. -/
  | host (sp : Spot)
  | fault (code : Nat) (addr : DWord) (aux : Word)
  /-- The page home has work to do. -/
  | held (va : Nat)
  /-- Side-logged to this page (R156). -/
  | log (page : Nat) (vas : List (Nat × Nat))
  | absent (s : State) (tid line : Nat)
  /-- Part of the element stands in the log and must replay first (R157). -/
  | logged
  /-- An older operation of the section must perform first (R17, R353, R354). -/
  | again

/-- TRAPAUX of a memory fault (R78). -/
def memAux (k : Access) (size : Nat) : Word := BitVec.ofNat 32 (k.code + size % 256 * 256)

/-- What translation says of the pieces of one element. -/
inductive Glob where
  | ok (pas : List (Nat × Nat))
  | bad (code : Nat)
  | res (va : Nat)

/-- The pieces of an element translated, the first faulting one reported (R154). -/
def State.globOf (s : State) (t : Team) (key : Nat) (k : Access) : List (Nat × Nat) → Glob
  | [] => .ok []
  | (va, n) :: r =>
    let rest := s.globOf t key k r
    match s.translate t.die t.core t.ctx k va with
    | .page => .bad cPAGE
    | .prot => .bad cPROT
    | .resolvable =>
      if s.homeFailed t.ctx va t.tid key then .bad cPAGE
      else match rest with
        | .bad c => .bad c
        | _ => .res va
    | .ok pa _ => match rest with
      | .ok l => .ok ((pa, n) :: l)
      | x => x

/-- The bytes of virtual memory a list of pieces covers. -/
def vaBytes (vas : List (Nat × Nat)) : List Nat := vas.flatMap (fun x => (List.range x.2).map (fun i => x.1 + i))

/-- The youngest logged store of a byte; `some none` where a logged step covers it (R157). -/
def logByte (log : List LogEntry) (b : Nat) : Option (Option Byte) :=
  log.foldl (fun acc e => e.op.lanes.foldl (fun acc x =>
    match (vaBytes x.vas).findIdx? (fun y => y == b) with
    | none => acc
    | some i => if e.op.kind = .store then (match acc with
        | some none => acc
        | _ => some (some (BitVec.ofNat 8 (x.data.toNat / 2 ^ (8 * i))))) else some none) acc) none

/-- What the section's log holds of an element (R157): all its bytes, none, or something that must replay. -/
inductive Logged where
  | whole (v : Nat)
  | none
  | part

def logView (log : List LogEntry) (vas : List (Nat × Nat)) : Logged :=
  let bs := (vaBytes vas).map (logByte log)
  if bs.all Option.isNone then .none
  else if bs.all (fun b => match b with
    | some (some _) => true
    | _ => false) then .whole (ofBytes (bs.map (fun b => ((b.getD none).getD 0))))
  else .part

/-- The page that an address lies in, by the number of its first 4 KiB (R156). -/
def State.pageNo (s : State) (ctx va : Nat) : Nat :=
  match s.pageBase ctx va with
  | some (_, base) => base / 4096
  | none => va / 4096

/-- A side-log entry has bytes in the page of an address, of 2^lg bytes; an entry of a private element may have some in two (R98, R156). -/
def LogEntry.on (e : LogEntry) (va lg : Nat) : Bool := e.op.lanes.any (fun x => x.vas.any (fun v => v.1 / 2 ^ lg == va / 2 ^ lg))

/-- The page of a piece has entries in the section's log (R156). -/
def State.logsPage (s : State) (ctx : Nat) (log : List LogEntry) (va : Nat) : Bool :=
  let lg := match s.pageBase ctx va with
    | some (l, _) => l.lg
    | none => 12
  log.any (fun e => e.on va lg)

/-- Two spots of one array, or of common bytes of global memory (R356, R353). -/
def Spot.near (a b : Spot) (na nb : Nat) : Bool :=
  match a, b with
  | .team t _, .team t' _ => t == t'
  | .die d _, .die d' _ => d == d'
  | _, _ => a.meets b na nb

/-- An older operation of the section, under way or in its comparator, has still to perform, and this access must follow it
(R17, R195, R352, R354, R356, R363). -/
def State.ownRemote (s : State) (k : Iss) (sp : Spot) (n : Nat) : Bool :=
  let follows (op : MemOp) : Bool := (op.kind == .store || op.atomic || !k.sec.det)
    && op.lanes.any (fun x => match x.spot with
      | some y => sp.near y n op.size
      | none => false)
  s.remote.any (fun r => r.tid == k.team.tid && r.role == k.sec.role && follows r.op) || k.sec.cmp.any (fun o => follows o.op)

/-- An operation in the section's comparator names bytes of the access whose page is still to come (R195, R352). -/
def cmpNames (c : Section) (vas : List (Nat × Nat)) : Bool :=
  c.cmp.any (fun o => o.op.lanes.any (fun x => x.spot.isNone && x.vas.any (fun a => vas.any (fun b => decide (a.1 < b.1 + b.2 ∧ b.1 < a.1 + a.2)))))

/-- An ejected lane that has not rejoined issued an operation (R329): `own` is the one that asks. -/
def State.unjoined (s : State) (t : Team) (own who : Option Nat) : Bool :=
  who != own && who.any (fun id => (s.coreAt t.die t.core).lantern.any (fun r => r.id == id) || t.recs.any (fun r => r.id == id))

/-- A section's operations with numbers below `n` have performed at a scope, as a fence or a release waits for it (R266, R329, R158):
section 0 to system 5. Those of ejected lanes count once the lanes have rejoined. From gang scope on, the other sections' stores that the
section may have read in the core count too (R357), and a dual-run section's operations that stand in its other copy's log (R362). -/
def State.olderPerformed (s : State) (t : Team) (c : Section) (own : Option Nat) (n scope : Nat) : Bool :=
  let away (who : Option Nat) : Bool := s.unjoined t own who
  let twin := (t.twin.bind (fun u => s.sec? u c.role)).map Section.log
  c.log.all (fun e => decide (n ≤ e.id)) && (twin.getD []).isEmpty && c.cmp.all (fun o => decide (n ≤ o.id))
    && (scope = 0 || !s.remote.any (fun r => r.tid == t.tid && r.role == c.role && decide (r.id < n) && !away r.who))
    && (scope < 2 || !(s.coreAt t.die t.core).storeBuf.any (fun e => decide (e.id < n) && !(e.tid == t.tid && e.role == c.role && away e.who)))

/-- The other copy of a team of a dual-run gang has its own scratchpad: a write to one is made to both (R195, log entry 108). -/
def Spot.twin (s : State) (sp : Spot) : Option Spot :=
  match sp with
  | .team tid off => ((s.team? tid).bind Team.twin).map (fun u => .team u off)
  | _ => none

/-- Cached copies of a spot's lines leave the cores of both copies of a team. -/
def dropBoth (s : State) (t : Team) (sp : Spot) : State :=
  let drop (s : State) (t : Team) : State := sp.linesOf.foldl (fun s l => s.dropLine t.die t.core l) s
  match t.twin.bind s.team? with
  | some u => drop (drop s t) u
  | none => drop s t

/-- An address as the comparator sees it: an own scratchpad's, through window 0xFC, by its offset, since the two copies run on different
cores (R195, log entry 108). -/
def dmrAddr (a : DWord) : Nat := if addrClass a.toNat = 3 then 0xFC * 2 ^ 56 + a.toNat % 2 ^ 32 else a.toNat

/-- A mismatch ends the context with code DMR (R9, R195): the record of kind 0x30 has the address and both values. -/
def dmrEnd (s : State) (t : Team) (role : Nat) (detail : List Byte) : State :=
  endContext s t.ctx cDMR 0 { recBy 0x30 t role with detail := detail }

/-- A spot lies in lines that a fence.rp has promoted for some section (R359). -/
def State.promoted (s : State) (ls : List Nat) : Bool := s.teams.any (fun t => t.secs.any (fun c => c.promo.any ls.contains))

/-- A buffered store of the core to bytes of the spot (R353). -/
def Core.holds (c : Core) (sp : Spot) : Bool :=
  match sp with
  | .phys pas => c.storeBuf.any (fun e => (physBytes pas).any (fun p => e.bytes.any (fun x => x.1 == p)))
  | _ => false

/-- An outbound copy of the section has a source line still to read (R105), as its record stands (R168). -/
def State.copyReads (s : State) (k : Iss) (off n : Nat) : Bool :=
  let hit (c : Copy) : Bool := c.tid == k.team.tid && c.role == k.sec.role && c.form == 0 && (Block.of c.block).op == 1
    && (c.asRead k.team.scratch).left.any (fun i => (rangeLines off n).contains (sectorLine (Block.of c.block) i))
  (s.coreAt k.team.die k.team.core).copyq.any hit || k.team.copies.any hit

/-- A sector of an outbound copy of the section that has not performed lies on the bytes (R331). -/
def State.copyWrites (s : State) (k : Iss) (a n : Nat) : Bool :=
  let hit (c : Copy) : Bool := c.tid == k.team.tid && c.role == k.sec.role && c.form == 0 && (Block.of c.block).op == 1
    && (c.asRead k.team.scratch).left.any (fun i =>
      ((c.asRead k.team.scratch).pieces i).any (fun p => match p.addr with
        | some x => decide (a < x + p.n ∧ x < a + n)
        | none => false))
  (s.coreAt k.team.die k.team.core).copyq.any hit || k.team.copies.any hit

/-- The host request of this issuer. -/
def Iss.host? (k : Iss) : Option HostReq :=
  match k.sec.hostReq with
  | none => none
  | some h => if h.who = (k.rec?.map (fun r => r.2.2.id)) then some h else none

/-- A watchpoint that an access of virtual pieces matches: index and ACT (R91). Which of two matching ones counts is the model's
choice: the lowest index, whatever its ACT (log entry 97). -/
def State.watch? (s : State) (ctx : Nat) (k : Access) (vas : List (Nat × Nat)) : Option (Nat × Bool) :=
  ((List.range 4).filterMap (fun i =>
    let w := (tget 0 (s.ctxAt ctx).wpt i).toNat
    let base := bits w 0 49
    let size := 2 ^ bits w 55 5
    let kind := match k with
      | .load => bits w 62 1 == 1
      | .store => bits w 61 1 == 1
      | .atomic => bits w 62 1 == 1 || bits w 61 1 == 1
      | .red => bits w 62 1 == 1 || bits w 61 1 == 1
      | .fetch => false
    if bits w 63 1 = 1 ∧ kind = true ∧ vas.any (fun x => decide (x.1 < base + size ∧ base < x.1 + x.2)) = true
    then some (i, bits w 60 1 == 1) else none)).head?

/-- SPACE, ALIGN and die-scratchpad PROT in the order of R96; the place otherwise. -/
def State.checkPlace (s : State) (k : Iss) (acc : Access) (size : Nat) (e : Elem) : Except Nat Place :=
  if e.bad || s.spaceFault k.team e.a size then .error cSPACE
  else if e.a % size ≠ 0 then .error cALIGN
  else match s.placeOf k.team k.sec e.lane e.a size with
    | .die d off => if s.dieProt k.team.ctx d off size acc then .error cPROT else .ok (.die d off)
    | p => .ok p

/-- What kind of instruction asks. -/
inductive Form where
  | load
  | store
  /-- ATOM without return. -/
  | post
  /-- RED and LUPD. -/
  | red
  /-- ATOM with return. -/
  | atom
  deriving DecidableEq

def Form.isLoad : Form → Bool
  | .load => true
  | _ => false

def Form.isAtom : Form → Bool
  | .atom => true
  | _ => false

/-- A form whose lanes read what is in memory (R257, R261). -/
def Form.reads (f : Form) : Bool := f.isLoad || f.isAtom

/-- A form that the side log takes (R154). -/
def Form.logs : Form → Bool
  | .store | .post | .red => true
  | _ => false

/-- A form whose steps read and write at one place (R261, R264, R323). -/
def Form.steps : Form → Bool
  | .atom | .post | .red => true
  | _ => false

def Form.access : Form → Access
  | .load => .load
  | .store => .store
  | .red => .red
  | _ => .atomic

/-- A step that a pinned host page takes otherwise than other pages: a system-scope one, which an AtomicOp may carry (R263), or
LUPD, which none carries (R323); none for any other. -/
def State.sysWay (s : State) (op : MemOp) : Option Bool :=
  if op.kind = .lupd then some false
  else if op.scope = 5 then
    some (s.aopen && (op.size == 4 || op.size == 8) && (op.kind == .xchg || op.kind == .cas || (op.kind == .add && tyInt op.ty)))
  else none

/-- A host request is needed: a load no copy serves, or a system-scope step on a pinned page (R119, R263). -/
def State.asksHost (s : State) (k : Iss) (f : Form) (sys : Option Bool) (pas : List (Nat × Nat)) : Bool :=
  pas.any (fun (x : Nat × Nat) => isHost x.1) && (match f with
    | .load => pas.any (fun (x : Nat × Nat) => ((s.coreAt k.team.die k.team.core).line? (x.1 / 128 * 128)).isNone
        && (s.homeLine? (x.1 / 128 * 128)).isNone)
    | .store => false
    | _ => sys.isSome)

/-- The side log that an issuer's accesses meet: its section's, or for the second copy of a dual-run team the primary's (R195, R362). -/
def State.logOf (s : State) (k : Iss) : List LogEntry :=
  if k.team.primary then k.sec.log
  else match (k.team.twin.bind (fun u => s.sec? u k.sec.role)) with
    | some c => c.log
    | none => k.sec.log

/-- Where one element of an instruction stands, the host link's answers aside. -/
def State.readyAt (s : State) (k : Iss) (f : Form) (sys : Option Bool) (size : Nat) (e : Elem) : Ready :=
  let acc := f.access
  let bad (c : Nat) : Ready := .fault c (BitVec.ofNat 64 e.a) (memAux acc size)
  match s.checkPlace k acc size e with
  | .error c => bad c
  | .ok (.die d off) =>
    if s.ownRemote k (.die d off) size || (!f.isLoad && s.copyWrites k e.a size) then .again else .spot (.die d off) []
  | .ok (.team tid off) =>
    if tid == k.team.tid && k.sec.taps.any (fun x => decide (off ≤ x.1 ∧ x.1 < off + size)) then .again
    else if (!f.logs || (f == .store && addrClass e.a == 3)) && s.ownRemote k (.team tid off) size then .again
    else if !f.isLoad && tid == k.team.tid && s.copyReads k off size then .again
    else if (s.team? tid).any (fun t => t.bank != .active) then .again
    else match touch s tid (rangeLines off size) with
      | .ok => .spot (.team tid off) []
      | .wait s' l => .absent s' tid l
      | .cmd a c => .fault cCMD a (BitVec.ofNat 32 c)
  | .ok (.glob vas) =>
    if f.reads && cmpNames k.sec vas then .again
    else match (if f.isLoad then logView (s.logOf k) vas else .none) with
    | .whole v => .val v
    | .part => .logged
    | .none =>
      match s.globOf k.team k.homeKey acc vas with
      | .bad c => bad c
      | .res va =>
        if !f.isLoad && vas.any (fun x => s.copyWrites k x.1 x.2) then .again
        else if f.logs then .log (s.pageNo k.team.ctx va) vas else .held va
      | .ok pas =>
        let sp : Spot := .phys pas
        if !f.isLoad && vas.any (fun x => s.copyWrites k x.1 x.2) then .again
        else if f.logs then
          match vas.find? (fun x => s.logsPage k.team.ctx (s.logOf k) x.1) with
          | some x => .log (s.pageNo k.team.ctx x.1) vas
          | none => if f.steps && s.asksHost k f sys pas then (if sys = some false then bad cSYS_UR else .host sp) else .spot sp vas
        else if s.ownRemote k sp size then .again
        else if f.isAtom && s.promoted sp.linesOf && !s.olderPerformed k.team k.sec (k.rec?.map (fun r => r.2.2.id)) k.sec.lastRel 2 then .again
        else if (f.isAtom || s.asksHost k f sys pas) && (s.coreAt k.team.die k.team.core).holds sp then .again
        else if f.isAtom && vas.any (fun x => s.logsPage k.team.ctx (s.logOf k) x.1) then .logged
        else if s.asksHost k f sys pas then (if sys = some false then bad cSYS_UR else .host sp)
        else .spot sp vas

/-- A read of bytes meets an uncorrected error (R78, R94). -/
def State.eccAt (s : State) (sp : Spot) (n : Nat) : Bool := s.failed.any (fun f => f.meets sp 1 n)

/-- ECC of an element that an instruction reads for its lane, with the element's address (R259, R78). -/
def State.eccOf (s : State) (reads : Bool) (size : Nat) (e : Elem) (r : Ready) : Ready :=
  match r with
  | .spot sp vas => if reads && s.eccAt sp size then .fault cECC (BitVec.ofNat 64 e.a) 0 else .spot sp vas
  | r => r

/-- Where one element of an instruction stands. -/
def State.ready (s : State) (k : Iss) (f : Form) (sys : Option Bool) (size : Nat) (e : Elem) : Ready :=
  let answered : Option Ready := match k.host? with
    | some h => match h.bad.find? (fun x => x.1 == e.lane) with
      | some x => some (.fault x.2.toNat (BitVec.ofNat 64 e.a) (memAux f.access size))
      | none => (h.got.find? (fun x => x.1 == e.lane)).map (fun x => Ready.got x.2)
    | none => none
  answered.getD (s.readyAt k f sys size e)

/-- The virtual pieces of an element that passed its checks. -/
def State.vasOf (s : State) (k : Iss) (acc : Access) (size : Nat) (e : Elem) : List (Nat × Nat) :=
  match s.checkPlace k acc size e with
  | .ok (.glob vas) => vas
  | _ => []

/-- All elements, with WATCH after the checks of translation, whatever its ACT (R91), and ECC for those that are read (R259). -/
def State.readyAll (s : State) (k : Iss) (f : Form) (sys : Option Bool) (size : Nat) (es : List Elem) : List (Elem × Ready) :=
  es.map (fun e =>
    let r := s.ready k f sys size e
    match r with
    | .fault .. | .got _ => (e, r)
    | _ => match s.watch? k.team.ctx f.access (s.vasOf k f.access size e) with
      | some (i, _) => (e, .fault cWATCH (BitVec.ofNat 64 e.a) (BitVec.ofNat 32 (i + 256 * b2n (!f.isLoad))))
      | none => (e, s.eccOf f.reads size e r))

/-- A record of a debug event (R143). -/
def debugRec (t : Team) (role code : Nat) (addr : DWord) : Rec :=
  { recBy 0x40 t role with code := code, addr := addr.toNat }

/-- A section is held with a recorded cause, before its instruction, and the host is told (R90, R91, R92); a step that was to end
here, or another hold, is met by it. -/
def holdWith (s : State) (t : Team) (role : Nat) (x : Trap) : State :=
  let s := s.modSec t.tid role (fun c =>
    { recordTrap { c with th := c.th.killLatches } c.th.pc x with
      state := .held, prev := c.state, stepping := false, stepDone := false, holdDue := false, granted := [] })
  s.post (debugRec t role x.code x.addr)

/-- A WATCH in the trap record belongs to a watchpoint with ACT 1 (R91). -/
def watchHolds (k : Iss) (s : State) (x : Trap) : Bool :=
  x.code == cWATCH && bits (tget 0 (s.ctxAt k.team.ctx).wpt (x.aux.toNat % 4)).toNat 60 1 == 1

/-- A fault of an access (R77): a trap, or for WATCH with ACT 1 a hold, from which the lanes that did not complete execute the
instruction again (R91); an ejected lane is recalled first (R26). -/
def raiseAccess (k : Iss) (s : State) (x : Trap) : State :=
  if !watchHolds k s x then raise k s x
  else if !mayTrap k s then s
  else match k.rec? with
    | some _ => holdWith (recallQuiet k s) k.team k.sec.role { x with lanes := k.path }
    | none =>
      holdWith (modOwn k s (fun c => { c with retry := if x.lanes = c.th.path then none else some x.lanes })) k.team k.sec.role x

/-- What the faulting elements raise: every lane of them, described by the lowest (R77, R78). -/
def trapOf (rs : List (Elem × Ready)) : Option Trap :=
  rs.foldl (fun acc x => match x.2 with
    | .fault c a w => match acc with
      | none => some (x.1.lane, (⟨c, BitVec.twoPow 1024 x.1.lane, a, w⟩ : Trap))
      | some (l, t) =>
        let m := t.lanes ||| BitVec.twoPow 1024 x.1.lane
        if x.1.lane < l then some (x.1.lane, ⟨c, m, a, w⟩) else some (l, { t with lanes := m })
    | _ => acc) (none : Option (Nat × Trap)) |>.map Prod.snd

/-- An element that waits. -/
def Ready.waits (r : Ready) : Bool :=
  match r with
  | .again | .absent .. | .held _ | .logged | .host _ => true
  | _ => false

/-- The elements of the passes that nothing holds back: no element of their group waits (R17, R105, R155). -/
def freePasses (rs : List (Elem × Ready)) : List (Elem × Ready) :=
  rs.filter (fun x => !rs.any (fun y => decide (y.1.lane / 32 = x.1.lane / 32) && y.2.waits))

/-- Lanes of an instruction that have been served stay served while the instruction stands issued. -/
def serve (k : Iss) (s : State) (op : MemOp) (isLoad : Bool) (part : Option Nat) (vs : List (Nat × DWord)) : State :=
  let h : HostReq := { who := k.rec?.map (fun r => r.2.2.id), op := { op with lanes := [] }, dest := none, isLoad := isLoad
                       got := (k.host?.map HostReq.got).getD [] ++ vs, bad := (k.host?.map HostReq.bad).getD [], part := part, since := s.nextOp }
  modOwn k s (fun c => { c with hostReq := some h })

/-- Operations of a section that wait in the comparator, outbound copy sectors with them (R195). -/
def State.cmpUsed (s : State) (t : Team) (c : Section) : Nat :=
  c.cmp.length + (((s.coreAt t.die t.core).copyq.filter (fun x => x.tid == t.tid && x.role == c.role)).map (fun x => x.inCmp.length)).sum

/-- Nothing of a counted operation remains under way. -/
def State.partsGone (s : State) (tid role id : Nat) : Bool :=
  s.remote.all (fun r => r.id != id)
    && (match s.sec? tid role with
      | some c => c.log.all (fun e => e.id != id) && c.cmp.all (fun o => o.counted != some id) && c.hostReq.all (fun h => h.part != some id)
      | none => true)
    && s.orphans.all (fun o => o.entry.id != id)

/-- A part of a counted operation has performed (R179, R181). -/
def State.partDone (s : State) (tid role id : Nat) : State :=
  if s.partsGone tid role id then s.opDone tid role id else s

/-- Before an AtomicOp leaves, every copy of its lines is written back and dropped (R263). -/
def State.clearLines (s : State) (ls : List Nat) : State := ls.foldl (fun s line => ((s.writeBack line).dropSlice line).dropLineAll line) s

/-- A step at the host takes a place on the counter of its class (R179, R180): its number, and the state; none while the counter is full. -/
def hostCounted (k : Iss) (s : State) (f : Form) : Option (Option Nat × State) :=
  let part := k.host?.bind HostReq.part
  if !(f.steps && f.logs) || part.isSome then some (part, s)
  else if counter k.sec 3 = 63 then none
  else some (some s.nextOp, modOwn k { s with nextOp := s.nextOp + 1 } (outAdd 3 s.nextOp))

/-- What the elements wait for, and the state in which the instruction waits: none when every element can complete or faults.
`more` are elements that fault without an access. -/
def waitsFor (k : Iss) (s : State) (op : MemOp) (f : Form) (rs more : List (Elem × Ready)) : Option State :=
  let hosts := rs.filterMap (fun x => match x.2 with
    | .host sp => some (x.1, sp)
    | _ => none)
  if rs.any (fun x => match x.2 with
    | .again => true
    | _ => false) || ((trapOf (rs ++ more)).isSome && !mayTrap k s) then some s
  else match rs.findSome? (fun x => match x.2 with
    | .absent s' tid l => some (s', tid, l)
    | _ => none) with
  | some (s', tid, l) => some (waitOn k s' .absent (.line tid l))
  | none =>
    let vas := rs.filterMap (fun x => match x.2 with
      | .held va => some va
      | _ => none)
    if !vas.isEmpty then some (waitOn k (vas.foldl (fun s va => s.askHome k.team.ctx va [(k.team.tid, k.homeKey)]) s) .heldLoad .again)
    else if rs.any (fun x => match x.2 with
      | .logged => true
      | _ => false) then some (waitOn k s .heldLoad .again)
    else if hosts.isEmpty then none
    else match (match k.host? with
        | some h => if h.op.lanes.isEmpty then none else k.sec.hostReq
        | none => k.sec.hostReq) with
      | some _ => some (waitOn k s .heldLoad .event)
      | none => match hostCounted k s f with
      | none => some (waitOn k s .copyEntry (.counter 3 62))
      | some (part, s) =>
        let lanes := hosts.map (fun x => { lane := x.1.lane, addr := BitVec.ofNat 64 x.1.a, vas := s.vasOf k .atomic op.size x.1, spot := some x.2, data := x.1.data, data2 := x.1.data2 : LaneOp })
        let h : HostReq := { who := k.rec?.map (fun r => r.2.2.id), op := { op with lanes := lanes }, dest := none, isLoad := f.isLoad
                             got := (k.host?.map HostReq.got).getD [], bad := (k.host?.map HostReq.bad).getD [], part := part, since := s.nextOp }
        if k.sec.dmr && !f.isLoad then
          -- the request leaves once both copies of the team have made it (R195)
          if k.sec.cmp.any (fun c => c.dest.isSome) || 64 ≤ s.cmpUsed k.team k.sec then some (waitOn k s .heldLoad .event)
          else some (waitOn k (modOwn k s (fun c => { c with
            cmp := c.cmp ++ [{ id := s.nextOp, who := h.who, pc := k.th.pc, op := h.op, dest := some 0, counted := part }] })) .heldLoad .event)
        else
        let s := if f.isLoad then s else s.clearLines (hosts.flatMap (fun x => x.2.linesOf))
        some (waitOn k (modOwn k s (fun c => { c with hostReq := some h })) .heldLoad .event)

/-- The instruction's host request is over. -/
def hostOver (k : Iss) (s : State) : State :=
  match k.host? with
  | some _ => modOwn k s (fun c => { c with hostReq := none })
  | none => s

/-- The end of an access: it retires, or the lanes that did not complete trap (R77). -/
def accessEnd (k : Iss) (s : State) (th : Thread) (rs : List (Elem × Ready)) : State :=
  let s := hostOver k (s.homesServed k.team.tid k.homeKey)
  match trapOf rs with
  | none => retireWith k s th.advance
  | some x => raiseAccess k (putTh k s th) x

/-- An instruction reads lines of its team's scratchpad as a whole, for the lanes of a mask: it waits for an absent line, takes CMD
for one that a stopped copy left absent, and lets older steps of its section perform (R105, R135, R17). -/
def whenPresent (k : Iss) (s : State) (m : Mask) (lines : List Nat) (go : Unit → State) : State :=
  if s.ownRemote k (.team k.team.tid 0) 1 then s
  else match touch s k.team.tid lines with
    | .wait s' l => waitOn k s' .absent (.line k.team.tid l)
    | .cmd ad c => raise k s ⟨cCMD, m, ad, BitVec.ofNat 32 c⟩
    | .ok => go ()

/-- The first byte of some ranges of a team's scratchpad that holds an uncorrected error. -/
def State.failedIn (s : State) (tid : Nat) (rs : List (Nat × Nat)) : Option Nat :=
  if s.failed.isEmpty then none
  else rs.findSome? (fun r => ((List.range r.2).find? (fun i => s.eccAt (.team tid (r.1 + i)) 1)).map (fun i => r.1 + i))

/-- An instruction reads ranges of its team's scratchpad for the lanes of a mask: an uncorrected error there is ECC on all of them,
with the address of the failed byte (R78, R293). -/
def unlessFailed (k : Iss) (s : State) (m : Mask) (rs : List (Nat × Nat)) (go : Unit → State) : State :=
  match s.failedIn k.team.tid rs with
  | some o => raise k s ⟨cECC, m, coreAddr k.team o, 0⟩
  | none => go ()

/-- An instruction reads ranges of its team's scratchpad as a whole: their lines present, their data good. -/
def whenRead (k : Iss) (s : State) (m : Mask) (rs : List (Nat × Nat)) (go : Unit → State) : State :=
  whenPresent k s m (rs.flatMap (fun r => rangeLines r.1 r.2)) (fun _ => unlessFailed k s m rs go)

/-- Nothing stands in the way of such a reading. -/
def State.readsNow (s : State) (k : Iss) (rs : List (Nat × Nat)) : Bool :=
  !s.ownRemote k (.team k.team.tid 0) 1 && (s.failedIn k.team.tid rs).isNone
    && (match touch s k.team.tid (rs.flatMap (fun r => rangeLines r.1 r.2)) with
      | .ok => true
      | _ => false)

/-- An instruction reads a record in its team's scratchpad before it acts: a fault of BUDGET, UNIFORM or LATCH comes before whatever the
reading meets (R59, R206); `go` holds what follows from the record, an ill-formed one first. -/
def whenRecord (k : Iss) (s : State) (m : Mask) (reg : Option Trap) (rs : List (Nat × Nat)) (go : Unit → State) : State :=
  if s.readsNow k rs then go ()
  else match reg with
    | some x => raise k s x
    | none => whenRead k s m rs go

/-! ## Loads -/

/-- The value of a load element, and the state with the lines it took into the core's data cache. -/
def State.loadAt (s : State) (k : Iss) (size : Nat) (r : Ready) : Nat × State :=
  match r with
  | .val v => (v, s)
  | .got v => (v.toNat % 2 ^ (8 * size), s)
  | .spot (.phys pas) _ =>
    let step (acc : List Byte × State) (x : Nat × Nat) : List Byte × State :=
      match acc.2.coreRead? k.team.die k.team.core x.1 x.2 with
      | some (bs, s') => (acc.1 ++ bs, s')
      | none => (acc.1 ++ acc.2.physRead x.1 x.2, acc.2)
    let r := pas.foldl step ([], s)
    (ofBytes r.1, r.2)
  | .spot sp _ => (ofBytes (s.spotRead sp size), s)
  | _ => (0, s)

/-- A read of a promoted line is the section's next access to it (R359). -/
def State.unpromote (s : State) (k : Iss) (rs : List (Elem × Ready)) : State :=
  let lines := rs.flatMap (fun x => match x.2 with
    | .spot sp _ => sp.linesOf
    | _ => [])
  if k.sec.promo.all (fun l => !lines.contains l) then s
  else modOwn k s (fun c => { c with promo := c.promo.filter (fun l => !lines.contains l) })

/-- Lanes of the elements that complete. -/
def okLanes (rs : List (Elem × Ready)) : List Nat :=
  rs.filterMap (fun x => match x.2 with
    | .fault .. => none
    | _ => some x.1.lane)

/-- The loaded values, by lane. -/
def State.loadAll (s : State) (k : Iss) (size : Nat) (rs : List (Elem × Ready)) : List (Nat × Nat) × State :=
  rs.foldl (fun acc x => match x.2 with
    | .fault .. => acc
    | r =>
      let v := acc.2.loadAt k size r
      (acc.1 ++ [(x.1.lane, v.1)], v.2)) ([], s)

/-- A value by lane. -/
def laneVal (vs : List (Nat × Nat)) (l : Nat) : Nat := ((vs.find? (fun x => x.1 == l)).map Prod.snd).getD 0

/-- The write-back of an instruction some of whose lanes may not complete: a uniform destination is written only when the
lowest active lane completed (R61, R77). The latches move in the groups all of whose lanes did; those of the other groups move
when RESUME executes the instruction for them (R66, R80). -/
def putSome (k : Iss) (n w : Bool) (d : Sel) (oks : List Nat) (f : Nat → DWord) : Thread :=
  let m := maskOf oks
  if m = k.act then k.th.putResult n w k.path k.act d f
  else
    let failed := groupsOf (k.act &&& ~~~m) k.th.groups
    let whole := failed.foldl (fun p g => p &&& ~~~(groupMask g)) k.path
    let miss := isUni d && k.th.lowest k.act != k.th.lowest m
    (if miss then k.th else k.th.writeBack n w m d f).latchPass (n || miss) w whole m d f

/-- A load instruction (R257, R259): the passes that nothing holds back read first. `ext` makes the register bits of a lane's element. -/
def loadForm (k : Iss) (s : State) (n w : Bool) (d : Sel) (ty : BitVec 5) (size : Nat) (es : List Elem) (zero : List Nat)
    (ext : Nat → Nat → DWord) (shape : List (Elem × Ready)) : State :=
  let op : MemOp := { kind := .store, ty := ty, size := size, scope := 0, rd := 0, lanes := [], atomic := false }
  let rs := s.readyAll k .load none size es
  match waitsFor k s op .load rs shape with
  | some s' =>
    let first := (freePasses rs).filter (fun x => match x.2 with
      | .spot _ _ | .val _ => true
      | _ => false)
    if first.isEmpty || k.rec?.isSome then s'
    else
      let v := s.loadAll k size first
      serve k v.2 op true none (v.1.map (fun x => (x.1, BitVec.ofNat 64 x.2)))
  | none =>
    let v := s.loadAll k size rs
    let th := putSome k n w d (k.th.lanes (maskOf (okLanes rs ++ zero))) (fun l => if zero.contains l then 0 else ext l (laneVal v.1 l))
    accessEnd k (v.2.unpromote k rs) th (rs ++ shape)

/-! ## Stores and steps that return nothing -/

/-- Entries of one instruction for the side log, one for each group and page, in order (R156). -/
def logEntries (seq id : Nat) (op : MemOp) (ls : List (Nat × LaneOp)) : List LogEntry :=
  let keys := ls.foldl (fun acc x => if acc.contains (x.2.lane / 32, x.1) then acc else acc ++ [(x.2.lane / 32, x.1)]) ([] : List (Nat × Nat))
  keys.mapIdx (fun i key => { seq := (seq + i) % 65536, page := key.2, id := id
                              op := { op with lanes := (ls.filter (fun x => (x.2.lane / 32, x.1) == key)).map Prod.snd } : LogEntry })

/-- The lane operations of the elements of one kind. -/
def laneOps (rs : List (Elem × Ready)) : List (Ready × LaneOp) :=
  rs.map (fun x => (x.2, { lane := x.1.lane, addr := BitVec.ofNat 64 x.1.a
                           vas := (match x.2 with
                            | .spot _ vas => vas
                            | .log _ vas => vas
                            | _ => [])
                           spot := (match x.2 with
                            | .spot sp _ => some sp
                            | .host sp => some sp
                            | _ => none)
                           data := x.1.data, data2 := x.1.data2 }))

/-- The lanes that wait in the comparator of their section instead of performing (R195). -/
def dmrOps (rs : List (Elem × Ready)) : List LaneOp :=
  (laneOps rs).filterMap (fun x => match x.1 with
    | .spot _ _ | .log _ _ => some x.2
    | _ => none)

/-- A resolved element of a store performs, or enters the core's buffer or the remote list (R258, R262, R355, R356). -/
def State.storeLane (s : State) (k : Iss) (op : MemOp) (x : LaneOp) : State :=
  match x.spot with
  | some (.phys pas) =>
    let b : BufStore := { id := s.nextOp, tid := k.team.tid, role := k.sec.role, who := k.rec?.map (fun r => r.2.2.id), rel := k.sec.lastRel
                          bytes := (physBytes pas).zip (toBytes op.size x.data.toNat) }
    { (s.modCore k.team.die k.team.core (fun c => { c with storeBuf := c.storeBuf ++ [b] })) with nextOp := s.nextOp + 1 }
  | some sp => s.spotWrite k.team.ctx sp (toBytes op.size x.data.toNat)
  | none => s

/-- The entries of the passes that a log with so many entries still takes, all the passes of a group or none (R156). -/
def logFits (used : Nat) (seq id : Nat) (op : MemOp) (ls : List (Nat × LaneOp)) : List (Nat × LaneOp) :=
  let gs := (ls.map (fun x => x.2.lane / 32)).eraseDups
  gs.foldl (fun acc g =>
    let more := acc ++ ls.filter (fun x => x.2.lane / 32 == g)
    if used + (logEntries seq id op more).length ≤ 64 && acc.length == (ls.takeWhile (fun x => x.2.lane / 32 != g)).length then more else acc) []

/-- Lanes enter the side log, and their pages are asked for (R154, R156). -/
def State.sideLog (s : State) (k : Iss) (id : Nat) (op : MemOp) (ls : List (Nat × LaneOp)) : State :=
  let entries := logEntries k.sec.logSeq id op ls
  if entries.isEmpty then s
  else ls.foldl (fun s x => s.askHome k.team.ctx (x.1 * 4096) []) (modOwn k s (fun c => { c with
    log := c.log ++ entries, logSeq := (c.logSeq + entries.length) % 65536 }))

/-- A store or a step without return (R257, R259, R264). Elements in scratchpad are written one by one, those of a pass that nothing
holds back (R105, R258). -/
def storeForm (k : Iss) (s : State) (op : MemOp) (es : List Elem) (drop : List (Elem × Ready)) : State :=
  let f : Form := if op.kind = .store then .store else if op.atomic then .post else .red
  let sys := s.sysWay op
  let rs := s.readyAll k f sys op.size es
  let isRemote (x : LaneOp) : Bool := f.steps || addrClass x.addr.toNat == 2
  let nearOf (rs : List (Elem × Ready)) : List LaneOp := (laneOps rs).filterMap (fun x => match x.1 with
    | .spot (.phys _) _ => none
    | .spot _ _ => if isRemote x.2 || k.sec.dmr then none else some x.2
    | _ => none)
  let held := waitsFor k s op f rs drop
  match nearOf (freePasses rs), decide (1 < (nearOf rs).length) || held.isSome, k.rec? with
  | x :: _, true, none => if (trapOf (rs ++ drop)).isSome && !mayTrap k s then s
    else serve k (s.storeLane k op x) op false (k.host?.bind HostReq.part) [(x.lane, 0)]
  | _, _, _ => match held with
  | some s' => s'
  | none =>
    let ops := laneOps rs
    let cmps := if k.sec.dmr then dmrOps rs else []
    let now := ops.filterMap (fun x => match x.1 with
      | .spot _ _ => if k.sec.dmr then none else some x.2
      | _ => none)
    let far := now.filter isRemote
    let near := now.filter (fun x => !isRemote x)
    let logs := if k.sec.dmr then [] else ops.filterMap (fun x => match x.1 with
      | .log p _ => some (p, x.2)
      | _ => none)
    let part := k.host?.bind HostReq.part
    let id := part.getD s.nextOp
    let counted := !far.isEmpty || cmps.any isRemote || (f.steps && !logs.isEmpty)
    let fit := logFits k.sec.log.length k.sec.logSeq id op logs
    if counted && part.isNone && counter k.sec 3 = 63 then waitOn k s .copyEntry (.counter 3 62)
    else if fit.length < logs.length then
      -- the side log is full: the passes it takes are logged, the others wait (R156, R259)
      if fit.isEmpty then waitOn k s .sideLog .again
      else
        let s : State := { s with nextOp := s.nextOp + 1 }
        let s := if counted && part.isNone then modOwn k s (outAdd 3 id) else s
        serve k (s.sideLog k id op fit) op false (some id) (fit.map (fun x => (x.2.lane, 0)))
    else if !cmps.isEmpty && 64 ≤ s.cmpUsed k.team k.sec then s
    else
      let s : State := { s with nextOp := s.nextOp + 1 }
      let s := near.foldl (fun s x => s.storeLane k op x) s
      let rem : RemoteOp := { id := id, tid := k.team.tid, role := k.sec.role, who := k.rec?.map (fun r => r.2.2.id), rel := k.sec.lastRel, op := { op with lanes := far } }
      let s : State := if far.isEmpty then s else { s with remote := s.remote ++ [rem] }
      let s := s.sideLog k id op logs
      let cmp : DmrOp := { id := id, who := k.rec?.map (fun r => r.2.2.id), pc := k.th.pc, op := { op with lanes := cmps }, dest := none, counted := if counted then some id else none }
      let s := if cmps.isEmpty then s else modOwn k s (fun c => { c with cmp := c.cmp ++ [cmp] })
      let s := if counted && part.isNone then modOwn k s (outAdd 3 id) else s
      -- the steps that the host has performed complete a counted operation of which nothing else is under way
      let s := match part with
        | some id => (hostOver k s).partDone k.team.tid k.sec.role id
        | none => s
      accessEnd k s k.th (rs ++ drop)

/-! ## Steps that return the old value -/

/-- What a logged choice meets: it may happen now (with the log written or used), it waits, or the replay has diverged
(R139, R140). -/
inductive Turn where
  | go (s : State)
  /-- It waits, for a page of the log where an address is given. -/
  | wait (va : Option Nat)
  | diverged

/-- One lane's step of an ATOM with return, at its place: the old value, and the state after it (R261). -/
def State.atomLane (s : State) (k : Iss) (op : MemOp) (x : LaneOp) : Nat × State :=
  match x.spot with
  | some sp =>
    let r := s.stepAt k.team.ctx op x sp
    (r.1, sp.linesOf.foldl (fun s line => s.dropLine k.team.die k.team.core line) r.2)
  | none => (0, s)

/-- An ATOM with return (R261): each lane's step in order, at its place, so that other parties' steps may fall between them; in
deterministic mode the lanes follow one another, as one record of the order log stands for them (R265). System-scope steps at the host
come back over the host link (R263). -/
def atomForm (k : Iss) (s : State) (w : Bool) (d : Sel) (op : MemOp) (es : List Elem)
    (log : State → List LaneOp → Turn) : State :=
  let sys := s.sysWay op
  let rs := s.readyAll k .atom sys op.size es
  let spots (rs : List (Elem × Ready)) : List LaneOp := (laneOps rs).filterMap (fun x => match x.1 with
    | .spot _ _ => some x.2
    | _ => none)
  let cmps := if k.sec.dmr then dmrOps rs else []
  let held := waitsFor k s op .atom rs []
  let alone := decide (1 < (spots rs).length) || held.isSome
  match spots (freePasses rs), alone && !k.sec.det && cmps.isEmpty, k.rec? with
  | x :: _, true, none => if (trapOf rs).isSome && !mayTrap k s then s
    else
      let r := s.atomLane k op x
      serve k r.2 op false none [(x.lane, BitVec.ofNat 64 r.1)]
  | _, _, _ => match held with
  | some s' => s'
  | none =>
    if !cmps.isEmpty then
      let cmp : DmrOp := { id := s.nextOp, who := k.rec?.map (fun r => r.2.2.id), pc := k.th.pc, op := { op with lanes := cmps }, dest := some d, counted := none }
      if k.sec.cmp.any (fun c => c.dest.isSome) then s
      else if 64 ≤ s.cmpUsed k.team k.sec then s
      else waitOn k (modOwn k s (fun c => { c with cmp := c.cmp ++ [cmp] })) .heldLoad .event
    else match log s (spots rs) with
      | .wait va => s.waitTurn k.team.ctx va
      | .diverged => endContext s k.team.ctx 0 0 (recOf 0x11 k.team.ctx)
      | .go s =>
        let got := rs.filterMap (fun x => match x.2 with
          | .got v => some (x.1.lane, v.toNat)
          | _ => none)
        let r := (spots rs).foldl (fun (acc : List (Nat × Nat) × State) x =>
          let y := acc.2.atomLane k op x
          (acc.1 ++ [(x.lane, y.1)], y.2)) (got, s)
        accessEnd k r.2 (putSome k false w d (okLanes rs) (fun l => BitVec.ofNat 64 (laneVal r.1 l))) rs

end Sys2Proof.Machine
end

