-- ==== Sys2Proof/Machine/Teams.lean ====
section
/-!
DEFINITION. What several families share about sections and teams: ends of paths (R244), the exit of a section and of a team
(R18, R34, R189, R190), team barriers (R189), gang barriers (R20, R190), scratchpad reduction epochs (R363), releases (R266,
R329), sends to a receiver (R84), and the order log (R139, R140).
-/

namespace Sys2Proof.Machine

/-! ## Barriers -/

def bar0 : BarCtr := ⟨0, 0, 0, 0⟩

/-- A team's scratchpad epoch closes: its steps apply in the order of R55 (R363). -/
def closeTeamEpoch (s : State) (tid : Nat) : State :=
  match s.team? tid with
  | none => s
  | some t => (applyEpoch s t.ctx t.epoch).modTeam tid (fun t => { t with epoch := [] })

/-- A section still stands at a barrier's PC, or may come back to it from a handler or a recalled lane's path (R348). -/
def standsAt (c : Section) (pc : DWord) : Bool :=
  c.th.pc == pc || c.hs.isSome || c.stack.any (fun e => e.kind == .recall && e.pend.any (fun p => p.2 == pc))

/-- Sections that arrived at a barrier are released (R189, R190); an arrival that its section no longer stands by is used up with its
phase (R337). -/
def releaseArrivals (gang : Bool) (n : Nat) (c : Section) : Section :=
  let hit (a : DWord × Bool × Nat × Bool) : Bool := a.2.1 == gang && (gang || a.2.2.1 == n)
  { c with arrived := (c.arrived.filter (fun a => !hit a || standsAt c a.1)).map (fun a => if hit a then (a.1, a.2.1, a.2.2.1, true) else a) }

/-- A team barrier with nothing pending completes its phase (R189); with every role of the launch, the scratchpad epoch closes
first (R363). -/
def barSettle (s : State) (tid n : Nat) : State :=
  match s.team? tid with
  | none => s
  | some t =>
    let b := tget bar0 t.bcs n
    if b.roles = 0 ∨ b.pending ≠ 0 then s
    else
      let s := if t.secs.all (fun c => b.roles.getLsbD c.role) then closeTeamEpoch s tid else s
      s.modTeam tid (fun t => { t with
        bcs := tset bar0 t.bcs n { phase := b.phase + 1, roles := 0, pending := 0, came := 0 }
        secs := t.secs.map (releaseArrivals false n) })

/-- The gang a team counts in; the second copies of dual-run teams count among themselves. -/
def gangKey (t : Team) : Nat := if t.primary then t.gang else t.gang + 2 ^ 24

/-- Every non-exited section of the team has executed GBAR in the open phase, or the team has exited (R190). -/
def gangCame (t : Team) : Bool :=
  t.secs.all (fun c => c.state == .exited || t.gbarCame.contains c.role)

/-- The teams of a gang. -/
def State.gangTeams (s : State) (lid key : Nat) : List Team := s.teams.filter (fun t => t.lid == lid && gangKey t == key)

/-- A gang barrier that is not open. -/
def gang0 (lid key : Nat) : Gang := ⟨lid, key, false, [], 0, 0, []⟩

def State.gang (s : State) (lid key : Nat) : Gang := (s.gangs.find? (fun g => g.lid == lid && g.gang == key)).getD (gang0 lid key)
def State.setGang (s : State) (g : Gang) : State :=
  { s with gangs := g :: s.gangs.filter (fun x => !(x.lid == g.lid && x.gang == g.gang)) }

/-- Opening of a gang phase (R190): each die's count is the number of its teams that have not arrived. -/
def State.openGang (s : State) (lid key : Nat) : State :=
  let g := s.gang lid key
  if g.open_ then s
  else
    let ts := s.gangTeams lid key
    let ds := (List.range Config.dies).filter (fun d => ts.any (fun t => t.die == d))
    let missing (d : Nat) : Nat := (ts.filter (fun t => t.die == d && !gangCame t)).length
    s.setGang { g with open_ := true, cross := ds.length, dieCount := tsets 0 [] (ds.map (fun d => (d, missing d)))
                       due := ds.filter (fun d => decide (missing d = 0)) }

/-- A team arrives at its die's count (R190). -/
def State.gangArrive (s : State) (t : Team) : State :=
  let g := s.gang t.lid (gangKey t)
  if !g.open_ then s
  else
    let n := tget 0 g.dieCount t.die
    s.setGang { g with dieCount := tset 0 g.dieCount t.die (n - 1), due := if n = 1 then g.due ++ [t.die] else g.due }

/-- A change that makes a team's arrival complete counts it, once a phase (R190). -/
def State.gangAfter (s : State) (tid : Nat) (before : Bool) : State :=
  match s.team? tid with
  | some t => if !before && gangCame t then s.gangArrive t else s
  | none => s

/-! ## Exits -/

/-- A team has exited (R34, R163, R363): its epoch, its region entries and its place are gone. -/
def teamExit (s : State) (tid : Nat) : State :=
  match s.team? tid with
  | none => s
  | some t =>
    let s := (closeTeamEpoch s tid).modTeam tid (fun t => { t with bank := .gone })
    let s := s.modCore t.die t.core (fun x => { x with
      regions := x.regions.filter (fun r => r.2.tid != tid)
      parked := x.parked.filter (fun p => p != tid)
      ctx := if s.teams.any (fun u => u.die == t.die && u.core == t.core && u.bank == .active) then x.ctx else none })
    s.modLaunch t.lid (fun l => if t.primary then { l with exited := l.exited + 1 } else l)

/-- A section has exited (R18, R75): it leaves the barriers it has not arrived at, and with the last one its team exits. -/
def sectionExit (s : State) (tid role : Nat) : State :=
  match s.team? tid with
  | none => s
  | some t =>
    let before := gangCame t
    let s := s.modSec tid role (fun c => { c with state := .exited, waitOn := .none, waitFor := .again })
    let s := (List.range 4).foldl (fun s n =>
      let b := (s.team? tid).elim bar0 (fun t => tget bar0 t.bcs n)
      if b.roles.getLsbD role && !b.came.getLsbD role then
        barSettle (s.modTeam tid (fun t => { t with bcs := tset bar0 t.bcs n { b with pending := b.pending - 1 } })) tid n
      else s) s
    let s := s.gangAfter tid before
    if (s.team? tid).any (fun t => t.secs.all (fun c => c.state == .exited)) then teamExit s tid else s

/-! ## Paths -/

/-- The current path takes lanes and a PC. -/
def setPath (c : Section) (m : Mask) (pc : DWord) : Section := { c with th := { c.th with path := m, pc := pc } }

/-- The join count of the entry at a position from the bottom falls by 1 (R191). -/
def decJc (st : List Entry) (pos : Nat) : List Entry :=
  st.mapIdx (fun i e => if st.length - 1 - i = pos then { e with jc := e.jc - 1 } else e)

/-- The end of the current path (R244), with as many rounds as the stack is deep. -/
def endPath : Nat → Section → Section
  | 0, c => c
  | n + 1, c =>
    match c.stack with
    | [] => c
    | e :: r =>
      let goOn (c : Section) : Section := if c.th.path = 0 then endPath n c else { c with state := readyState c }
      match e.kind, e.pend with
      | .recall, some (m, pc) => goOn { setPath c m pc with stack := decJc r (e.owner.getD 0), retry := e.retry }
      | .recall, none => goOn { setPath c 0 c.th.pc with stack := decJc r (e.owner.getD 0) }
      | _, some (m, pc) => goOn { setPath c m pc with stack := { e with pend := none } :: r }
      | _, none =>
        if 0 < e.jc then { c with state := .ejectedPending }
        else
          let c := if e.hadEjected then { c with th := c.th.killLatches } else c
          goOn { setPath c e.full e.resume with stack := r }

/-- The path of a section has ended. -/
def pathEnded (c : Section) : Section := endPath (c.stack.length + 1) c

/-- A section with nothing left exits (R18). -/
def State.settleExit (s : State) (tid role : Nat) : State :=
  match s.sec? tid role with
  | some c => if c.th.path = 0 ∧ c.stack = [] ∧ c.state ≠ .exited then sectionExit s tid role else s
  | none => s

/-- The path ends: pops, and the section's exit when nothing remains; groups whose lanes have gone are freed (R34). A pop beyond the
first, and one of an exit or ret, of an entry past the sixteenth makes no access that could wait or fault: the spec names branches and
JOINs alone, and this is the model's choice (R23, log entry 98). -/
def State.endPathOf (s : State) (tid role : Nat) : State :=
  freeGroups ((s.modSec tid role pathEnded).settleExit tid role) tid

/-- A section that waits at a join looks again at its count (R75, R191). -/
def State.recheckJoin (s : State) (tid role : Nat) : State :=
  match s.sec? tid role with
  | some c => if c.state = .ejectedPending then s.endPathOf tid role else s
  | none => s

/-- Lanes leave every entry (R23, R253). -/
def dropLanes (st : List Entry) (m : Mask) : List Entry := st.map (fun e => { e with full := e.full &&& ~~~m })

/-- The next PC of a lane (R93, R243): of the path, or of the entry that holds the lane; `gone` where the lane has exited. -/
def lanePc (c : Section) (l : Nat) (gone : DWord) : DWord :=
  if c.th.path.getLsbD l then c.th.pc
  else (c.stack.findSome? (fun e => match e.pend with
    | some (m, pc) => if m.getLsbD l then some pc else if e.full.getLsbD l && e.kind != .recall then some e.resume else none
    | none => if e.full.getLsbD l && e.kind != .recall then some e.resume else none)).getD gone

/-- A completed step is recorded (R93): STEP, with the stepped lane's next PC. -/
def recordStep (c : Section) : Section :=
  { recordTrap c (lanePc c (32 * c.stepGrp.toNat + c.stepLane.toNat) c.stepPc) ⟨cSTEP, c.th.path, 0, 0⟩ with stepDone := false }

/-! ## Releases -/

/-- What the issuer has issued so far has performed at a scope. -/
def State.performed (s : State) (k : Iss) (scope : Nat) : Bool :=
  k.sec.taps.isEmpty && s.olderPerformed k.team k.sec (k.rec?.map (fun r => r.2.2.id)) s.nextOp scope

/-- The section executes a release (R359). -/
def noteRelease (k : Iss) (s : State) : State := modOwn k s (fun c => { c with lastRel := s.nextOp })

/-- The step of a release happens (R184, R189, R190, R329). A team barrier that another mask has opened meanwhile takes no arrival: the
section looks at its bar again, which is OPND (R189). -/
def State.doRelease (s : State) (tid role : Nat) (r : Release) : State :=
  match s.team? tid with
  | none => s
  | some t =>
    match r.step with
    | .tbarrive off => s.modTeam tid (fun t => t.setTbar off (t.tbar off).arrive)
    | .gbar =>
      let s := s.openGang t.lid (gangKey t)
      (s.modTeam tid (fun t => { t with gbarCame := t.gbarCame ++ [role] })).gangAfter tid (gangCame t)
    | .bar n m =>
      let b := tget bar0 t.bcs n
      let bit : BitVec 4 := BitVec.twoPow 4 role
      if b.roles ≠ 0 ∧ b.roles ≠ m then
        s.modSec tid role (fun c => { c with arrived := c.arrived.filter (fun a => !(a.1 == r.pc && !a.2.1)) })
      else
        let live := (t.secs.filter (fun x => m.getLsbD x.role && x.state != .exited)).length
        let b' : BarCtr := if b.roles = 0 then { b with roles := m, pending := live - 1, came := bit }
          else { b with pending := b.pending - 1, came := b.came ||| bit }
        barSettle (s.modTeam tid (fun t => { t with bcs := tset bar0 t.bcs n b' })) tid n

/-- The oldest release of a section that can happen now, happens (R329). -/
def State.tryRelease (s : State) (tid role : Nat) : State :=
  match s.team? tid, s.sec? tid role with
  | some t, some c =>
    match c.releases.find? (fun r => s.olderPerformed t c none r.before r.scope) with
    | some r =>
      if t.bank = .active then
        (s.modSec tid role (fun c => { c with releases := c.releases.filter (fun x => x != r) })).doRelease tid role r
      else s
    | none => s
  | _, _ => s

/-- A release is executed: its step happens at once when nothing holds it back, and otherwise when nothing does any more, while the
section goes on (R329). -/
def release (k : Iss) (s : State) (scope : Nat) (step : RelStep) : State :=
  let r : Release := { before := s.nextOp, scope := scope, step := step, pc := k.th.pc }
  let s := modOwn k { s with nextOp := s.nextOp + 1 } (fun c => { c with lastRel := r.before, releases := c.releases ++ [r] })
  if k.sec.releases.isEmpty then s.tryRelease k.team.tid k.sec.role else s

/-! ## Sends -/

/-- A belfry's acceptance of a send (R84): 0 or 3 accepted, 1 refused, 2 no receiver. `allowed` is the permission table's
answer. A WAKE vector of a context that is not resident asks to be made resident (R86, R142). -/
def State.accept (s : State) (ctx vec : Nat) (pay : DWord) (allowed : Bool) : Nat × State :=
  let x := s.ctxAt ctx
  if !x.exists_ || x.ended || !x.uientry.getLsbD 63 then (2, s)
  else if !allowed then (1, s)
  else
    let was := x.uipend.getLsbD vec
    let cnt := tget 0 x.uicount vec
    let s := s.modCtx ctx (fun x => { x with
      uivpay := tset 0 x.uivpay vec pay
      uicount := tset 0 x.uicount vec (if cnt = 0xFFFF then cnt else cnt + 1)
      uipend := x.uipend ||| BitVec.twoPow 64 vec })
    let resident := s.teams.any (fun t => t.ctx == ctx && t.bank == .active)
    let s :=
      if resident || !tget false x.uiwake vec then s
      else
        let d := s.dieAt x.homeDie
        if d.wake.contains ctx then s
        else if 64 ≤ d.wake.length then s.modCtx ctx (fun x => { x with wakeKept := true })
        else s.modDie x.homeDie (fun d => { d with wake := d.wake ++ [ctx] })
    (if was then 3 else 0, s)

/-- A well-formed permission entry allows a vector to a sender of a kind and identity (R173, R174); a sender without identity
is allowed nothing. -/
def State.permits (s : State) (ctx kind vec : Nat) (id : Option Nat) : Bool :=
  let x := s.ctxAt ctx
  match id with
  | none => false
  | some id => (List.range x.permcnt).any (fun i =>
    let e := readNat s.mem (x.permbase.toNat + 16 * i) 16
    bits e 62 2 == kind && bits e 48 14 == 0 && bits e 0 48 == id && bits e (64 + vec) 1 == 1)

/-! ## The order log -/

/-- The log has room for a record (R139). -/
def State.logRoom (s : State) (ctx : Nat) : Bool :=
  let x := s.ctxAt ctx
  decide ((x.logtail - x.loghead).toNat < x.logsize)

/-- Writing a record: KIND and BODY (R139). -/
def State.logPut (s : State) (ctx kind body : Nat) : State :=
  let x := s.ctxAt ctx
  let v := body % 2 ^ 96 + x.logtail.toNat % 2 ^ 24 * 2 ^ 96 + kind * 2 ^ 120
  (s.sysWrite ctx (x.logbase.toNat + 16 * (x.logtail.toNat % x.logsize)) (toBytes 16 v)).modCtx ctx (fun x => { x with logtail := x.logtail + 1 })

/-- Record number `i` of the log, as a replay reads it. -/
def State.logGet (s : State) (ctx i : Nat) : Nat :=
  let x := s.ctxAt ctx
  ofBytes ((s.sysRead ctx (x.logbase.toNat + 16 * (i % x.logsize)) 16).getD [])

/-- The first record of a kind that a replay has not used and that a test picks: its number and body (R140). -/
def State.logNext (s : State) (ctx kind : Nat) (mine : Nat → Bool) : Option (Nat × Nat) :=
  let x := s.ctxAt ctx
  ((List.range x.logtail.toNat).filterMap (fun i =>
    let v := s.logGet ctx i
    if !tget false x.replayed i && bits v 120 8 == kind && mine (v % 2 ^ 96) then some (i, v % 2 ^ 96) else none)).head?

/-- What stands between a choice and the log's pages (R139, R140): none where each translates that the choice writes or reads, else the
address to ask the page home for, if it can map it. -/
def State.logHeld (s : State) (ctx : Nat) (replay : Bool) : Option (Option Nat) :=
  let x := s.ctxAt ctx
  let base := x.logbase.toNat
  let stop := base + 16 * Nat.min x.logtail.toNat x.logsize
  let vas := if replay then base :: ((List.range ((stop - base) / 4096 + 1)).map (fun i => (base / 4096 + 1 + i) * 4096)).filter (fun a => decide (a < stop))
    else [base + 16 * (x.logtail.toNat % x.logsize)]
  vas.findSome? (fun va => match s.translateNow ctx (if replay then .load else .store) va with
    | .ok _ _ => none
    | .resolvable => some (some va)
    | _ => some none)

/-- A choice of a deterministic launch (R139, R140): recorded, or in replay checked against the next record that concerns the
same thing. It waits for the log's page, so that no record is lost. -/
def State.choose (s : State) (ctx : Nat) (det replay : Bool) (kind body : Nat) (same : Nat → Bool) : Turn :=
  if !det then .go s
  else match s.logHeld ctx replay with
  | some va => .wait va
  | none =>
    if replay then
      match s.logNext ctx kind same with
      | none => .diverged
      | some (i, b) => if b = body then .go (s.modCtx ctx (fun x => { x with replayed := tset false x.replayed i true })) else .wait none
    else if s.logRoom ctx then .go (s.logPut ctx kind body) else .wait none

/-- A replay that diverged ends the context (R140). -/
def replayDiverged (s : State) (ctx : Nat) : State := endContext s ctx 0 0 (recOf 0x11 ctx)

end Sys2Proof.Machine
end

