-- ==== Sys2Proof/Machine/Control.lean ====
section
/-!
DEFINITION. Control (R243 to R254): branches with minority ejection (R24), joins, indexed branches and calls, returns and exits,
on the core and on the lantern; the fetch of a word (R199); spill of deep reconvergence entries (R23, R98).
-/

namespace Sys2Proof.Machine

/-! ## Fetching a word -/

/-- What reading an instruction word meets (R154, R199). -/
inductive Fetched where
  | word (w : Word) (s : State)
  | wait (s : State)
  | fault (code : Nat)

/-- One word at a virtual address, through the core's fetch buffer (R216). -/
def fetchWord (s : State) (t : Team) (key va : Nat) : Fetched :=
  if 2 ^ 49 ≤ va then .fault cSPACE
  else if va % 4 ≠ 0 then .fault cALIGN
  else match s.translate t.die t.core t.ctx .fetch va with
    | .page => .fault cPAGE
    | .prot => .fault cPROT
    | .resolvable => if s.homeFailed t.ctx va t.tid key then .fault cPAGE else .wait (s.askHome t.ctx va [(t.tid, key)])
    | .ok pa _ =>
      match (s.coreAt t.die t.core).ibuf.find? (fun x => x.1 == pa / 4) with
      | some x => .word x.2 s
      | none =>
        if s.eccAt (.phys [(pa, 4)]) 4 then .fault cECC
        else
        let w := bytesWord (s.homeRead pa 4)
        .word w (s.modCore t.die t.core (fun x => { x with ibuf := tset 0 x.ibuf (pa / 4) w }))

/-- TRAPAUX of a fetch (R78). -/
abbrev fetchAux : Word := 0x403

/-- TRAPAUX of a fetch that faults with a code: 0 with ECC (R78). -/
def fetchAuxOf (c : Nat) : Word := if c = cECC then 0 else fetchAux

/-! ## Spill -/

/-- The access of a push or a pop beyond 16 entries (R23): it may wait for the page home or fault, for the lanes of a mask; a push
writes the entry's bytes (R98). -/
def spilled (k : Iss) (s : State) (acc : Access) (n : Nat) (m : Mask) (go : Unit → State) : State :=
  if n ≤ 16 then go ()
  else
    let va := spillAddr s k.team k.sec.role n
    let fault (c : Nat) : State := raise k s ⟨c, m, BitVec.ofNat 64 va, memAux acc 256⟩
    match s.translate k.team.die k.team.core k.team.ctx acc va with
    | .ok pa _ => if acc = .store then (go ()).freeBytes pa 256 else go ()
    | .page => fault cPAGE
    | .prot => fault cPROT
    | .resolvable =>
      if s.homeFailed k.team.ctx va k.team.tid k.homeKey then fault cPAGE
      else waitOn k (s.askHome k.team.ctx va [(k.team.tid, k.homeKey)]) .heldLoad .again

/-- Pushing so many entries would reach entry 257 (R98, R243). -/
def stackLacks (c : Section) (n : Nat) : Bool := decide (Config.stackMax < (c.stack.filter (fun e => e.kind != .recall)).length + n)

/-- A push would be entry 257. -/
def stackFull (c : Section) : Bool := stackLacks c 1

/-- OPND of an entry. -/
def opnd (k : Iss) (s : State) (i : Instr) (m : Mask) : State := raise k s ⟨cOPND, m, 0, wordOf i⟩

/-- A branch entry (R243). -/
def branchEntry (origin : DWord) (join : Option DWord) (full : Mask) (pend : Option (Mask × DWord)) : Entry :=
  { kind := .branch, origin := origin, joinPc := join, resume := (join.getD 0) + 4, full := full, pend := pend, jc := 0
    owner := none, hadEjected := false, traced := false, redo := 0, retry := none }

/-- A call entry (R249, R250). -/
def callEntry (origin : DWord) (full : Mask) (pend : Option (Mask × DWord)) (traced : Bool) : Entry :=
  { kind := .call, origin := origin, joinPc := none, resume := origin + 4, full := full, pend := pend, jc := 0
    owner := none, hadEjected := false, traced := traced, redo := 0, retry := none }

/-- The record of an ejected lane, changed. -/
def modRec (k : Iss) (s : State) (f : LanternRec → LanternRec) : State :=
  match k.rec? with
  | some (d, c, r) => s.modCore d c (fun x => { x with lantern := x.lantern.map (fun y => if y.id = r.id then f y else y) })
  | none => s

/-- A transfer of the issuer's whole path. -/
def jump (k : Iss) (s : State) (pc : DWord) : State := retireWith k s { k.th with pc := pc }

/-! ## bra -/

/-- The continuation record of an ejected lane (R24). The spec does not say whether its group's latches go with it: the model starts the
record with none, so that a read of b0 to b3 raises LATCH (R66, log entry 100). -/
def ejectRec (k : Iss) (id owner l : Nat) (pc : DWord) (join : Option DWord) : LanternRec :=
  { id := id, tid := k.team.tid, role := k.sec.role, lane := l
    th := { k.th with pc := pc, fpflags := 0, path := BitVec.twoPow 1024 l, live := BitVec.twoPow 1024 l
                      vregs := laneOnly 256 l k.th.vregs, preds := laneOnly 8 l k.th.preds, latches := [], ejected := true }
    joinPc := join, owner := owner, calls := [], waiting := false }

/-- A divergent branch (R22, R24): minority lanes go to the lantern when GMODE asks and the queue has room for all of them;
else the not-taken side is pending. -/
def diverge (k : Iss) (s : State) (target next : DWord) (join : Option DWord) : State :=
  let m := k.th.path
  let t := k.act
  let nt := m &&& ~~~t
  let taken := k.th.lanes t
  let rest := k.th.lanes nt
  let minTaken := decide (taken.length < rest.length)
  let minority := if minTaken then taken else rest
  let eject := decide (0 < minority.length ∧ minority.length ≤ gEject k.th.gmode) &&
    decide ((s.coreAt k.team.die k.team.core).lantern.length + minority.length ≤ 64)
  spilled k s .store (k.sec.stack.length + 1) k.act (fun _ =>
    if eject then
      let owner := k.sec.stack.length
      let recs := minority.mapIdx (fun i l => ejectRec k (s.nextOp + i) owner l (if minTaken then target else next) join)
      let e := { branchEntry k.th.pc join m none with jc := minority.length, hadEjected := true }
      let s : State := { s with nextOp := s.nextOp + minority.length }
      let s := s.modCore k.team.die k.team.core (fun x => { x with lantern := x.lantern ++ recs })
      let s := s.pmAdd k.team.die k.team.core 9 minority.length
      let s := modOwn k s (fun c => { c with stack := e :: c.stack })
      retireWith k s { k.th with path := if minTaken then nt else t, pc := if minTaken then next else target }
    else
      let e := branchEntry k.th.pc join m (some (nt, next))
      let s := modOwn k s (fun c => { c with stack := e :: c.stack })
      retireWith k s { k.th with path := t, pc := target })

/-- A JOIN PC from a distance in words, 0 meaning none (R246, R248). -/
def joinAt (pc : DWord) (words : Nat) : Option DWord := if words = 0 then none else some (pc + BitVec.ofNat 64 (4 * words))

/-- bra (R246). -/
def execBra (o : BitVec 14) (j : BitVec 11) (s : State) : Res :=
  guardedForm (.bra o j) s (fun k => k.act == k.th.path || !stackFull k.sec || k.rec?.isSome) (fun _ => ⟨true, [], []⟩) (fun k => k.th) (fun k =>
    let target := k.th.pc + 4 * o.signExtend 64
    if k.act = k.th.path then jump k s target
    else diverge k s target (k.th.pc + 4) (joinAt k.th.pc j.toNat))

/-! ## join and exit -/

/-- An ejected lane is done on the lantern (R25): its record is freed and its entry's count falls; a rejoining lane's registers
and flags return to its slot (R27, R47). -/
def lanternDone (k : Iss) (s : State) (rejoin : Bool) : State :=
  match k.rec? with
  | none => s
  | some (d, c, r) =>
    let s := s.modCore d c (fun x => { x with lantern := x.lantern.filter (fun y => y.id != r.id) })
    let s := s.modSec r.tid r.role (fun x =>
      let x := { x with stack := decJc x.stack r.owner }
      if rejoin then { x with th := x.th.giveLane r.lane r.th }
      else
        let m := BitVec.twoPow 1024 r.lane
        { x with stack := dropLanes x.stack m, th := { x.th with live := x.th.live &&& ~~~m } })
    freeGroups ((s.recheckJoin r.tid r.role)) r.tid

/-- join (R247, R25). -/
def execJoin (s : State) : Res :=
  issued s (fun k =>
    match k.rec? with
    | some (_, _, r) => if r.joinPc = some k.th.pc then lanternDone k s true else pass k s
    | none =>
      match k.sec.stack with
      | e :: _ =>
        if e.kind ≠ .call ∧ e.joinPc = some k.th.pc then
          spilled k s .load k.sec.stack.length k.path (fun _ => (retire k s).endPathOf k.team.tid k.sec.role)
        else pass k s
      | [] => pass k s)

/-- exit (R253). -/
def execExit (s : State) : Res :=
  guardedForm .exit s (fun k => !k.sec.hmode || k.rec?.isSome) (fun _ => ⟨true, [], []⟩) (fun k => k.th) (fun k =>
    match k.rec? with
    | some _ => lanternDone k s false
    | none =>
      let th := { k.th with path := k.th.path &&& ~~~k.act, live := k.th.live &&& ~~~k.act }
      let s := modOwn k s (fun c => { c with stack := dropLanes c.stack k.act })
      if th.path = 0 then (retireWith k s th).endPathOf k.team.tid k.sec.role
      else freeGroups (retireWith k s th.advance) k.team.tid)

/-! ## brx, call, calli, ret -/

/-- The lowest target of the active lanes of a pair, and its lanes (R248). -/
def lowTarget (k : Iss) (x : Sel) : DWord × Mask :=
  let ts := (k.th.lanes k.act).map (fun l => (k.th.src64 l x, l))
  let t := ts.foldl (fun a p => if p.1 < a then p.1 else a) (BitVec.allOnes 64)
  (t, maskOf ((ts.filter (fun p => p.1 == t)).map Prod.snd))

/-- The innermost entry is reused: by any lanes that stand at the ORIGIN of a branch entry (R248); at a call entry by the lanes that
were set aside there, as a callee that comes to its own calli calls again (R250). -/
def reuses (k : Iss) (kind : EntryKind) : Bool :=
  match k.sec.stack with
  | e :: _ => e.kind == kind && e.origin == k.th.pc
    && (if kind = .branch then e.pend.all (fun p => p.2 == k.th.pc) else k.th.path &&& ~~~e.redo == 0)
  | [] => false

/-- What a target meets (R251). -/
def targetFault (t : DWord) (m : Mask) : Option Trap :=
  if t.toNat / 2 ^ 49 ≠ 0 then some ⟨cSPACE, m, t, fetchAux⟩
  else if t.toNat % 4 ≠ 0 then some ⟨cALIGN, m, t, fetchAux⟩
  else none

/-- The lanes of one target become the path, the others stand in PEND of the entry (R248, R251): a reused entry or a new one.
A set that executes again after a fault leaves in PEND the lanes that were set aside before its trap. -/
def setAside (k : Iss) (s : State) (e : Entry) (others set : Mask) (again : Bool) : State :=
  let kind := e.kind
  let before : Mask := match k.sec.stack with
    | x :: _ => if reuses k kind then (x.pend.map Prod.fst).getD 0 else 0
    | [] => 0
  let others := others ||| before
  let pend := if others = 0 then none else some (others, k.th.pc)
  modOwn k s (fun c =>
    let redo := if again then others ||| set else others
    let st := if reuses k kind then (match c.stack with
        | x :: r => { x with pend := pend, redo := redo } :: r
        | [] => [])
      else { e with pend := pend, redo := redo } :: c.stack
    { c with stack := st, th := { c.th with path := set } })

/-- A fault of brx or calli after the others have been set aside: SKIP ends the set's part without transfer (R251). -/
def raiseSet (k : Iss) (s : State) (skip : SkipHow) (x : Trap) : State := raiseWith k s skip x

/-- Lanes of the path that a handler has taken from TRAPMASK: RESUME does not execute the instruction for them (R80). -/
def cleared (k : Iss) : Mask := k.th.guarded k.th.path &&& ~~~k.path

/-- Lanes that take no part in a brx under RESUME go on where SKIP would take them (R80, R251): they wait in FULL for a JOIN, and with
none at PC + 4, in an entry of their own. -/
def leaveCleared (k : Iss) (s : State) (join : Option DWord) (set : Mask) : State :=
  if cleared k = 0 ∨ join.isSome then s
  else modOwn k s (fun c => { c with
    stack := branchEntry k.th.pc none (set ||| cleared k) (some (cleared k, k.th.pc + 4)) :: c.stack })

/-- brx (R248, R251): lanes whose guard fails and lanes of other targets are set aside at PC. -/
def execBrx (x : Sel) (j : BitVec 16) (s : State) : Res :=
  let one (k : Iss) : Bool := k.th.path == (lowTarget k x).2
  let pushes (k : Iss) : Nat := (if one k || reuses k .branch then 0 else 1) + (if cleared k = 0 ∨ j ≠ 0 then 0 else 1)
  guardedForm (.brx x j) s (fun k => !stackLacks k.sec (pushes k) || pushes k == 0 || k.rec?.isSome) (fun _ => ⟨true, [], [(x, 2)]⟩) (fun k => k.th) (fun k =>
    let tg := lowTarget k x
    let join := joinAt k.th.pc j.toNat
    let skip : SkipHow := .to (join.getD (k.th.pc + 4))
    let go (again : Bool → State) : State := match targetFault tg.1 tg.2 with
      | some f => raiseSet k (again true) skip f
      | none => retireWith k (again false) { k.th with path := tg.2, pc := tg.1 }
    if k.rec?.isSome || (one k && !reuses k .branch) then go (fun _ => s)
    else
      let e := branchEntry k.th.pc join k.th.path none
      let others := k.th.path &&& ~~~cleared k &&& ~~~tg.2
      let push (_ : Unit) : State := go (fun again => leaveCleared k (setAside k s e others tg.2 again) join tg.2)
      if pushes k = 0 then push () else spilled k s .store (k.sec.stack.length + pushes k) k.act push)

/-- call (R249, R254). -/
def execCall (o : BitVec 25) (s : State) : Res :=
  guardedForm (.call o) s (fun k => match k.rec? with
      | some (_, _, r) => decide (r.calls.length < 8)
      | none => !stackFull k.sec) (fun _ => ⟨true, [], []⟩) (fun k => k.th) (fun k =>
    let target := k.th.pc + 4 * o.signExtend 64
    match k.rec? with
    | some _ => jump k (modRec k s (fun r => { r with calls := (k.th.pc + 4, false) :: r.calls })) target
    | none => spilled k s .store (k.sec.stack.length + 1) k.act (fun _ =>
        let s := modOwn k s (fun c => { c with stack := callEntry k.th.pc k.th.path none false :: c.stack })
        retireWith k s { k.th with path := k.act, pc := target }))

/-- The budget that the word before a routine declares (R250). -/
def declared (w : Word) : Nat :=
  let n := (w.extractLsb' 0 8).toNat
  if w.extractLsb' 8 24 = 0xFDF800 ∧ n % 8 = 0 ∧ 8 ≤ n ∧ n ≤ 192 then n else 192

/-- Reading the budget word of a target: nothing amiss, a wait, or the fault of the set (R250). -/
def budgetWord (k : Iss) (s : State) (t : DWord) (m : Mask) : Except (Option Trap × State) State :=
  match targetFault t m with
  | some f => .error (some f, s)
  | none =>
    match fetchWord s k.team k.homeKey (t - 4).toNat with
    | .wait s' => .error (none, s')
    | .fault c => .error (some ⟨c, m, t - 4, fetchAuxOf c⟩, s)
    | .word w s' =>
      if k.th.budget < declared w then .error (some ⟨cBUDGET, m, 0, BitVec.ofNat 32 k.th.budget⟩, s) else .ok s'

/-- calli (R250, R251, R254). -/
def execCalli (a : Sel) (s : State) : Res :=
  guardedForm (.calli a) s (fun k => match k.rec? with
      | some (_, _, r) => decide (r.calls.length < 8)
      | none => reuses k .call || !stackFull k.sec) (fun _ => ⟨true, [], [(a, 2)]⟩) (fun k => k.th) (fun k =>
    let tg := lowTarget k a
    let e := callEntry k.th.pc k.th.path none false
    match budgetWord k s tg.1 tg.2 with
    | .error (none, s) => waitOn k s .heldLoad .again
    | .error (some f, s) =>
      match k.rec? with
      | some _ => raiseSet k s .ret f
      | none =>
        let push (_ : Unit) : State := raiseSet k (setAside k s e (k.act &&& ~~~tg.2) tg.2 true) .ret f
        if reuses k .call then push () else spilled k s .store (k.sec.stack.length + 1) k.act push
    | .ok s =>
      match k.rec? with
      | some _ => jump k (modRec k s (fun r => { r with calls := (k.th.pc + 4, false) :: r.calls })) tg.1
      | none =>
        let push (_ : Unit) : State := retireWith k (setAside k s e (k.act &&& ~~~tg.2) tg.2 false) { k.th with path := tg.2, pc := tg.1 }
        if reuses k .call then push () else spilled k s .store (k.sec.stack.length + 1) k.act push)

/-- The lanes of a return leave FULL of the branch entries above the innermost call entry (R252). -/
def leaveBranches (m : Mask) : List Entry → List Entry
  | [] => []
  | e :: r => if e.kind = .call then e :: r
    else (if e.kind = .branch then { e with full := e.full &&& ~~~m } else e) :: leaveBranches m r

/-- ret (R252, R254). -/
def execRet (s : State) : Res :=
  guardedForm .ret s (fun k => k.rec?.isSome || k.sec.stack.any (fun e => e.kind == .call)) (fun _ => ⟨true, [], []⟩) (fun k => k.th) (fun k =>
    match k.rec? with
    | some (_, _, r) => match r.calls with
      | [] => recallQuiet k s
      | c :: rest => jump k (modRec k s (fun r => { r with calls := rest })) c.1
    | none =>
      let th := { k.th with path := k.th.path &&& ~~~k.act }
      let s := modOwn k s (fun c => { c with stack := leaveBranches k.act c.stack })
      if th.path = 0 then (retireWith k s th).endPathOf k.team.tid k.sec.role
      else retireWith k s th.advance)

end Sys2Proof.Machine
end

