-- ==== Sys2Proof/Machine/FloatOps.lean ====
section
/-!
DEFINITION. Float arithmetic, transcendentals and packed dot products (R273 to R281).
-/

namespace Sys2Proof.Machine

/-- TYPE f64: operands are pairs (R273). -/
def isF64 (g : Word) : Bool := gType g == 0xA
/-- TYPE and pairs of a float form (R273). -/
def floatDyn (ds : List Sel) (srcs : List Sel) (g : Word) : Bool :=
  tyFloat (gType g) && ds.all (pairDst (isF64 g)) && srcs.all (pairSrc (isF64 g))

/-- A float form that writes a result (R273, R274). -/
def floatForm (i : Instr) (n : Bool) (d : Sel) (srcs : List Sel) (f : Thread → Nat → DWord × Word) (s : State) : Res :=
  laneForm i s (floatDyn [d] srcs) n d isF64 (fun g => srcs.map (wsel (isF64 g))) f

/-- fput with flags of the operation itself (R273). -/
def fputWith (g : Word) (v : FVal) (fl : Word) : DWord × Word := ((fputG g v).1, (fputG g v).2 ||| fl)

/-- fadd (R274). -/
def execFadd (n : Bool) (d a b : Sel) (s : State) : Res :=
  floatForm (.fadd n d a b) n d [a, b] (fun th l => fputG th.gmode (sumF (gRM th.gmode) [th.fget l a, th.fget l b])) s
/-- fsub (R274). -/
def execFsub (n : Bool) (d a b : Sel) (s : State) : Res :=
  floatForm (.fsub n d a b) n d [a, b] (fun th l => fputG th.gmode (sumF (gRM th.gmode) [th.fget l a, (th.fget l b).neg])) s
/-- fmul (R274). -/
def execFmul (n : Bool) (d a b : Sel) (s : State) : Res :=
  floatForm (.fmul n d a b) n d [a, b] (fun th l => fputG th.gmode (mulF (th.fget l a) (th.fget l b)).1) s
/-- ffma: rounded once (R274). -/
def execFfma (n : Bool) (d a b : Sel) (s : State) : Res :=
  floatForm (.ffma n d a b) n d [a, b, d]
    (fun th l => fputG th.gmode (sumF (gRM th.gmode) [th.fget l d, (mulF (th.fget l a) (th.fget l b)).1])) s
/-- fdiv (R274). -/
def execFdiv (n : Bool) (d a b : Sel) (s : State) : Res :=
  floatForm (.fdiv n d a b) n d [a, b]
    (fun th l => let r := divF (th.fget l a) (th.fget l b); fputWith th.gmode r.1 r.2) s

/-- The square root of a value (R274). -/
def sqrtF (f : Fmt) (v : FVal) : FVal :=
  match v with
  | .nan s => .nan s
  | .inf true => .nan true
  | .inf false => .inf false
  | .fin s q => if q.isZero then .fin s q else if s then .nan true else .fin false (Q.sqrt (f.fracBits + 8) q)

/-- fsqrt (R274). -/
def execFsqrt (n : Bool) (d a : Sel) (s : State) : Res :=
  floatForm (.fsqrt n d a) n d [a] (fun th l => fputG th.gmode (sqrtF (tyFmt (gType th.gmode)) (th.fget l a))) s

/-- The order of fmin and fmax on values that are no NaN: −0 below +0 (R275). -/
def fLess (a b : FVal) : Bool :=
  match a, b with
  | .inf s, .inf s' => s && !s'
  | .inf s, _ => s
  | _, .inf s' => !s'
  | a, b => if a.isZero && b.isZero then a.sign && !b.sign else a.toQ.lt b.toQ

/-- fmin and fmax return one operand unchanged (R275). -/
def fPick (f : Fmt) (a b : Nat) (less : Bool) : DWord × Word :=
  let x := f.value a
  let y := f.value b
  let fl : Word := if x.isSnan || y.isSnan then fNV else 0
  let r := if x.isNan && y.isNan then f.nan else if x.isNan then b else if y.isNan then a
    else if less then (if fLess y x then b else a) else (if fLess x y then b else a)
  (BitVec.ofNat 64 r, fl)

/-- fmin (R275). -/
def execFmin (n : Bool) (d a b : Sel) (s : State) : Res :=
  floatForm (.fmin n d a b) n d [a, b] (fun th l => fPick (tyFmt (gType th.gmode)) (th.fbits l a) (th.fbits l b) true) s
/-- fmax (R275). -/
def execFmax (n : Bool) (d a b : Sel) (s : State) : Res :=
  floatForm (.fmax n d a b) n d [a, b] (fun th l => fPick (tyFmt (gType th.gmode)) (th.fbits l a) (th.fbits l b) false) s

/-- The TYPE-width bits of a source, without flush (R276, R278). -/
def Thread.rawBits (th : Thread) (l : Nat) (x : Sel) : Nat :=
  let f := tyFmt (gType th.gmode)
  th.src (decide (f = .f64)) l x % 2 ^ f.width

/-- fabs (R276). -/
def execFabs (n : Bool) (d a : Sel) (s : State) : Res :=
  floatForm (.fabs n d a) n d [a]
    (fun th l => (BitVec.ofNat 64 (th.rawBits l a % 2 ^ ((tyFmt (gType th.gmode)).width - 1)), 0)) s
/-- fneg (R276). -/
def execFneg (n : Bool) (d a : Sel) (s : State) : Res :=
  floatForm (.fneg n d a) n d [a]
    (fun th l => (BitVec.ofNat 64 (th.rawBits l a ^^^ 2 ^ ((tyFmt (gType th.gmode)).width - 1)), 0)) s

/-- A condition of R277 on two values. -/
def fCond (c : BitVec 3) (a b : FVal) : Bool :=
  let un := a.isNan || b.isNan
  let eq := !un && (if a.isZero && b.isZero then true else !fLess a b && !fLess b a)
  let lt := !un && fLess a b && !(a.isZero && b.isZero)
  let gt := !un && fLess b a && !(a.isZero && b.isZero)
  match c.toNat with
  | 0 => eq
  | 1 => !eq
  | 2 => lt
  | 3 => lt || eq
  | 4 => gt
  | 5 => gt || eq
  | _ => un

/-- fcmp (R277). -/
def execFcmp (c p : BitVec 3) (a b : Sel) (s : State) : Res :=
  predForm (.fcmp c p a b) s (floatDyn [] [a, b]) p.toNat (fun g => [wsel (isF64 g) a, wsel (isF64 g) b])
    (fun th l =>
      let x := th.fget l a
      let y := th.fget l b
      (fCond c x y, if x.isSnan || y.isSnan then fNV else 0))

/-- The class bit of a pattern (R278). -/
def fClassBit (f : Fmt) (v : Nat) : Nat :=
  match f.value v with
  | .nan true => 0
  | .nan false => 1
  | .inf true => 2
  | .inf false => 9
  | .fin s q =>
    if q.isZero then (if s then 5 else 6)
    else if f.isSubnormal v then (if s then 4 else 7)
    else (if s then 3 else 8)

/-- fclass (R278): D is one register under every TYPE. -/
def execFclass (n : Bool) (d a : Sel) (s : State) : Res :=
  laneForm (.fclass n d a) s (floatDyn [] [a]) n d (fun _ => false) (fun g => [wsel (isF64 g) a])
    (fun th l => (BitVec.ofNat 64 (2 ^ fClassBit (tyFmt (gType th.gmode)) (th.rawBits l a)), 0))

/-- What a transcendental computes (R279): an exact value with its flags, or a magnitude that no format represents. -/
inductive TransRes where
  | exact (v : FVal) (fl : Word)
  | approx (neg : Bool) (mag : Q)

/-- frcp (R279), correctly rounded. -/
def rcpT (v : FVal) : TransRes :=
  match v with
  | .nan s => .exact (.nan s) 0
  | .inf s => .exact (.fin s Q.zero) 0
  | .fin s q => if q.isZero then .exact (.inf s) fDZ else .exact (.fin s q.inv) 0

/-- frsq (R279). -/
def rsqT (f : Fmt) (v : FVal) : TransRes :=
  match v with
  | .nan s => .exact (.nan s) 0
  | .inf true => .exact (.nan true) 0
  | .inf false => .exact (.fin false Q.zero) 0
  | .fin s q =>
    if q.isZero then .exact (.inf s) fDZ
    else if s then .exact (.nan true) 0
    else
      let i := q.inv
      let rn := isqrt i.num.natAbs
      let rd := isqrt i.den
      if rn * rn = i.num.natAbs ∧ rd * rd = i.den then .exact (.fin false ⟨rn, rd⟩) 0
      else .approx false (Q.sqrt (f.fracBits + 40) i)

/-- fexp2 (R279). An operand beyond ±20,000 acts as ±20,000 does, far beyond every format. -/
def exp2T (v : FVal) : TransRes :=
  match v with
  | .nan s => .exact (.nan s) 0
  | .inf true => .exact (.fin false Q.zero) 0
  | .inf false => .exact (.inf false) 0
  | .fin _ _ =>
    let q := (v.toQ.min (Q.ofInt 20000)).max (Q.ofInt (-20000))
    if (Q.ofInt q.floor).eq q then .exact (.fin false (Q.pow2 q.floor)) 0 else .approx false (exp2Q q)

/-- flog2 (R279). -/
def log2T (v : FVal) : TransRes :=
  match v with
  | .nan s => .exact (.nan s) 0
  | .inf true => .exact (.nan true) 0
  | .inf false => .exact (.inf false) 0
  | .fin s q =>
    if q.isZero then .exact (.inf true) fDZ
    else if s then .exact (.nan true) 0
    else if (Q.pow2 q.log2).eq q then .exact (FVal.ofQ false (Q.ofInt q.log2)) 0
    else
      let r := log2Q q
      .approx r.isNeg r.abs

/-- fsin: sin(π a) (R279). -/
def sinT (v : FVal) : TransRes :=
  match v with
  | .nan s => .exact (.nan s) 0
  | .inf _ => .exact (.nan true) 0
  | .fin s _ =>
    let q := v.toQ
    if (Q.ofInt q.floor).eq q then .exact (.fin s Q.zero) 0
    else
      let q2 := q.add q
      if (Q.ofInt q2.floor).eq q2 then .exact (.fin (decide (q.floor % 2 ≠ 0)) Q.one) 0
      else
        let r := sinPiSigned q
        .approx r.1 r.2

/-- fcos: cos(π a) = sin(π (a + 1/2)) (R279). -/
def cosT (v : FVal) : TransRes :=
  match v with
  | .nan s => .exact (.nan s) 0
  | .inf _ => .exact (.nan true) 0
  | .fin _ _ =>
    let q := v.toQ.add Q.half
    if (Q.ofInt q.floor).eq q then .exact (.fin false Q.zero) 0 else sinT (FVal.ofQ false q)

/-- A transcendental form (R279, R280). -/
def transForm (op : Nat) (i : Instr) (n : Bool) (d a : Sel) (f : Fmt → FVal → TransRes) (s : State) : Res :=
  floatForm i n d [a] (fun th l =>
    let fm := tyFmt (gType th.gmode)
    match f fm (th.fget l a) with
    | .exact v fl => fputWith th.gmode v fl
    | .approx neg mag =>
      let r := putTrans op (th.fbits l a) fm (gRM th.gmode) (gSatF th.gmode) (gFtz th.gmode) neg mag
      (BitVec.ofNat 64 r.bits, r.flags)) s

/-- frcp (R279). -/
def execFrcp (n : Bool) (d a : Sel) (s : State) : Res := transForm 0 (.frcp n d a) n d a (fun _ => rcpT) s
/-- frsq (R279). -/
def execFrsq (n : Bool) (d a : Sel) (s : State) : Res := transForm 1 (.frsq n d a) n d a rsqT s
/-- fexp2 (R279). -/
def execFexp2 (n : Bool) (d a : Sel) (s : State) : Res := transForm 2 (.fexp2 n d a) n d a (fun _ => exp2T) s
/-- flog2 (R279). -/
def execFlog2 (n : Bool) (d a : Sel) (s : State) : Res := transForm 3 (.flog2 n d a) n d a (fun _ => log2T) s
/-- fsin (R279). -/
def execFsin (n : Bool) (d a : Sel) (s : State) : Res := transForm 4 (.fsin n d a) n d a (fun _ => sinT) s
/-- fcos (R279). -/
def execFcos (n : Bool) (d a : Sel) (s : State) : Res := transForm 5 (.fcos n d a) n d a (fun _ => cosT) s

/-- How an element of a packed register reads (R35, R63). -/
inductive PackElem where
  | float (f : Fmt)
  | int (sgn : Bool) (n : Nat)
  deriving DecidableEq, Repr

/-- Bits an element takes in a packed register (R35). -/
def PackElem.stride : PackElem → Nat
  | .float .q4 => 4
  | .float .h16 | .float .w16 => 16
  | .float _ => 8
  | .int _ n => n

/-- Element `i` of a packed register (R35). -/
def PackElem.bitsAt (e : PackElem) (v i : Nat) : Nat :=
  bits v (e.stride * i) (match e with
    | .float f => f.width
    | .int _ n => n)

/-- The packed TYPEs (R63). -/
def packedElem (t : BitVec 5) : Option PackElem :=
  match t.toNat with
  | 0x00 => some (.int true 8)
  | 0x04 => some (.int false 8)
  | 0x08 => some (.int true 4)
  | 0x09 => some (.int false 4)
  | 0x0C => some (.float .h16)
  | 0x0D => some (.float .w16)
  | 0x0E => some (.float .q8)
  | 0x10 => some (.float .q4)
  | _ => none

/-- One lane of a packed dot product (R281, R48). -/
def dotLane (th : Thread) (l : Nat) (cnt : Nat) (e : PackElem) (d a b : Sel) : DWord × Word :=
  let x := (th.src32 l a).toNat
  let y := (th.src32 l b).toNat
  let c := (th.src32 l d).toNat
  match e with
  | .float f =>
    let terms := (List.range cnt).map (fun i => (mulF (f.value (e.bitsAt x i)) (f.value (e.bitsAt y i))).1)
    let r := roundSum .f32 (gRM th.gmode) (gSatF th.gmode) (Fmt.f32.value c :: terms)
    (BitVec.ofNat 64 r.bits, r.flags)
  | .int sg n =>
    let t := (List.range cnt).foldl (fun a i => a + intOpnd sg n (e.bitsAt x i) * intOpnd sg n (e.bitsAt y i)) (sext c 32)
    let r := finInt true 32 (gSat th.gmode) t
    (ofInt64 r.1, r.2)

/-- A packed dot product (R281). -/
def dotForm (i : Instr) (cnt : Nat) (types : List Nat) (n : Bool) (d a b : Sel) (s : State) : Res :=
  laneForm i s (fun g => types.contains (gType g).toNat) n d (fun _ => false) (fun _ => [(a, 1), (b, 1), (d, 1)])
    (fun th l => match packedElem (gType th.gmode) with
      | some e => dotLane th l cnt e d a b
      | none => (0, 0))

/-- dot2 (R281). -/
def execDot2 (n : Bool) (d a b : Sel) (s : State) : Res := dotForm (.dot2 n d a b) 2 [0xC, 0xD] n d a b s
/-- dot4 (R281). -/
def execDot4 (n : Bool) (d a b : Sel) (s : State) : Res := dotForm (.dot4 n d a b) 4 [0xE, 0x0, 0x4] n d a b s
/-- dot8 (R281). -/
def execDot8 (n : Bool) (d a b : Sel) (s : State) : Res := dotForm (.dot8 n d a b) 8 [0x10, 0x8, 0x9] n d a b s

end Sys2Proof.Machine
end

