-- ==== Sys2Proof/Machine/Convert.lean ====
section
/-!
DEFINITION. Conversions, packing and unpacking (R282 to R285). A mnemonic CVT_<d>_<s> converts type s to type d.
-/

namespace Sys2Proof.Machine

/-- A conversion's mode: the override of R41, or GMODE's. -/
def ovRM (g : Word) (ov : BitVec 2) : RM :=
  match ov.toNat with
  | 1 => .rne
  | 2 => .rtz
  | 3 => .rdn
  | _ => gRM g

/-- Bits of a type. -/
def PackElem.width : PackElem → Nat
  | .float f => f.width
  | .int _ n => n

/-- A type held in a pair. -/
def PackElem.isPair (e : PackElem) : Bool := e.width == 64

/-- One conversion (R283): the bits of the destination type, integers extended, and the flags. -/
def convert (g : Word) (ov : BitVec 2) (dst src : PackElem) (v : Nat) : DWord × Word :=
  let rm := ovRM g ov
  let v := v % 2 ^ src.width
  match src, dst with
  | .float f, .float f' =>
    let r := putF f' rm (gSatF g) (gFtz g) (f.value (flush (gFtz g) f v))
    (BitVec.ofNat 64 r.bits, r.flags)
  | .float f, .int sg n =>
    let r := toIntF rm (intLo sg n) (intHi sg n) (f.value (flush (gFtz g) f v))
    (ofInt64 r.1, r.2)
  | .int sg n, .float f' =>
    let r := putF f' rm (gSatF g) (gFtz g) (FVal.ofQ false (Q.ofInt (intOpnd sg n v)))
    (BitVec.ofNat 64 r.bits, r.flags)
  | .int sg n, .int sg' n' =>
    let r := finInt sg' n' (gSat g) (intOpnd sg n v)
    (ofInt64 r.1, r.2)

/-- A conversion form: A the destination, B the source (R210). -/
def cvtForm (i : Instr) (ov : BitVec 2) (a b : Sel) (dst src : PackElem) (s : State) : Res :=
  laneForm i s (fun _ => true) false a (fun _ => dst.isPair) (fun _ => [wsel src.isPair b])
    (fun th l => convert th.gmode ov dst src (th.src src.isPair l b))

/-- A pack form (R284): n registers from B into A. -/
def packForm (i : Instr) (ov : BitVec 2) (a b : Sel) (n : Nat) (e wide : PackElem) (s : State) : Res :=
  laneForm i s (fun _ => true) false a (fun _ => false) (fun _ => [(b, n)])
    (fun th l =>
      let rs := (List.range n).map (fun j => convert th.gmode ov e wide (th.src32 l (BitVec.ofNat 8 (b.toNat + j))).toNat)
      (BitVec.ofNat 64 (rs.mapIdx (fun j r => r.1.toNat % 2 ^ e.width * 2 ^ (e.stride * j)) |>.foldl (· + ·) 0),
       rs.foldl (fun x r => x ||| r.2) 0))

/-- An unpack form (R284): the register B into n registers from A. -/
def unpackForm (i : Instr) (a b : Sel) (n : Nat) (e wide : PackElem) (s : State) : Res :=
  regForm i s (fun _ => true) (fun _ => ⟨false, [(a, n)], [(b, 1)]⟩)
    (fun k =>
      let th := k.th
      let el (l j : Nat) : DWord × Word := convert th.gmode 0 wide e (e.bitsAt (th.src32 l b).toNat j)
      (th.putRun false k.path k.act a n (fun l j => (el l j).1.setWidth 32)).orFlags
        (orOver (th.lanes k.act) (fun l => orOver (List.range n) (fun j => (el l j).2))))

/-- CVT_F32_F64 (R283). -/
def execCvtF32F64 (r : BitVec 2) (a b : Sel) (s : State) : Res := cvtForm (.cvtF32F64 r a b) r a b (.float .f32) (.float .f64) s
/-- CVT_F64_F32 (R283). -/
def execCvtF64F32 (r : BitVec 2) (a b : Sel) (s : State) : Res := cvtForm (.cvtF64F32 r a b) r a b (.float .f64) (.float .f32) s
/-- CVT_F32_H16 (R283). -/
def execCvtF32H16 (r : BitVec 2) (a b : Sel) (s : State) : Res := cvtForm (.cvtF32H16 r a b) r a b (.float .f32) (.float .h16) s
/-- CVT_H16_F32 (R283). -/
def execCvtH16F32 (r : BitVec 2) (a b : Sel) (s : State) : Res := cvtForm (.cvtH16F32 r a b) r a b (.float .h16) (.float .f32) s
/-- CVT_F32_W16 (R283). -/
def execCvtF32W16 (r : BitVec 2) (a b : Sel) (s : State) : Res := cvtForm (.cvtF32W16 r a b) r a b (.float .f32) (.float .w16) s
/-- CVT_W16_F32 (R283). -/
def execCvtW16F32 (r : BitVec 2) (a b : Sel) (s : State) : Res := cvtForm (.cvtW16F32 r a b) r a b (.float .w16) (.float .f32) s
/-- CVT_F32_S32 (R283). -/
def execCvtF32S32 (r : BitVec 2) (a b : Sel) (s : State) : Res := cvtForm (.cvtF32S32 r a b) r a b (.float .f32) (.int true 32) s
/-- CVT_F32_Z32 (R283). -/
def execCvtF32Z32 (r : BitVec 2) (a b : Sel) (s : State) : Res := cvtForm (.cvtF32Z32 r a b) r a b (.float .f32) (.int false 32) s
/-- CVT_S32_F32 (R283). -/
def execCvtS32F32 (r : BitVec 2) (a b : Sel) (s : State) : Res := cvtForm (.cvtS32F32 r a b) r a b (.int true 32) (.float .f32) s
/-- CVT_Z32_F32 (R283). -/
def execCvtZ32F32 (r : BitVec 2) (a b : Sel) (s : State) : Res := cvtForm (.cvtZ32F32 r a b) r a b (.int false 32) (.float .f32) s
/-- CVT_F64_S64 (R283). -/
def execCvtF64S64 (r : BitVec 2) (a b : Sel) (s : State) : Res := cvtForm (.cvtF64S64 r a b) r a b (.float .f64) (.int true 64) s
/-- CVT_F64_Z64 (R283). -/
def execCvtF64Z64 (r : BitVec 2) (a b : Sel) (s : State) : Res := cvtForm (.cvtF64Z64 r a b) r a b (.float .f64) (.int false 64) s
/-- CVT_S64_F64 (R283). -/
def execCvtS64F64 (r : BitVec 2) (a b : Sel) (s : State) : Res := cvtForm (.cvtS64F64 r a b) r a b (.int true 64) (.float .f64) s
/-- CVT_Z64_F64 (R283). -/
def execCvtZ64F64 (r : BitVec 2) (a b : Sel) (s : State) : Res := cvtForm (.cvtZ64F64 r a b) r a b (.int false 64) (.float .f64) s
/-- CVT_F64_S32 (R283). -/
def execCvtF64S32 (r : BitVec 2) (a b : Sel) (s : State) : Res := cvtForm (.cvtF64S32 r a b) r a b (.float .f64) (.int true 32) s
/-- CVT_S32_F64 (R283). -/
def execCvtS32F64 (r : BitVec 2) (a b : Sel) (s : State) : Res := cvtForm (.cvtS32F64 r a b) r a b (.int true 32) (.float .f64) s
/-- CVT_F32_S64 (R283). -/
def execCvtF32S64 (r : BitVec 2) (a b : Sel) (s : State) : Res := cvtForm (.cvtF32S64 r a b) r a b (.float .f32) (.int true 64) s
/-- CVT_S64_F32 (R283). -/
def execCvtS64F32 (r : BitVec 2) (a b : Sel) (s : State) : Res := cvtForm (.cvtS64F32 r a b) r a b (.int true 64) (.float .f32) s
/-- CVT_Q8_F32 (R283). -/
def execCvtQ8F32 (r : BitVec 2) (a b : Sel) (s : State) : Res := cvtForm (.cvtQ8F32 r a b) r a b (.float .q8) (.float .f32) s
/-- CVT_F32_Q8 (R283). -/
def execCvtF32Q8 (r : BitVec 2) (a b : Sel) (s : State) : Res := cvtForm (.cvtF32Q8 r a b) r a b (.float .f32) (.float .q8) s
/-- CVT_Q6_F32 (R283). -/
def execCvtQ6F32 (r : BitVec 2) (a b : Sel) (s : State) : Res := cvtForm (.cvtQ6F32 r a b) r a b (.float .q6) (.float .f32) s
/-- CVT_F32_Q6 (R283). -/
def execCvtF32Q6 (r : BitVec 2) (a b : Sel) (s : State) : Res := cvtForm (.cvtF32Q6 r a b) r a b (.float .f32) (.float .q6) s
/-- CVT_Q4_F32 (R283). -/
def execCvtQ4F32 (r : BitVec 2) (a b : Sel) (s : State) : Res := cvtForm (.cvtQ4F32 r a b) r a b (.float .q4) (.float .f32) s
/-- CVT_F32_Q4 (R283). -/
def execCvtF32Q4 (r : BitVec 2) (a b : Sel) (s : State) : Res := cvtForm (.cvtF32Q4 r a b) r a b (.float .f32) (.float .q4) s
/-- CVT_S8_S32 (R283). -/
def execCvtS8S32 (r : BitVec 2) (a b : Sel) (s : State) : Res := cvtForm (.cvtS8S32 r a b) r a b (.int true 8) (.int true 32) s
/-- CVT_Z8_Z32 (R283). -/
def execCvtZ8Z32 (r : BitVec 2) (a b : Sel) (s : State) : Res := cvtForm (.cvtZ8Z32 r a b) r a b (.int false 8) (.int false 32) s
/-- CVT_S16_S32 (R283). -/
def execCvtS16S32 (r : BitVec 2) (a b : Sel) (s : State) : Res := cvtForm (.cvtS16S32 r a b) r a b (.int true 16) (.int true 32) s
/-- CVT_Z16_Z32 (R283). -/
def execCvtZ16Z32 (r : BitVec 2) (a b : Sel) (s : State) : Res := cvtForm (.cvtZ16Z32 r a b) r a b (.int false 16) (.int false 32) s
/-- CVT_S64_S32 (R283). -/
def execCvtS64S32 (r : BitVec 2) (a b : Sel) (s : State) : Res := cvtForm (.cvtS64S32 r a b) r a b (.int true 64) (.int true 32) s
/-- CVT_Z64_Z32 (R283). -/
def execCvtZ64Z32 (r : BitVec 2) (a b : Sel) (s : State) : Res := cvtForm (.cvtZ64Z32 r a b) r a b (.int false 64) (.int false 32) s
/-- CVT_S32_S64 (R283). -/
def execCvtS32S64 (r : BitVec 2) (a b : Sel) (s : State) : Res := cvtForm (.cvtS32S64 r a b) r a b (.int true 32) (.int true 64) s
/-- CVT_Z32_Z64 (R283). -/
def execCvtZ32Z64 (r : BitVec 2) (a b : Sel) (s : State) : Res := cvtForm (.cvtZ32Z64 r a b) r a b (.int false 32) (.int false 64) s

/-- PACK_H16 (R284). -/
def execPackH16 (r : BitVec 2) (a b : Sel) (s : State) : Res := packForm (.packH16 r a b) r a b 2 (.float .h16) (.float .f32) s
/-- UNPACK_H16 (R284). -/
def execUnpackH16 (a b : Sel) (s : State) : Res := unpackForm (.unpackH16 a b) a b 2 (.float .h16) (.float .f32) s
/-- PACK_W16 (R284). -/
def execPackW16 (r : BitVec 2) (a b : Sel) (s : State) : Res := packForm (.packW16 r a b) r a b 2 (.float .w16) (.float .f32) s
/-- UNPACK_W16 (R284). -/
def execUnpackW16 (a b : Sel) (s : State) : Res := unpackForm (.unpackW16 a b) a b 2 (.float .w16) (.float .f32) s
/-- PACK_Q8 (R284). -/
def execPackQ8 (r : BitVec 2) (a b : Sel) (s : State) : Res := packForm (.packQ8 r a b) r a b 4 (.float .q8) (.float .f32) s
/-- UNPACK_Q8 (R284). -/
def execUnpackQ8 (a b : Sel) (s : State) : Res := unpackForm (.unpackQ8 a b) a b 4 (.float .q8) (.float .f32) s
/-- PACK_Q6 (R284). -/
def execPackQ6 (r : BitVec 2) (a b : Sel) (s : State) : Res := packForm (.packQ6 r a b) r a b 4 (.float .q6) (.float .f32) s
/-- UNPACK_Q6 (R284). -/
def execUnpackQ6 (a b : Sel) (s : State) : Res := unpackForm (.unpackQ6 a b) a b 4 (.float .q6) (.float .f32) s
/-- PACK_Q4 (R284). -/
def execPackQ4 (r : BitVec 2) (a b : Sel) (s : State) : Res := packForm (.packQ4 r a b) r a b 8 (.float .q4) (.float .f32) s
/-- UNPACK_Q4 (R284). -/
def execUnpackQ4 (a b : Sel) (s : State) : Res := unpackForm (.unpackQ4 a b) a b 8 (.float .q4) (.float .f32) s
/-- PACK_S8 (R284). -/
def execPackS8 (a b : Sel) (s : State) : Res := packForm (.packS8 a b) 0 a b 4 (.int true 8) (.int true 32) s
/-- UNPACK_S8 (R284). -/
def execUnpackS8 (a b : Sel) (s : State) : Res := unpackForm (.unpackS8 a b) a b 4 (.int true 8) (.int true 32) s
/-- PACK_Z8 (R284). -/
def execPackZ8 (a b : Sel) (s : State) : Res := packForm (.packZ8 a b) 0 a b 4 (.int false 8) (.int false 32) s
/-- UNPACK_Z8 (R284). -/
def execUnpackZ8 (a b : Sel) (s : State) : Res := unpackForm (.unpackZ8 a b) a b 4 (.int false 8) (.int false 32) s
/-- PACK_S4 (R284). -/
def execPackS4 (a b : Sel) (s : State) : Res := packForm (.packS4 a b) 0 a b 8 (.int true 4) (.int true 32) s
/-- UNPACK_S4 (R284). -/
def execUnpackS4 (a b : Sel) (s : State) : Res := unpackForm (.unpackS4 a b) a b 8 (.int true 4) (.int true 32) s
/-- PACK_Z4 (R284). -/
def execPackZ4 (a b : Sel) (s : State) : Res := packForm (.packZ4 a b) 0 a b 8 (.int false 4) (.int false 32) s
/-- UNPACK_Z4 (R284). -/
def execUnpackZ4 (a b : Sel) (s : State) : Res := unpackForm (.unpackZ4 a b) a b 8 (.int false 4) (.int false 32) s

end Sys2Proof.Machine
end

