-- ==== Sys2Proof/Machine/Copies.lean ====
section
/-!
DEFINITION. Copies: their issue (R330), the engine's start, landings, pauses and stops (R105, R106, R117, R134, R135, R185, R331,
R389, R396), sparse fill (R108), the cell reduction (R56, R332), bound windows (R107, R162, R163, R333, R334).
-/

namespace Sys2Proof.Machine

/-! ## Issue -/

/-- The command block that eight uniform registers hold (R133). -/
def blockOf (k : Iss) (a : Sel) : BitVec 256 :=
  BitVec.ofNat 256 (((List.range 8).map (fun i => (k.th.kreg (uniNo a + i)).toNat * 2 ^ (32 * i))).sum)

/-- The team that a 0xFA address names, while it has not exited, and the offset. -/
def State.remoteTeam? (s : State) (t : Team) (a : Nat) : Option (Team × Nat) :=
  if addrClass a = 2 ∧ addrZeros a = true ∧ bits a 52 4 < t.gangSize then (s.gangTeam? t (bits a 52 4)).map (fun u => (u, bits a 0 32)) else none

/-- The lines of a range that lie within a team's scratchpad. -/
def Team.linesIn (t : Team) (off n : Nat) : List Nat := (rangeLines off n).filter (fun l => decide (128 * l < t.scratchSize))

/-- The team and lines that a copy writes in team scratchpad (R105, R330). -/
def destLines (s : State) (t : Team) (form : Nat) (b : Block) (r : Option Shape) : Nat × List Nat :=
  let own (off : Nat) : Nat × List Nat := (t.tid, ((copyLines { b with soff := off } r).filter (fun l => decide (128 * l < t.scratchSize))))
  match form, b.op with
  | 0, 0 => own b.soff
  | 1, 2 => own b.soff
  | 0, 1 => match s.remoteTeam? t b.gaddr with
    | some (u, off) => match r with
      | none => (u.tid, u.linesIn off b.bytes)
      | some r =>
        let addrs := (List.range r.count).filterMap (fun j => r.elemAddr b.gaddr j)
        let ls := addrs.flatMap (fun a => if addrClass a = 2 ∧ bits a 52 4 = u.rank then u.linesIn (bits a 0 32) r.esize else [])
        (u.tid, ls.eraseDups)
    | none => (t.tid, [])
  | 2, 3 => match s.remoteTeam? t b.gaddr with
    | some (u, off) => if u.tid = t.tid then (t.tid, t.linesIn off b.bytes) else (t.tid, [])
    | none => (t.tid, [])
  | _, _ => (t.tid, [])

/-- The engine class of a copy instruction (R179, R330). -/
def copyClass (form gaddr : Nat) : Nat :=
  match form with
  | 0 => if addrClass gaddr = 1 ∨ addrClass gaddr = 2 then 1 else 0
  | 1 => 1
  | _ => 2

/-- The TYPEs of treduce (R332). -/
def reduceTy (t : BitVec 5) : Bool := [2, 3, 6, 7, 10, 11, 12, 13].contains t.toNat

/-- Lines that are bound-absent fill first: their bound copies start, none left, or one that cannot start yet (R107). -/
def startBoundLines (s : State) (tid : Nat) : List Nat → Option State
  | [] => some s
  | l :: r => match s.team? tid with
    | none => some s
    | some t =>
      if (t.line l).bound then
        match s.regionOf t l with
        | some (i, e) =>
          let s' := startBound s t i e
          if ((s'.team? tid).any (fun t => (t.line l).bound)) then none else startBoundLines s' tid r
        | none => startBoundLines s tid r
      else startBoundLines s tid r

/-- Bytes of a copy's dense side cover a line (R332, R135). -/
def covers (b : Block) (r : Option Shape) (l : Nat) : Bool :=
  let n := match r with
    | some r => r.denseBytes
    | none => b.bytes
  decide (b.soff ≤ 128 * l ∧ 128 * (l + 1) ≤ b.soff + n)

/-- The lines of a team that a stopped or dropped copy left absent and that an inbound tcopy to it makes good at its issue: those it covers, and
of an invalid accumulator tile only the whole tile (R135, R332). -/
def healed (u : Team) (form : Nat) (b : Block) (r : Option Shape) (ls : List Nat) : List Nat :=
  let tile (p : DWord × Nat) : List Nat := (u.lines.filter (fun x => x.2.poison == some p)).map Prod.fst
  if form = 0 ∧ b.op = 0 then
    ls.filter (fun l => covers b r l && (match (u.line l).poison with
      | some p => p.2 != 2 || (tile p).all (fun x => ls.contains x && covers b r x)
      | none => true))
  else []

/-- tcopy, tcopys and treduce (R330): the steps in order, each with its wait. -/
def copyForm (ins : Instr) (form : Nat) (a : Sel) (s : State) : Res :=
  sectionForm ins s (fun k => k.rec?.isSome || form != 2 || reduceTy (gType k.th.gmode)) (fun _ => ⟨true, [], [(a, 8)]⟩) (fun k =>
    let t := k.team
    let core := s.coreAt t.die t.core
    let blk := blockOf k a
    let b := Block.of blk
    let cls := copyClass form b.gaddr
    let srec := if b.bytes = 0 then readBytes t.scratch b.shape 128 else []
    let shape := if b.bytes = 0 then some (Shape.of srec) else none
    let dst := destLines s t form b shape
    let shared := decide (sharedUsed core < Config.sharedCopyEntries)
    if core.preempt then waitOn k s .preempt .again
    else if counter k.sec cls = 63 then waitOn k s .copyEntry (.counter cls 62)
    else if !shared && decide (2 ≤ ownUsed core t.tid k.sec.role) then waitOn k s .copyEntry .again
    else match startBoundLines s dst.1 dst.2 with
      | none => waitOn k s .copyEntry .again
      | some s =>
        -- a bound copy that the destination has touched may have taken the last shared entry
        let core := s.coreAt t.die t.core
        let shared := decide (sharedUsed core < Config.sharedCopyEntries)
        if !shared && decide (2 ≤ ownUsed core t.tid k.sec.role) then waitOn k s .copyEntry .again
        else if (s.team? dst.1).any (fun u => dst.2.any (fun l => decide (3 ≤ (u.line l).count))) then waitOn k s .copyEntry .again
        else
          let c : Copy := { id := s.nextOp, tid := t.tid, role := k.sec.role, form := form, cls := cls, block := blk, shared := shared
                            started := false, begun := false, paused := false, left := List.range (sectorCount b shape), ltid := dst.1, lines := dst.2
                            taken := [], pc := k.th.pc, nth := k.sec.copies, inCmp := [], srec := srec, gmode := k.th.gmode, region := none
                            ordinal := if form = 2 then t.treduces else 0, data := [] }
          let s : State := { s with nextOp := s.nextOp + 1 }
          let s := s.modTeam dst.1 (fun u =>
            let good := healed u form b shape dst.2
            dst.2.foldl (fun u l => u.setLine l { (u.line l) with count := (u.line l).count + 1
                                                                  poison := if good.contains l then none else (u.line l).poison }) u)
          let s := s.modTeam t.tid (fun u => if form = 2 then { u with treduces := u.treduces + 1 } else u)
          let s := s.modCore t.die t.core (fun x => { x with copyq := x.copyq ++ [c] })
          modOwn k (pass k s) (fun x => outAdd cls c.id { x with copies := x.copies + 1 }))

/-- tcopy (R330). -/
def execTcopy (a : Sel) (s : State) : Res := copyForm (.tcopy a) 0 a s
/-- tcopys (R330, R108). -/
def execTcopys (a : Sel) (s : State) : Res := copyForm (.tcopys a) 1 a s
/-- treduce (R330, R332). -/
def execTreduce (a : Sel) (s : State) : Res := copyForm (.treduce a) 2 a s

/-! ## The other side of a copy -/

/-- Where a piece of a copy lies on its memory side. -/
inductive Side where
  | ok (sp : Spot) (vas : List (Nat × Nat))
  /-- A page fault that the page home resolves (R117). -/
  | res (va : Nat)
  /-- Any other fault (R396). -/
  | bad
  /-- An absent line, or a team that is away. -/
  | wait (s : State)

/-- The access of a copy's engine to `n` bytes of its memory side (R396); data read that holds an uncorrected error stops it. -/
def State.copySide (s : State) (t : Team) (role : Nat) (acc : Access) (a n : Nat) (mine : List Nat) : Side :=
  if s.spaceFault t a n then .bad
  else match addrClass a with
    | 0 =>
      let va := bits a 0 49
      let m := Nat.min n (4096 - va % 4096)
      let vas := if m < n then [(va, m), (va + m, n - m)] else [(va, n)]
      match s.globOf t (copyRole + role) acc vas with
      | .ok pas => if acc = .load ∧ s.eccAt (.phys pas) n = true then .bad else .ok (.phys pas) vas
      | .res v => .res v
      | .bad _ => .bad
    | 1 =>
      let sp : Spot := .die (bits a 54 2) (bits a 0 25)
      if s.dieProt t.ctx (bits a 54 2) (bits a 0 25) n acc || (acc == .load && s.eccAt sp n) then .bad else .ok sp []
    | 2 => match s.gangTeam? t (bits a 52 4) with
      | none => .bad
      | some u =>
        if u.bank = .shadow ∨ u.bank = .saved then .wait s
        else match touch s u.tid ((rangeLines (bits a 0 32) n).filter (fun l => !mine.contains l)) with
          | .ok => if acc = .load ∧ s.eccAt (.team u.tid (bits a 0 32)) n = true then .bad else .ok (.team u.tid (bits a 0 32)) []
          | .wait s' _ => .wait s'
          | .cmd _ _ => .bad
    | _ => .bad

/-- A copy reads its memory side, rather than writing it. -/
def Copy.inbound (c : Copy) : Bool := (Block.of c.block).op != 1

/-- A command block that is not well formed when the engine starts its entry (R135, R330, R332, R168). -/
def illFormed (s : State) (t : Team) (c : Copy) : Bool :=
  let b := Block.of c.block
  let fits (off n : Nat) : Bool := t.inScratch off n
  let opOk : Bool := match c.form with
    | 0 => b.op == 0 || b.op == 1
    | 1 => b.op == 2
    | 2 => b.op == 3
    | _ => true
  let window : Bool := addrClass b.gaddr ≤ 2 && addrZeros b.gaddr
  let sides : Bool := match c.shape with
    | some r => b.shape % 128 == 0 && fits b.shape 128 && r.ok (c.form == 1) true && fits b.soff r.denseBytes
    | none => b.gaddr % 32 == 0 && b.bytes % 32 == 0 && b.bytes != 0 && fits b.soff b.bytes
  let bar : Bool := match b.barOff with
    | some off => fits off 16 && (t.tbar off).init && (t.tbar off).resv == 0
    | none => true
  let kind : Bool := match c.form with
    | 1 => b.bytes == 0
    | 2 => b.bytes != 0 && addrClass b.gaddr == 2 && bits b.gaddr 52 4 == t.rank && fits (bits b.gaddr 0 32) b.bytes
    | _ => true
  !(b.resv && opOk && b.soff % 32 == 0 && window && sides && bar && kind) || (s.team? c.tid).isNone

/-- An entry of a copy is gone, and its operation complete (R134, R181). -/
def copyGone (s : State) (die core : Nat) (c : Copy) : State :=
  let s := s.modCore die core (fun x => { x with copyq := x.copyq.filter (fun y => y.id != c.id) })
  if c.form = 3 then s else s.opDone c.tid c.role c.id

/-- A dropped or stopped copy (R135, R396): its unfinished lines stay absent with CMD, its barrier takes CERR, a CMD record is
written, and the entry is freed. -/
def dropCopy (s : State) (die core : Nat) (c : Copy) : State :=
  match s.team? c.tid with
  | none => copyGone s die core c
  | some t =>
    let b := Block.of c.block
    let cmd : DWord × Nat := (BitVec.ofNat 64 (s.nextRecAddr t.ctx), c.cls)
    let hurt (u : Team) (l : Nat) : Team := u.setLine l { (u.line l) with count := (u.line l).count - 1, poison := some cmd }
    let s := s.modTeam c.ltid (fun u => c.lines.foldl hurt u)
    let s := match b.barOff with
      | some off => if t.inScratch off 16 then s.modTeam t.tid (fun u =>
            { u.setTbar off { u.tbar off with cerr := true } with cerrs := tset none u.cerrs off (some cmd) }) else s
      | none => s
    let s := s.post { recBy 0x20 t c.role with detail := toBytes 32 c.block.toNat }
    (copyGone s die core c).homesServed c.tid (copyRole + c.role)

/-! ## Start -/

/-- The scratchpad lines of its own team that a copy reads: its shape record, until it has started, and its source lines. -/
def sourceLines (c : Copy) : List Nat :=
  let b := Block.of c.block
  (if b.bytes = 0 ∧ c.form ≠ 3 ∧ c.begun = false then rangeLines b.shape 128 else [])
    ++ (if c.form = 2 then copyLines b c.shape else if c.form = 0 ∧ b.op = 1 then (c.left.map (sectorLine b)).eraseDups else [])

/-- The lines of another team's scratchpad that a sector of an inbound copy reads. -/
def remoteLines (s : State) (t : Team) (c : Copy) (i : Nat) : List (Team × Nat) :=
  if c.form ≠ 0 ∨ c.inbound = false then []
  else (c.pieces i).flatMap (fun p => match p.addr.bind (fun a => s.remoteTeam? t a) with
    | some (u, off) => (u.linesIn off p.n).map (fun l => (u, l))
    | none => [])

/-- A source line that a copy reads is absent, so that the engine skips it (R134). -/
def skipped (s : State) (t : Team) (c : Copy) : Bool :=
  (match copyTouch s c t.tid (sourceLines c) with
    | .wait _ _ => true
    | _ => false) || c.left.any (fun i => (remoteLines s t c i).any (fun x => c.waitsOn x.1 x.2))

/-- A copy that the engine works on waits in every sector left for an absent source line, and holds none of the 16 places (R134). -/
def idles (s : State) (t : Team) (c : Copy) : Bool :=
  !c.left.isEmpty && c.form != 2 && c.left.all (fun i =>
    if c.inbound then (remoteLines s t c i).any (fun x => c.waitsOn x.1 x.2) else c.waitsOn t (sectorLine (Block.of c.block) i))

/-- The bits of the elements of a stream: `w` bits each. -/
def streamElem (bs : List Byte) (w i : Nat) : Nat := ofBytes ((bs.drop (i * w / 8)).take 2) / 2 ^ (i * w % 8) % 2 ^ w

/-- The dense bytes of a sparse fill, none for a nibble with a ≥ c (R108). Elements at or past DIM read as 0 (R167). -/
def sparseDense (r : Shape) (vals metaBs : List Byte) : Option (List Byte) :=
  let w := r.spBits
  let nib (n : Nat) : Nat := (metaBs.getD (n / 2) 0).toNat / 2 ^ (4 * (n % 2)) % 16
  let groups := (r.count + 3) / 4
  if (List.range groups).any (fun n => decide (nib n / 4 ≤ nib n % 4)) then none
  else
    let elem (j : Nat) : Nat :=
      let n := j / 4
      let inside := (List.range r.rank).all (fun d => decide ((coordsOf (r.tile.take r.rank) j).getD d 0 < r.dim.getD d 0))
      if !inside then 0
      else if j % 4 = nib n % 4 then streamElem vals w (2 * n)
      else if j % 4 = nib n / 4 then streamElem vals w (2 * n + 1)
      else 0
    some (toBytes r.denseBytes ((List.range r.count).foldl (fun a j => a + elem j * 2 ^ (w * j)) 0))

/-- Older writes to the bytes of a copy's memory side have performed (R331, R361, R389): those of its section, in its comparator and its side
log too, and those of the core's other sections, which a release within the core may order before the copy. A bound copy is of no section. -/
def olderDone (s : State) (die core : Nat) (c : Copy) (sp : Spot) (n : Nat) (vas : List (Nat × Nat)) : Bool :=
  let meets (op : MemOp) : Bool := op.lanes.any (fun l => (match l.spot with
    | some y => sp.meets y n op.size
    | none => false) || (vaBytes l.vas).any (fun p => (vaBytes vas).contains p))
  let log (x : Section) : Bool := x.log.any (fun e => decide (e.id < c.id) && meets e.op)
  !(s.coreAt die core).storeBuf.any (fun b => decide (b.id < c.id) && (match sp with
      | .phys pas => (physBytes pas).any (fun p => b.bytes.any (fun y => y.1 == p))
      | _ => false))
    && (c.form == 3 ||
      (!s.remote.any (fun r => r.tid == c.tid && r.role == c.role && decide (r.id < c.id) && meets r.op)
        && !(s.sec? c.tid c.role).any (fun x => log x || x.cmp.any (fun o => decide (o.id < c.id) && meets o.op))
        && !(((s.team? c.tid).bind Team.twin).bind (fun u => s.sec? u c.role)).any log))

/-- What the reading of a stream meets. -/
inductive Stream where
  | bytes (bs : List Byte)
  | res (va : Nat)
  | bad
  | wait (s : State)

/-- Bytes read through a copy's memory side, 32 at a time, once the older writes to them have performed (R331). -/
def State.readStream (s : State) (t : Team) (c : Copy) (a n : Nat) : Stream :=
  (List.range ((n + 31) / 32)).foldl (fun acc i => match acc with
    | .bytes bs =>
      let m := Nat.min 32 (n - 32 * i)
      match s.copySide t c.role .load (a + 32 * i) m [] with
      | .ok sp vas => if olderDone s t.die t.core c sp m vas then .bytes (bs ++ s.spotRead sp m) else .wait s
      | .res v => .res v
      | .bad => .bad
      | .wait s' => .wait s'
    | r => r) (.bytes [])

/-- The streams of a sparse source (R108, R164). -/
def sparseRead (s : State) (t : Team) (c : Copy) (r : Shape) : Stream × Stream :=
  let b := Block.of c.block
  let groups := (r.count + 3) / 4
  (s.readStream t c b.gaddr ((2 * groups * r.spBits + 7) / 8), s.readStream t c r.meta_ ((groups + 1) / 2))

/-- A change of a queue entry. -/
def modCopy (s : State) (die core id : Nat) (f : Copy → Copy) : State :=
  s.modCore die core (fun x => { x with copyq := x.copyq.map (fun c => if c.id = id then f c else c) })

/-- An ill-formed block halts the queue (R135). -/
def haltDrop (s : State) (die core : Nat) (c : Copy) : State :=
  dropCopy (s.modCore die core (fun x => { x with halted := true })) die core c

/-- A started entry: its shape record is read and its block checked, unless it had started before it was paused (R117, R135, R168). -/
def startEntry (s : State) (die core : Nat) (t : Team) (c : Copy) : State :=
  if c.begun then modCopy s die core c.id (fun x => { x with started := true })
  else
    let c := c.asRead t.scratch
    if c.form ≠ 3 ∧ illFormed s t c = true then haltDrop s die core c
    else
      let left := List.range (sectorCount (Block.of c.block) c.shape)
      let go (d : List Byte) : State := modCopy s die core c.id (fun x => { x with started := true, begun := true, srec := c.srec, data := d, left := left })
      match c.form, c.shape with
      | 1, some r =>
        match sparseRead s t c r with
        | (.bytes v, .bytes m) => match sparseDense r v m with
          | some d => go d
          | none => haltDrop s die core c
        | _ => s
      | _, _ => go []

/-- COPY_START: the engine starts the first entry of its queue that waits on no absent source line (R134, R135); 16 work at once. -/
def execCopyStart (die core : Nat) (s : State) : Res :=
  .next (
    let x := s.coreAt die core
    let mine (f : Team → Copy → Bool) (c : Copy) : Bool := (s.team? c.tid).any (fun t => f t c)
    if x.halted ∨ 16 ≤ (x.copyq.filter (fun c => c.started && !c.paused && !mine (idles s) c)).length then s
    else
      let waiting := x.copyq.filter (fun c => !c.started && !c.paused)
      match waiting.find? (fun c => !mine (skipped s) c) with
      | none => -- the bound copies of waiting source lines are queued
        waiting.foldl (fun s c => match copyTouch s c c.tid (sourceLines c) with
          | .wait s' _ => s'
          | _ => s) s
      | some c =>
        match s.team? c.tid, copyTouch s c c.tid (sourceLines c) with
        | some t, .ok => startEntry s die core t c
        | _, .cmd _ _ => dropCopy s die core c
        | _, _ => s)

/-! ## Landing -/

/-- The lines of its counted team that a sector of a copy writes. -/
def Copy.hits (c : Copy) (i : Nat) : List Nat :=
  if c.inbound then [sectorLine (Block.of c.block) i]
  else (c.pieces i).flatMap (fun p => match p.addr with
    | some a => rangeLines (bits a 0 32) p.n
    | none => [])

/-- A change of the barrier that a copy names (R184). -/
def copyBar (s : State) (c : Copy) (f : TBar → TBar) : State :=
  match (Block.of c.block).barOff with
  | some off => if c.form = 3 then s else s.modTeam c.tid (fun u => u.setTbar off (f (u.tbar off)))
  | none => s

/-- Lines that a copy has finished: their counts fall (R105). A line that a copy has filled as a whole is good again, but for an invalid
accumulator tile (R135, R332). -/
def lineDone (s : State) (c : Copy) (fin : List Nat) : State :=
  let good (u : Team) (l : Nat) : Bool := c.inbound && covers (Block.of c.block) c.shape l && (u.line l).poison.any (fun p => p.2 != 2)
  s.modTeam c.ltid (fun u => fin.foldl (fun u l => u.setLine l { (u.line l) with
    count := (u.line l).count - 1, poison := if good u l then none else (u.line l).poison }) u)

/-- The completion of a copy (R184, R181, R162). -/
def copyDone (s : State) (die core : Nat) (c : Copy) : State :=
  let s := copyBar s c TBar.arrive
  let s := match c.region with
    | some r => s.modCore die core (fun x => { x with regions := x.regions.map (fun e => if e.1 = r then (e.1, { e.2 with done := true }) else e) })
    | none => s
  (copyGone s die core c).pmAdd die core 6 1

/-- What one landing changes besides the data (R185): the counts of lines whose last sector it was, the barrier's pending
sectors, and with the last sector the copy's completion. -/
def landed (s : State) (die core : Nat) (c : Copy) (i : Nat) : State :=
  let left := c.left.filter (fun j => j != i)
  let still := left.flatMap c.hits
  let fin := if left.isEmpty then c.lines else c.lines.filter (fun l => (c.hits i).contains l && !still.contains l)
  let s := copyBar (lineDone s c fin) c (fun b => b.sectors (-1))
  if left.isEmpty then copyDone s die core c
  else modCopy s die core c.id (fun x => { x with left := left, lines := c.lines.filter (fun l => !fin.contains l) })

/-- Destination bytes of older copies that this landing has overtaken: copies of the same section (R106), and bound copies of the same
lines, since an inbound copy counts as issued after the bound copy that it starts (R107). -/
def overtake (s : State) (die core : Nat) (c : Copy) (offs : List Nat) : State :=
  let older (o : Copy) : Bool := o.ltid == c.ltid && decide (o.id < c.id) && ((o.tid == c.tid && o.role == c.role && o.form != 3) || (o.form == 3 && c.form != 3))
  let mark (x : Core) : Core := { x with copyq := x.copyq.map (fun o => if older o then { o with taken := o.taken ++ offs } else o) }
  let s := s.modCore die core mark
  match s.team? c.ltid with
  | some u => if u.die = die ∧ u.core = core then s else s.modCore u.die u.core mark
  | none => s

/-- Writing bytes of a copy to team scratchpad, but for those a younger copy of the section has written. -/
def fillBytes (s : State) (c : Copy) (tid : Nat) (xs : List (Nat × Byte)) : State :=
  s.modTeam tid (fun u => { u with scratch := tsets 0 u.scratch (xs.filter (fun x => !c.taken.contains x.1)) })

/-- The sides of a sector's pieces, none when one of them waits or faults. -/
def sidesOf (s : State) (t : Team) (die core : Nat) (c : Copy) (acc : Access) (i : Nat) : Option (List (Piece × Option Spot)) :=
  (c.pieces i).foldr (fun p acc' => match acc', p.addr with
    | none, _ => none
    | some l, none => some ((p, none) :: l)
    | some l, some a =>
      match s.copySide t c.role acc a p.n (if c.inbound then [] else c.lines) with
      | .ok sp vas => if olderDone s die core c sp p.n vas then some ((p, some sp) :: l) else none
      | _ => none) (some [])

/-- A sector that waits touches the lines it waits for, so that their bound copies start (R107). -/
def touchSides (s : State) (t : Team) (c : Copy) (acc : Access) (i : Nat) : State :=
  (c.pieces i).foldl (fun s p => match p.addr with
    | some a => match s.copySide t c.role acc a p.n (if c.inbound then [] else c.lines) with
      | .wait s' => s'
      | _ => s
    | none => s) s

/-- An inbound sector lands. -/
def landIn (s : State) (die core : Nat) (t : Team) (c : Copy) (i : Nat) : State :=
  let b := Block.of c.block
  if c.form = 1 then
    let w := 32 * i
    let put (x : Nat) : Nat × Byte := (permOff ((c.shape.map Shape.perm).getD 0) (b.soff + w + x), c.data.getD (w + x) 0)
    let n := Nat.min 32 (c.data.length - w)
    let xs := (List.range n).map put
    landed (overtake (fillBytes s c t.tid xs) die core c (xs.map Prod.fst)) die core c i
  else match sidesOf s t die core c .load i with
    | none => touchSides s t c .load i
    | some l =>
      let xs := l.flatMap (fun x => match x.2 with
        | some sp => (s.spotRead sp x.1.n).mapIdx (fun j v => (x.1.off + j, v))
        | none => (List.range x.1.n).map (fun j => (x.1.off + j, (0 : Byte))))
      landed (overtake (fillBytes s c t.tid xs) die core c (xs.map Prod.fst)) die core c i

/-- Bytes of a copy performed at a spot of its memory side, overtaking older copies there (R106); the cores of both copies of the team drop
their cached lines. -/
def copyOut (s : State) (t : Team) (c : Copy) (sp : Spot) (bs : List Byte) : State :=
  match sp with
  | .team tid off =>
    let put (s : State) (tid : Nat) : State := fillBytes s c tid (bs.mapIdx (fun j v => (off + j, v)))
    let s := overtake (put s tid) t.die t.core c ((List.range bs.length).map (fun j => off + j))
    match c.inCmp.isEmpty, sp.twin s with
    | false, some (.team u _) => put s u
    | _, _ => s
  | _ => dropBoth (s.spotWrite t.ctx sp bs) t sp

/-- What stands of the same copy in the second copy of a dual-run team (R195): its core and entry; `some none` for one whose section has issued
another copy in its place, or has none any more. -/
def twinCopy (s : State) (t : Team) (c : Copy) : Option (Option (Nat × Nat × Copy × Team)) :=
  match t.twin.bind s.team? with
  | none => none
  | some u =>
    if (s.sec? u.tid c.role).any (fun x => decide (x.copies ≤ c.nth)) then none
    else match (((s.coreAt u.die u.core).copyq ++ u.copies).find? (fun x => x.tid == u.tid && x.role == c.role && x.form != 3 && x.nth == c.nth)) with
      | some x => some (if x.form == c.form && x.pc == c.pc then some (u.die, u.core, x, u) else none)
      | none => some none

/-- The data of an outbound sector. -/
def outBytes (t : Team) (l : List (Piece × Option Spot)) : List (Spot × List Byte) :=
  l.filterMap (fun x => x.2.map (fun sp => (sp, readBytes t.scratch x.1.off x.1.n)))

/-- What the comparator sees of an outbound sector (R195): addresses and data. -/
def sectorSeen (t : Team) (c : Copy) (i : Nat) : List (Option Nat × List Byte) := (c.pieces i).map (fun p => (p.addr, readBytes t.scratch p.off p.n))

/-- An older step of the section to a source line of the sector has still to perform (R389), one in the comparator too. -/
def olderSource (s : State) (c : Copy) (i : Nat) : Bool :=
  let line := sectorLine (Block.of c.block) i
  let hits (op : MemOp) : Bool := op.lanes.any (fun x => match x.spot with
    | some (.team tid off) => tid == c.tid && (rangeLines off op.size).contains line
    | _ => false)
  s.remote.any (fun r => r.tid == c.tid && r.role == c.role && decide (r.id < c.id) && hits r.op)
    || (s.sec? c.tid c.role).any (fun x => x.cmp.any (fun o => decide (o.id < c.id) && hits o.op))

/-- A source piece of an outbound sector holds an uncorrected error (R396). -/
def sourceBad (s : State) (t : Team) (c : Copy) (i : Nat) : Bool := (c.pieces i).any (fun p => s.eccAt (.team t.tid p.off) p.n)

/-- The two copies of a dual-run team's outbound copy differ (R195). -/
def copyMismatch (s : State) (t : Team) (c : Copy) (a b : List (Option Nat × List Byte)) : State :=
  let detail : List Byte := match (a.zip b).find? (fun p => p.1 != p.2) with
    | some (x, y) => toBytes 8 (x.1.getD 0) ++ (x.2 ++ toBytes 8 0).take 8 ++ (y.2 ++ toBytes 8 0).take 8
    | none => []
  dmrEnd s t c.role detail

/-- A sector of the primary's outbound copy meets the second copy's in the comparator (R195). -/
def dmrSector (s : State) (die core : Nat) (t : Team) (c : Copy) (i : Nat) : State :=
  match twinCopy s t c with
  | none => s
  | some none => copyMismatch s t c (sectorSeen t c i) []
  | some (some (d', n', c', u)) =>
    if !c'.inCmp.contains i then s
    else if sectorSeen u c' i != sectorSeen t c i then copyMismatch s t c (sectorSeen t c i) (sectorSeen u c' i)
    else match sidesOf s t die core c .store i with
      | none => touchSides s t c .store i
      | some l =>
        let s := s.modCtx t.ctx (fun x => { x with dmrCount := x.dmrCount + 1 })
        let s := (outBytes t l).foldl (fun s x => copyOut s t c x.1 x.2) s
        let leave (s : State) (d n id : Nat) : State := modCopy s d n id (fun x => { x with inCmp := x.inCmp.filter (fun j => j != i) })
        landed (landed (leave (leave s die core c.id) d' n' c'.id) die core c i) d' n' c' i

/-- An outbound sector performs, on a promoted line after every older store of its core (R359); in dual run it waits in the comparator, and
performs once both copies have it, with equal data (R195). -/
def landOut (s : State) (die core : Nat) (t : Team) (c : Copy) (i : Nat) : State :=
  if olderSource s c i || sourceBad s t c i then s
  else match copyTouch s c t.tid [sectorLine (Block.of c.block) i] with
  | .wait s' _ => s'
  | .cmd _ _ => s
  | .ok =>
    match s.sec? c.tid c.role, sidesOf s t die core c .store i with
    | _, none => touchSides s t c .store i
    | some x, some l =>
      let lines := l.flatMap (fun p => (p.2.map Spot.linesOf).getD [])
      if s.promoted lines && (s.coreAt die core).storeBuf.any (fun b => decide (b.id < c.id)) then s
      else if !x.dmr then landed ((outBytes t l).foldl (fun s x => copyOut s t c x.1 x.2) s) die core c i
      else
        let enter (s : State) : State := modCopy s die core c.id (fun y => { y with inCmp := y.inCmp ++ [i] })
        if c.inCmp.contains i then (if t.primary then dmrSector s die core t c i else s)
        else if 64 ≤ s.cmpUsed t x then s
        else if t.primary then dmrSector (enter s) die core t { c with inCmp := c.inCmp ++ [i] } i
        else enter s
    | none, some _ => s

/-- A working entry of a core's queue. -/
def workingCopy (s : State) (die core id : Nat) : Option (Team × Copy) :=
  match (s.coreAt die core).copyq.find? (fun c => c.id == id && c.started && !c.paused) with
  | some c => (s.team? c.tid).map (fun t => (t, c))
  | none => none

/-- SECTOR_LANDING: one sector of a copy lands or performs: data, presence and barrier together (R185). `n` picks among those left. -/
def execSectorLanding (die core copy n : Nat) (s : State) : Res :=
  .next (match workingCopy s die core copy with
    | some (t, c) =>
      if c.form = 2 then s
      else match c.left[n % c.left.length]? with
        | some i => if c.inbound then landIn s die core t c i else landOut s die core t c i
        | none => landed s die core c 0
    | none => s)

/-! ## Pause, resume, stop -/

/-- What the remaining sectors of a copy, or its sparse streams, meet: a page to be resolved, or a fault that stops it. -/
def copyMeets (s : State) (t : Team) (c : Copy) : Option Nat × Bool :=
  let acc : Access := if c.inbound then .load else .store
  let sides := c.left.flatMap (fun i => (c.pieces i).filterMap (fun p => p.addr.map (fun a => s.copySide t c.role acc a p.n (if c.inbound then [] else c.lines))))
  let streams (r : Shape) : List Side := [(sparseRead s t c r).1, (sparseRead s t c r).2].map (fun x => match x with
    | .res v => .res v
    | .bad => .bad
    | .bytes _ => .ok (.phys []) []
    | .wait s => .wait s)
  let all := match c.form, c.shape with
    | 1, some r => if c.begun then [] else streams r
    | 2, _ => []
    | _, _ => sides
  (all.findSome? (fun x => match x with
    | .res v => some v
    | _ => none), all.any (fun x => match x with
    | .bad => true
    | _ => false))

/-- COPY_PAUSE: a page fault that the page home resolves pauses a copy and frees its entry (R117). -/
def execCopyPause (die core copy : Nat) (s : State) : Res :=
  .next (match (s.coreAt die core).copyq.find? (fun c => c.id == copy && !c.paused) with
    | some c => match s.team? c.tid with
      | some t =>
        if c.started || (c.form == 1 && !illFormed s t (c.asRead t.scratch)) then
          match (copyMeets s t (c.asRead t.scratch)).1 with
          | some va => (modCopy s die core copy (fun x => { x with paused := true, started := false })).askHome t.ctx va [(t.tid, copyRole + c.role)]
          | none => s
        else s
      | none => s
    | none => s)

/-- The core's pre-emption has reached its safe point for a team: its sections have left issue (R116). -/
def leftIssue (x : Core) (t : Team) : Bool := x.preempt && t.secs.all (fun c => c.state == .parked || c.state == .exited)

/-- COPY_RESUME: a paused copy whose page has come takes an entry again, behind those in the queue, and starts in its turn (R117, R134); from
the safe point of a pre-emption on it stays paused for its team's image (R116). -/
def execCopyResume (die core copy : Nat) (s : State) : Res :=
  .next (
    let x := s.coreAt die core
    match x.copyq.find? (fun c => c.id == copy && c.paused) with
    | some c => match s.team? c.tid with
      | some t =>
        let shared := decide (sharedUsed x < Config.sharedCopyEntries)
        if (copyMeets s t (c.asRead t.scratch)).1.isSome || leftIssue x t || (!shared && (c.form == 3 || decide (2 ≤ ownUsed x c.tid c.role))) then s
        else s.modCore die core (fun x => { x with copyq := x.copyq.filter (fun y => y.id != copy) ++ [{ c with paused := false, shared := shared }] })
      | none => s
    | none => s)

/-- COPY_STOP: a copy meets a fault that stops it (R396): with cause 0 what the model finds on its memory side, or a source line left
absent or holding an uncorrected error, 1 an uncorrected error in the data read, 2 an error completion of the host link. -/
def execCopyStop (die core copy cause : Nat) (s : State) : Res :=
  .next (match (s.coreAt die core).copyq.find? (fun c => c.id == copy) with
    | some c => match s.team? c.tid with
      | some t =>
        let c := c.asRead t.scratch
        let src := !c.inbound && c.left.any (fun i => sourceBad s t c i || (match copyTouch s c t.tid [sectorLine (Block.of c.block) i] with
          | .cmd _ _ => true
          | _ => false))
        let host := c.left.any (fun i => (c.pieces i).any (fun p => match p.addr with
          | some a => match s.copySide t c.role .load a p.n c.lines with
            | .ok (.phys pas) _ => pas.any (fun y => isHost y.1)
            | _ => false
          | none => false))
        let checked := c.begun || (c.form == 1 && !illFormed s t c)
        if (cause = 0 ∧ checked ∧ ((copyMeets s t c).2 ∨ src)) ∨ (cause = 1 ∧ c.begun) ∨ (cause = 2 ∧ c.begun ∧ host) then dropCopy s die core c else s
      | none => s
    | none => s)

/-! ## The cell reduction -/

/-- One element of the reduction: four tiles' bits summed in the order of the cores (R56, R332). -/
def reduceElem (g : Word) (vs : List Nat) : Nat :=
  let ty := gType g
  match vs with
  | [] => 0
  | v :: r =>
    if tyInt ty then r.foldl (fun a b =>
        ((finInt (tySigned ty) (tyBits ty) (gSat g) (intOpnd (tySigned ty) (tyBits ty) a + intOpnd (tySigned ty) (tyBits ty) b)).1 % (2 ^ tyBits ty : Nat)).toNat) v
    else
      let f := tyFmt ty
      r.foldl (fun a b => (roundSum f (gRM g) (gSatF g) [f.value a, f.value b]).bits) v

/-- The entries of one reduction: each participant's team and entry (R332). -/
def reduceEntries (s : State) (lid key ord : Nat) : List (Team × Copy) :=
  (s.gangTeams lid key).filterMap (fun t =>
    ((s.coreAt t.die t.core).copyq.find? (fun c => c.tid == t.tid && c.form == 2 && c.ordinal == ord)).map (fun c => (t, c)))

/-- A gang that can reduce: four teams of class cell on the four cores of one cell (R332). -/
def cellGang (s : State) (lid key : Nat) : Bool :=
  let ts := s.gangTeams lid key
  ts.length == 4 && (s.launch? lid).any (fun l => l.pkt.lat == 0)
    && (match ts with
      | t :: _ => ts.all (fun u => u.die == t.die && u.core / 4 == t.core / 4)
      | [] => false)
    && (List.range 4).all (fun n => ts.any (fun t => t.core % 4 == n))

/-- TREDUCE_COMPLETE: the oldest reduction of a gang that all four have issued completes; one that breaks a requirement, or that a
participant has left unmatched, is dropped by all (R332). -/
def execTreduceComplete (lid gang : Nat) (s : State) : Res :=
  .next (
    let ts := s.gangTeams lid gang
    let ords := ts.flatMap (fun t => ((s.coreAt t.die t.core).copyq.filter (fun c => c.tid == t.tid && c.form == 2)).map Copy.ordinal)
    match least ords with
    | none => s
    | some ord =>
      let es := reduceEntries s lid gang ord
      let dropAll : State := es.foldl (fun s e => haltDrop s e.1.die e.1.core e.2) s
      if es.any (fun e => !e.2.started) then s
      else if !cellGang s lid gang || ts.any (fun t => t.bank == .gone && decide (t.treduces ≤ ord)) then dropAll
      else if es.length < 4 then (if ts.any (fun t => decide (ord < t.treduces) && !es.any (fun e => e.1.tid == t.tid)) then dropAll else s)
      else match es with
        | [] => s
        | e0 :: _ =>
          let b0 := Block.of e0.2.block
          let mode (c : Copy) : Nat := bits c.gmode.toNat 4 9
          if es.any (fun e => (Block.of e.2.block).bytes != b0.bytes || mode e.2 != mode e0.2) then dropAll
          else if es.any (fun e => (copyLines (Block.of e.2.block) none).any (fun l => s.eccAt (.team e.1.tid (128 * l)) 128)) then
            -- an uncorrected error in a source tile stops the copies that read it (R396)
            es.foldl (fun s e => dropCopy s e.1.die e.1.core e.2) s
          else if es.any (fun e => match copyTouch s e.2 e.1.tid (copyLines (Block.of e.2.block) none) with
              | .ok => false
              | _ => true) then s
          else
            let e := if tyInt (gType e0.2.gmode) then tyBits (gType e0.2.gmode) / 8 else (tyFmt (gType e0.2.gmode)).width / 8
            let tile (n : Nat) : Option (Team × Copy) := es.find? (fun x => x.1.core % 4 == n)
            let at_ (n j : Nat) : Nat := match tile n with
              | some x => readNat x.1.scratch ((Block.of x.2.block).soff + e * j) e
              | none => 0
            let sum := (List.range (b0.bytes / e)).flatMap (fun j => toBytes e (reduceElem e0.2.gmode ((List.range 4).map (fun n => at_ n j))))
            let land (s : State) (x : Team × Copy) : State :=
              let off := bits (Block.of x.2.block).gaddr 0 32
              let s := fillBytes s x.2 x.1.tid (sum.mapIdx (fun j v => (off + j, v)))
              let s := overtake s x.1.die x.1.core x.2 ((List.range b0.bytes).map (fun j => off + j))
              let s := x.2.left.foldl (fun s _ => copyBar s x.2 (fun b => b.sectors (-1))) (lineDone s x.2 x.2.lines)
              copyDone s x.1.die x.1.core x.2
            es.foldl land s)

/-! ## Bound windows -/

/-- Ranges of lines overlap. -/
def linesMeet (a n b m : Nat) : Bool := decide (a < b + m ∧ b < a + n)

/-- bind (R333, R163). -/
def execBind (a : Sel) (s : State) : Res :=
  let src (k : Iss) : DWord := k.th.kpair (uniNo a)
  let soff (k : Iss) : Nat := (k.th.kreg (uniNo a + 2)).toNat
  let lines (k : Iss) : Nat := (k.th.kreg (uniNo a + 3)).toNat
  let free (k : Iss) : Option Nat := (List.range 32).find? (fun i => (s.coreAt k.team.die k.team.core).regions.all (fun e => e.1 != i))
  sectionForm (.bind a) s (fun k => k.rec?.isSome ||
      (decide (addrClass (src k).toNat ≤ 1) && addrZeros (src k).toNat && decide ((src k).toNat % 128 = 0) && decide (soff k % 128 = 0)
        && decide (1 ≤ lines k ∧ lines k ≤ 2560) && (free k).isSome && k.team.inScratch (soff k) (128 * lines k)
        && (s.coreAt k.team.die k.team.core).regions.all (fun e =>
            e.2.tid != k.team.tid || e.2.done || !linesMeet (e.2.soff / 128) e.2.lines (soff k / 128) (lines k))))
    (fun _ => ⟨true, [], [(a, 4)]⟩) (fun k =>
    match free k with
    | none => s
    | some i =>
      let r : Region := { src := src k, soff := soff k, v := true, fired := false, done := false, tid := k.team.tid, lines := lines k }
      let bindLine (u : Team) (l : Nat) : Team := u.setLine l { (u.line l) with bound := true }
      let s := (pass k s).modTeam k.team.tid (fun u => (rangeLines (soff k) (128 * lines k)).foldl bindLine u)
      s.modCore k.team.die k.team.core (fun x => { x with regions := tset ⟨0, 0, false, false, false, 0, 0⟩ x.regions i r }))

/-- unbind (R334, R107). -/
def execUnbind (a : Sel) (s : State) : Res :=
  let entry (k : Iss) : Option (Nat × Region) := (s.coreAt k.team.die k.team.core).regions.find? (fun e =>
    e.2.v && e.2.tid == k.team.tid && e.2.soff == (k.th.kreg (uniNo a)).toNat)
  sectionForm (.unbind a) s (fun k => k.rec?.isSome || (entry k).isSome) (fun _ => ⟨true, [], [(a, 1)]⟩) (fun k =>
    match entry k with
    | none => s
    | some (i, r) =>
      if (s.coreAt k.team.die k.team.core).copyq.any (fun c => c.form == 3 && c.tid == k.team.tid && c.region == some i) then waitOn k s .copyEntry .again
      else
        -- lines bound now in the range of an entry that has fired are another entry's (R163)
        let own := if r.fired then [] else rangeLines r.soff (128 * r.lines)
        let free (u : Team) (l : Nat) : Team := u.setLine l { (u.line l) with bound := false }
        let s := (pass k s).modTeam k.team.tid (fun u => own.foldl free u)
        s.modCore k.team.die k.team.core (fun x => { x with regions := x.regions.filter (fun e => e.1 != i) }))

end Sys2Proof.Machine
end

