-- ==== Sys2Proof/Machine/Cupola.lean ====
section
/-!
DEFINITION. The cupola: composite records, the doorbell, binary-swap rounds, and its halt (R326, R327).
-/

namespace Sys2Proof.Machine

/-- A die-scratchpad range of a context: the generic address is of window 0xF8 and every block it lies in is the context's (R94, R96). -/
def State.dieRange (s : State) (ctx a n : Nat) : Bool :=
  let off := bits a 0 25
  decide (addrClass a = 1) && addrZeros a && (s.partDies (s.ctxAt ctx).part).contains (bits a 54 2) && decide (off + n ≤ Config.dieScratchBytes)
    && (List.range ((off + n + 65535) / 65536 - off / 65536)).all (fun i =>
      tget none (s.dieAt (bits a 54 2)).owners (off / 65536 + i) == some ctx && decide (off / 65536 + i ≠ 511))

/-- Bytes of die scratchpad at a generic address. -/
def State.dieRead (s : State) (a n : Nat) : List Byte := readBytes (s.dieAt (bits a 54 2)).scratch (bits a 0 25) n
/-- Writing them. -/
def State.dieWrite (s : State) (a : Nat) (bs : List Byte) : State :=
  s.modDie (bits a 54 2) (fun d => { d with scratch := writeBytes d.scratch (bits a 0 25) bs })

/-- The participant words of a record (R326): global memory or die scratchpad of the context. -/
def State.partWords (s : State) (ctx a n : Nat) : Option (List Byte) :=
  if addrClass a = 0 ∧ addrZeros a = true then
    (List.range n).foldl (fun (acc : Option (List Byte)) i => match acc, s.translateNow ctx .load (a + i) with
      | some l, .ok pa _ => some (l ++ s.homeRead pa 1)
      | _, _ => none) (some [])
  else if s.dieRange ctx a n then some (s.dieRead a n)
  else none

/-- Bytes of an image of so many pixels. -/
def imageBytes (npix : Nat) : Nat := 12 * npix

/-- The composite that a record's 64 bytes ask of a die (R326); none for an ill-formed one, as one whose RANK is another participant's, or one
whose addresses or participants the context does not have (R327). -/
def Composite.of (s : State) (ctx die : Nat) (rcd : List Byte) : Option Composite :=
  let v := ofBytes rcd
  let npix := bits v 128 32
  let log2n := bits v 168 8
  let src := bits v 0 64
  let dst := bits v 64 64
  let done := bits v 256 64
  if bits v 192 64 ≠ 0 ∨ bits v 384 128 ≠ 0 ∨ 2 ≤ bits v 160 8 ∨ 4 < log2n ∨ 2 ^ log2n ≤ bits v 176 8 ∨ 2 ≤ bits v 184 8
      ∨ npix % (16 * 2 ^ log2n) ≠ 0 ∨ s.dieRange ctx src (imageBytes npix) = false ∨ s.dieRange ctx dst (imageBytes npix) = false
      ∨ s.dieRange ctx done 8 = false then none
  else
    match s.partWords ctx (bits v 320 64) (4 * 2 ^ log2n) with
    | none => none
    | some ws =>
      let word (i : Nat) : Nat := ofBytes ((ws.drop (4 * i)).take 4)
      let parts := (List.range (2 ^ log2n)).map (fun i => (bits (word i) 0 16, bits (word i) 16 2))
      let there (p : Nat × Nat) : Bool := if p.1 = 0xFFFF then (s.partDies (s.ctxAt ctx).part).contains p.2 else s.peers.contains p.1
      if (List.range (2 ^ log2n)).any (fun i => decide (bits (word i) 18 14 ≠ 0)) || !parts.all there || parts[bits v 176 8]? != some (0xFFFF, die) then none
      else some { ctx := ctx, src := BitVec.ofNat 64 src, dst := BitVec.ofNat 64 dst, npix := npix, mode := bits v 160 8, log2n := log2n
                  rank := bits v 176 8, gather := bits v 184 8 == 1, done := BitVec.ofNat 64 done, parts := parts, record := rcd
                  round := 0, lo := 0, span := npix, image := writeBytes [] 0 (s.dieRead src (imageBytes npix)), finished := false }

/-- CUPOLA_HALT (R327): 2 to a valid DONE, a CMD record with the record's first half, and no further record. -/
def cupolaStop (s : State) (die ctx : Nat) (rcd : List Byte) : State :=
  let done := bits (ofBytes rcd) 256 64
  let s := if s.dieRange ctx done 8 then s.dieWrite done (toBytes 8 2) else s
  let s := s.modDie die (fun d => { d with cupolaHalt := true })
  s.post { recOf 0x20 ctx with die := die, detail := rcd.take 32 }

/-- CUPOLA_DOORBELL: the oldest store to a die's doorbell word starts its record (R326); with bit 0 clear it starts nothing. -/
def execCupolaDoorbell (die : Nat) (s : State) : Res :=
  .next (match (s.dieAt die).doorbell, (s.dieAt die).cupolaHalt with
    | (ctx, v) :: r, false =>
      let s := s.modDie die (fun d => { d with doorbell := r })
      let a := 0xF8 * 2 ^ 56 + die * 2 ^ 54 + (v - 1)
      if v % 2 = 0 ∨ (s.ctxAt ctx).ended = true then s
      else if (v - 1) % 64 ≠ 0 ∨ s.dieRange ctx a 64 = false then cupolaStop s die ctx []
      else
        let rcd := s.dieRead a 64
        match Composite.of s ctx die rcd with
        | none => cupolaStop s die ctx rcd
        | some c => s.modDie die (fun d => { d with cupola := d.cupola ++ [c] })
    | _, _ => s)

/-! ## Rounds -/

/-- A pixel's colour and depth in an image of so many pixels. -/
def pixColour (img : Table Byte) (p : Nat) : Nat := readNat img (8 * p) 8
def pixDepth (img : Table Byte) (npix p : Nat) : Nat := readNat img (8 * npix + 4 * p) 4

/-- The order of depths for the merge: larger wins; a NaN loses to none and wins over none, so that the front stays. -/
def deeper (a b : Nat) : Bool := fCond 4 (Fmt.f32.value a) (Fmt.f32.value b)

/-- One channel of MODE 1 (R327). -/
def overChan (f b fa : Nat) : Nat :=
  let one : FVal := .fin false Q.one
  (roundSum .h16 .rne .narrow [Fmt.h16.value f, (mulF (Fmt.h16.value b) (sumF .rne [one, (Fmt.h16.value fa).neg])).1]).bits

/-- A merged pixel (R327): colour and depth, the front given first. -/
def mergePixel (mode : Nat) (cf df cb db : Nat) : Nat × Nat :=
  if mode = 0 then (if deeper db df then (cb, db) else (cf, df))
  else ((List.range 4).foldl (fun a c => a + overChan (bits cf (16 * c) 16) (bits cb (16 * c) 16) (bits cf 48 16) * 2 ^ (16 * c)) 0,
        if deeper db df then db else df)

/-- The half of its span that a rank keeps in its round (R327). -/
def Composite.half (c : Composite) : Nat × Nat :=
  let n := c.span / 2
  (if bits c.rank c.round 1 = 0 then c.lo else c.lo + n, n)

/-- A rank's round with its partner's image: its half merged (R327). -/
def Composite.merged (c : Composite) (other : Table Byte) : Composite :=
  let h := c.half
  let low := bits c.rank c.round 1 == 0
  let img := (List.range h.2).foldl (fun (a : Table Byte) i =>
    let p := h.1 + i
    let mine := (pixColour c.image p, pixDepth c.image c.npix p)
    let his := (pixColour other p, pixDepth other c.npix p)
    let m := if low then mergePixel c.mode mine.1 mine.2 his.1 his.2 else mergePixel c.mode his.1 his.2 mine.1 mine.2
    writeNat (writeNat a (8 * p) 8 m.1) (8 * c.npix + 4 * p) 4 m.2) ([] : Table Byte)
  { c with image := img, round := c.round + 1, lo := h.1, span := h.2 }

/-- A span of an image written at a DST (R327). -/
def State.putSpan (s : State) (dst : Nat) (c : Composite) (img : Table Byte) (lo n : Nat) : State :=
  let s := s.dieWrite (dst + 8 * lo) (readBytes img (8 * lo) (8 * n))
  s.dieWrite (dst + 8 * c.npix + 4 * lo) (readBytes img (8 * c.npix + 4 * lo) (4 * n))

/-- A composite of a die replaced or removed. -/
def State.setComp (s : State) (die i : Nat) (c : Option Composite) : State :=
  s.modDie die (fun d => { d with cupola := match c with
    | some c => d.cupola.set i c
    | none => d.cupola.eraseIdx i })

/-- The composite of this device under way for a rank of the same context (R327): die and place in its list. -/
def State.rankComp (s : State) (c : Composite) (rank : Nat) : Option (Nat × Nat × Composite) :=
  let p := c.parts.getD rank (0, 0)
  let l := (s.dieAt p.2).cupola
  (l.findIdx? (fun x => x.ctx == c.ctx && x.rank == rank && (x.rank != c.rank))).bind (fun i => l[i]?.map (fun x => (p.2, i, x)))

/-- Two records of one composite agree (R326). -/
def Composite.agrees (a b : Composite) : Bool := a.npix == b.npix && a.mode == b.mode && a.log2n == b.log2n && a.parts == b.parts

/-- A composite's part is complete (R327). -/
def compDone (s : State) (c : Composite) : State := s.dieWrite c.done.toNat (toBytes 8 1)

/-- The end of a rank's rounds (R327): its span stands at its DST; with GATHER 1 rank 0 also receives every other span, those of
peers by `peer`, in the layout of DST. -/
def compEnd (s : State) (die i : Nat) (c : Composite) (peer : Table Byte) : State :=
  let own := s.putSpan c.dst.toNat c c.image c.lo c.span
  let here (r : Nat) : Bool := (c.parts.getD r (0, 0)).1 == 0xFFFF
  if !c.gather || decide (c.log2n = 0) then (compDone own c).setComp die i none
  else if c.rank ≠ 0 then
    if c.finished then s else (compDone own c).setComp die i (if here 0 then some { c with finished := true } else none)
  else
    let others := (List.range (2 ^ c.log2n)).filter (fun r => r != 0)
    let got := others.map (fun r => if here r then (s.rankComp c r).bind (fun x => if x.2.2.finished then some (r, x) else none)
      else some (r, (0, 0, c)))
    if got.any Option.isNone then s
    else
      -- the span of rank r is the one whose index is r with its bits reversed
      let index (r : Nat) : Nat := (List.range c.log2n).foldl (fun a b => 2 * a + bits r b 1) 0
      let n := c.npix / 2 ^ c.log2n
      let s := others.foldl (fun s r =>
        let img := if here r then ((s.rankComp c r).map (fun x => x.2.2.image)).getD [] else peer
        s.putSpan c.dst.toNat c img (index r * n) n) own
      let s := (compDone s c).setComp die i none
      others.foldl (fun s r => match s.rankComp c r with
        | some (d, j, x) => if here r && x.finished then s.setComp d j none else s
        | none => s) s

/-- Records of two participants that do not agree make their composite ill-formed for both (R326, R327). -/
def cupolaSplit (s : State) (die i : Nat) (c : Composite) (d j : Nat) (x : Composite) : State :=
  let s := (s.setComp die i none).setComp d (if d = die ∧ i < j then j - 1 else j) none
  cupolaStop (cupolaStop s die c.ctx c.record) d x.ctx x.record

/-- CUPOLA_ROUND: composite `idx` of a die takes one round with its partner, which takes it too, or ends (R327); a halt keeps only further
records from starting. `peer` holds a peer device's image by offset, in the layout of SRC. -/
def execCupolaRound (die idx : Nat) (peer : List Host.Cell) (s : State) : Res :=
  .next (match (s.dieAt die).cupola[idx]? with
    | some c =>
      let img := tsets 0 [] peer
      if c.log2n ≤ c.round then compEnd s die idx c img
      else
        let q := Nat.xor c.rank (2 ^ c.round)
        if (c.parts.getD q (0, 0)).1 ≠ 0xFFFF then s.setComp die idx (some (c.merged img))
        else match s.rankComp c q with
        | none => s
        | some (d, j, x) =>
          if !c.agrees x then cupolaSplit s die idx c d j x
          else if x.round ≠ c.round then s
          else (s.setComp die idx (some (c.merged x.image))).setComp d j (some (x.merged c.image))
    | none => s)

end Sys2Proof.Machine
end

