-- ==== Sys2Proof/Machine/System.lean ====
section
/-!
DEFINITION. The system registers (R70 to R74): what a read returns, who may write, what a write does; mfs and mts (R241, R242).
-/

namespace Sys2Proof.Machine

def stateCode : SecState → Nat
  | .running => 0
  | .waiting => 1
  | .ejectedPending => 2
  | .handler => 3
  | .held => 4
  | .parked => 5
  | .exited => 6

def waitCode : WaitOn → Nat
  | .none => 0
  | .waitc => 1
  | .tbwait => 2
  | .bar => 3
  | .absent => 4
  | .heldLoad => 5
  | .sideLog => 6
  | .fmtEmu => 7
  | .copyEntry => 8
  | .mfs => 9
  | .preempt => 10

/-- Ejected lanes of a section are pending (R73). -/
def State.ejected (s : State) (t : Team) (role : Nat) : Bool :=
  (s.coreAt t.die t.core).lantern.any (fun r => r.tid == t.tid && r.role == role) || t.recs.any (fun r => r.role == role)

/-- SSTAT (R73). -/
def sstat (s : State) (t : Team) (c : Section) : DWord :=
  BitVec.ofNat 64 (stateCode c.state + stateCode c.prev * 2 ^ 4 + b2n c.hmode * 2 ^ 7 + b2n (s.ejected t c.role) * 2 ^ 10
    + c.role * 2 ^ 18 + c.parkWhy.toNat * 2 ^ 20 + b2n c.holdReq * 2 ^ 22 + b2n c.redir * 2 ^ 23 + b2n c.replay * 2 ^ 24
    + b2n c.det * 2 ^ 25 + b2n c.dmr * 2 ^ 26 + b2n c.idem * 2 ^ 27 + waitCode c.waitOn * 2 ^ 28 + c.bkLevel.toNat * 2 ^ 32
    + b2n c.step * 2 ^ 37 + c.stepLane.toNat * 2 ^ 38 + c.stepGrp.toNat * 2 ^ 43)

/-- The summary word of TRAPMASK, and its mask words (R80). -/
def trapMaskReg (c : Section) (r : Nat) : Word := if r = 0x3F then maskSummary c.trapMask else maskWord c.trapMask (r - 0x40)

/-- The value of a system register of a context or of the device (R70); none for one of a section or lane. -/
def ctxReg (s : State) (ctx r : Nat) : Option DWord :=
  let x := s.ctxAt ctx
  if r = 0x10 then some x.uimask
  else if r = 0x11 then some x.uipend
  else if r = 0x12 then some (x.uivec.setWidth 64)
  else if r = 0x13 then some x.uipay
  else if r = 0x14 then some x.uientry
  else if r = 0x1A then some s.wall
  else if r = 0x1B then some s.cycle
  else if 0x28 ≤ r ∧ r ≤ 0x2F then some (tget 0 x.bkpt (r - 0x28))
  else if 0x30 ≤ r ∧ r ≤ 0x33 then some (tget 0 x.wpt (r - 0x30))
  else if 0x80 ≤ r ∧ r ≤ 0xBF then some (tget 0 x.uivpay (r - 0x80))
  else if 0xC0 ≤ r ∧ r ≤ 0xFF then
    some (BitVec.ofNat 64 ((tget 0 x.uicount (r - 0xC0)).toNat + b2n (tget false x.uiwake (r - 0xC0)) * 2 ^ 31))
  else none

/-- The value of a system register of a section (R70); LANE and GROUP for lane index `l`. -/
def secReg (s : State) (t : Team) (c : Section) (l r : Nat) : DWord :=
  let w (v : Word) : DWord := v.setWidth 64
  let n (v : Nat) : DWord := BitVec.ofNat 64 v
  if r = 0x00 then sstat s t c
  else if r = 0x01 then c.th.pc
  else if r = 0x02 then w c.th.gmode
  else if r = 0x03 then w c.th.fpflags
  else if r = 0x04 then n ((c.stack.head?.map Entry.jc).getD 0)
  else if r = 0x08 then w c.trapCode
  else if r = 0x09 then c.trapPc
  else if r = 0x0A then c.trapAddr
  else if r = 0x0B then w c.trapAux
  else if r = 0x18 then c.stimer
  else if r = 0x19 then c.stalarm
  else if 0x20 ≤ r ∧ r ≤ 0x24 then n (counter c (r - 0x20))
  else if 0x3F ≤ r ∧ r ≤ 0x5F then w (trapMaskReg c r)
  else if r = 0x60 then n (l % 32)
  else if r = 0x61 then n (l / 32)
  else if r = 0x62 then n t.index
  else if r = 0x63 then n t.rank
  else if r = 0x64 then n t.core
  else if r = 0x65 then n (t.core / 4)
  else if r = 0x66 then n t.die
  else 0

/-- The value of a system register as a section's lane `l` reads it (R70). -/
def sysReg (s : State) (t : Team) (c : Section) (l r : Nat) : DWord := (ctxReg s t.ctx r).getD (secReg s t c l r)

/-- Rights of R71: a read. -/
def mayRead (r : Nat) (hmode : Bool) : Bool := if 0x28 ≤ r ∧ r ≤ 0x33 then hmode else true

/-- Rights of R71: a write by MTS. -/
def mayWrite (r : Nat) (hmode : Bool) : Bool :=
  if r = 0x02 ∨ r = 0x03 ∨ r = 0x10 ∨ r = 0x11 ∨ r = 0x14 ∨ r = 0x19 ∨ (0xC0 ≤ r ∧ r ≤ 0xFF) then true
  else if r = 0x09 ∨ (0x3F ≤ r ∧ r ≤ 0x5F) ∨ (0x28 ≤ r ∧ r ≤ 0x33) then hmode
  else false

/-- A value a register may take (R62, R46, R80, R90, R91, R71, R5). -/
def sysValueOk (c : Section) (r : Nat) (v : DWord) : Bool :=
  let w := v.toNat
  if r = 0x02 then gmodeOk (v.setWidth 32)
  else if r = 0x03 then decide (w % 2 ^ 32 < 64)
  else if r = 0x09 then decide (w % 4 = 0)
  else if 0x28 ≤ r ∧ r ≤ 0x2F then decide (bits w 49 13 = 0 ∧ bits w 0 2 = 0)
  else if 0x30 ≤ r ∧ r ≤ 0x33 then decide (bits w 49 6 = 0 ∧ bits w 0 49 % 2 ^ bits w 55 5 = 0)
  else if r = 0x3F then v.setWidth 32 == trapMaskReg c r
  else if 0x40 ≤ r ∧ r ≤ 0x5F then (v.setWidth 32 : Word) &&& ~~~(trapMaskReg c r) == 0
  else if 0xC0 ≤ r ∧ r ≤ 0xFF then decide (bits w 16 15 = 0)
  else true

/-- TRAPMASK with one word replaced (R80). -/
def setMaskWord (m : Mask) (g : Nat) (w : Word) : Mask := (m &&& ~~~(groupMask g)) ||| ((w.setWidth 1024 : Mask) <<< (32 * g))

/-- An alarm's deadline has passed (R88). -/
def alarmPassed (s : State) (c : Section) : Bool :=
  let t := if c.stalarm.getLsbD 62 then s.wall else c.stimer
  c.stalarm.getLsbD 63 && decide (c.stalarm.toNat % 2 ^ 62 ≤ t.toNat % 2 ^ 62)

/-- A write of a system register that a section may write (R70, R242). -/
def sysSet (s : State) (t : Team) (role r : Nat) (v : DWord) : State :=
  let w : Word := v.setWidth 32
  let own (f : Section → Section) : State := s.modSec t.tid role f
  let ctx (f : Context → Context) : State := s.modCtx t.ctx f
  if r = 0x02 then own (fun c => { c with th := { c.th with gmode := w } })
  else if r = 0x03 then own (fun c => { c with th := { c.th with fpflags := w } })
  else if r = 0x09 then own (fun c => { c with trapPc := v, redir := true })
  else if r = 0x10 then ctx (fun x => { x with uimask := v })
  else if r = 0x11 then ctx (fun x => { x with uipend := x.uipend &&& ~~~v })
  else if r = 0x14 then ctx (fun x => { x with uientry := v, uilaunch := some t.lid })
  else if r = 0x19 then own (fun c => let c := { c with stalarm := v }; { c with alarmDue := alarmPassed s c })
  else if 0x28 ≤ r ∧ r ≤ 0x2F then ctx (fun x => { x with bkpt := tset 0 x.bkpt (r - 0x28) v })
  else if 0x30 ≤ r ∧ r ≤ 0x33 then ctx (fun x => { x with wpt := tset 0 x.wpt (r - 0x30) v })
  else if 0x40 ≤ r ∧ r ≤ 0x5F then own (fun c => { c with trapMask := setMaskWord c.trapMask (r - 0x40) w })
  else if 0xC0 ≤ r ∧ r ≤ 0xFF then ctx (fun x => { x with uiwake := tset false x.uiwake (r - 0xC0) (v.getLsbD 31) })
  else s

/-- A read by MFS: an ejected lane reads its record's GMODE, and its record's flags with the section's (R241). -/
def mfsValue (s : State) (k : Iss) (l r : Nat) : DWord :=
  if k.th.ejected && r == 0x02 then k.th.gmode.setWidth 64
  else if k.th.ejected && r == 0x03 then (k.th.fpflags ||| k.sec.th.fpflags).setWidth 64
  else sysReg s k.team k.sec l r

/-- mfs (R241). -/
def execMfs (n : Bool) (d r : BitVec 8) (s : State) : Res :=
  let w := (sysWidth r.toNat).getD false
  guardedForm (.mfs n d r) s (fun _ => true) (fun _ => ⟨n, [wsel w d], []⟩)
    (fun k => k.th.putResult n w k.path k.act d (fun _ => 0)) (fun k =>
    if !mayRead r.toNat k.sec.hmode then raise k s ⟨cPROT, k.act, 0, 0⟩
    else retireWith k s (k.th.putResult n w k.path k.act d (fun l => mfsValue s k l r.toNat)).advance)

/-- mts (R242). -/
def execMts (x : Sel) (r : BitVec 16) (s : State) : Res :=
  let w := (sysWidth r.toNat).getD false
  let value (k : Iss) : DWord := BitVec.ofNat 64 (k.th.src w ((k.th.lowest k.act).getD 0) x)
  guardedForm (.mts x r) s (fun k => k.rec?.isSome || sysValueOk k.sec r.toNat (value k)) (fun k => usesUnlatched k ⟨true, [], [wsel w x]⟩)
    (fun k => k.th) (fun k =>
    match k.rec? with
    | some _ => raise k s ⟨cUNIFORM, k.act, 0, 0⟩
    | none =>
      if !mayWrite r.toNat k.sec.hmode then raise k s ⟨cPROT, k.act, 0, 1⟩
      else sysSet (pass k s) k.team k.sec.role r.toNat (value k))

end Sys2Proof.Machine
end

