-- ==== Sys2Proof/Machine/Traps.lean ====
section
/-!
DEFINITION. Boundaries and what is taken there (R76): steps and holds (R92, R93), breakpoints (R90), alarms (R88), deliveries
(R85); the ways back from a handler (R80, R344); trap, brkpt, assert, hold, idem, uisend (R341 to R347, R376).
-/

namespace Sys2Proof.Machine

/-! ## Boundaries -/

/-- A section is resident: its team is in the active bank and the section neither parked nor exited. -/
def resident (t : Team) (c : Section) : Bool := t.bank == .active && c.state != .parked && c.state != .exited

/-- A section at a boundary in a state that takes alarms and deliveries (R76, R85), also one whose mask is empty while ejected lanes
remain (R18, R74): its handler then runs for no lane (log entry 102). -/
def atBoundary (t : Team) (c : Section) : Bool :=
  resident t c && !c.hmode && !underWay c && !c.stepDone && !c.stepping && !c.holdDue
    && (c.state == .running || c.state == .waiting || c.state == .ejectedPending)

/-- A section is held (R92): it leaves issue, its latches are invalid, a delay of backoff is over; a step that waited at its instruction
is over too. -/
def holdNow (c : Section) : Section :=
  { c with state := .held, prev := c.state, holdDue := false, delayed := false, stepping := false, granted := [], th := c.th.killLatches }

/-- A request to hold a section (R75, R76, R92): at once at a boundary, at the next one otherwise, at its restore when it is
parked. A step that waits stands at a boundary (R348). -/
def requestHold (c : Section) : Section :=
  match c.state with
  | .exited | .held => c
  | .parked => { c with holdReq := true }
  | _ => if underWay c || c.stepDone || (c.stepping && c.state != .waiting) then { c with holdDue := true } else holdNow c

/-- PREV of a section that comes back from held or parked, or from its handler (R75): a wait is evaluated again. -/
def comeBack (p : SecState) (c : Section) : Section :=
  match p with
  | .ejectedPending => { c with state := .ejectedPending, waitOn := .none, waitFor := .again }
  | .held => { c with state := .held, waitOn := .none, waitFor := .again }
  | .handler => { c with state := .handler, waitOn := .none, waitFor := .again }
  | _ => { c with state := readyState c, waitOn := .none, waitFor := .again }

/-! ## The way back from a handler -/

/-- Arrivals whose phase is over count for a section that comes back to their barrier only (R337, R348). -/
def keepArrivals (c : Section) : Section := { c with arrived := c.arrived.filter (fun a => !a.2.2.2 || standsAt c a.1) }

/-- The end of handler mode (R80, R344): stack top and GMODE restored, HMODE and REDIR clear, latches invalid, PREV. `nb`: no breakpoint
matches on the next issue. -/
def leaveHandler (h : HandlerState) (pc : DWord) (retry : Option Mask) (nb : Bool) (c : Section) : Section :=
  keepArrivals (comeBack h.prev { c with
    stack := c.stack.drop (c.stack.length - h.depth)
    hmode := false
    redir := false
    hs := none
    noBkpt := nb
    delayed := false
    retry := retry
    th := { c.th.killLatches with path := h.path, gmode := h.gmode, pc := pc } })

/-- The join count of a section that returned to a JOIN is checked, and groups that ended in the meantime are freed (R75, R82). -/
def afterHandler (s : State) (tid role : Nat) : State := freeGroups (s.recheckJoin tid role) tid

/-- SKIP's continuation (R80, R251). -/
def skipTo (k : Iss) (s : State) (h : HandlerState) : State :=
  let c := k.sec
  let back (pc : DWord) : State := afterHandler (modOwn k s (leaveHandler h pc none true)) k.team.tid c.role
  match h.skip with
  | .next => back (c.trapPc + 4)
  | .to pc => back pc
  | .ret => (modOwn k s (fun c => { leaveHandler h c.trapPc none true c with th := { (leaveHandler h c.trapPc none true c).th with path := 0 } })).endPathOf k.team.tid c.role

/-- A handler entered by a trap, an alarm or a break (R344). -/
def trapEntered (c : Section) : Bool := c.hs.any (fun h => h.how != .ui)

/-- resume (R80, R344). -/
def execResume (s : State) : Res :=
  returnForm .resume s (fun k => k.sec.hmode && trapEntered k.sec) (fun k =>
    match k.sec.hs with
    | none => s
    | some h =>
      let s := retire k s
      let rest := match h.retry with
        | some m => k.sec.trapMask &&& m &&& h.path
        | none => k.sec.trapMask &&& h.path
      if k.sec.redir then afterHandler (modOwn k s (leaveHandler h k.sec.trapPc none true)) k.team.tid k.sec.role
      else if h.prev = .ejectedPending then afterHandler (modOwn k s (leaveHandler h k.sec.trapPc none true)) k.team.tid k.sec.role
      else if rest = 0 then skipTo k s h
      else afterHandler (modOwn k s (leaveHandler h k.sec.trapPc (if rest = h.path then none else some rest) true)) k.team.tid k.sec.role)

/-- skip (R80, R344). -/
def execSkip (s : State) : Res :=
  returnForm .skip s (fun k => k.sec.hmode && trapEntered k.sec) (fun k =>
    match k.sec.hs with
    | none => s
    | some h =>
      let s := retire k s
      if k.sec.redir then afterHandler (modOwn k s (leaveHandler h k.sec.trapPc none true)) k.team.tid k.sec.role
      else skipTo k s h)

/-- uiret (R344): the instruction at the boundary issues as it would have, a breakpoint there with it (R80, R90). -/
def execUiret (s : State) : Res :=
  returnForm .uiret s (fun k => k.sec.hmode && !trapEntered k.sec) (fun k =>
    match k.sec.hs with
    | none => s
    | some h => afterHandler (modOwn k (retire k s) (leaveHandler h h.pc h.retry h.noBkpt)) k.team.tid k.sec.role)

/-! ## trap, brkpt, assert, hold -/

/-- trap (R341). -/
def execTrap (c : BitVec 8) (s : State) : Res :=
  guardedForm (.trap c) s (fun _ => true) (fun _ => ⟨true, [], []⟩) (fun k => k.th) (fun k =>
    raise k s ⟨cSOFTTRAP, k.act, 0, c.setWidth 32⟩)

/-- brkpt (R342): on the lantern the lane is recalled first (R328). -/
def execBrkpt (s : State) : Res :=
  pathForm .brkpt s (fun _ => true) (fun _ => ⟨true, [], []⟩) (fun k =>
    let x : Trap := ⟨cBREAK, k.path, k.th.pc, 8⟩
    match k.rec? with
    | none => holdWith (pass k s) k.team k.sec.role x
    | some _ =>
      if !mayTrap k s then s
      else
        let s := (recallQuiet k s).modSec k.team.tid k.sec.role (fun c => { c with th := c.th.advance })
        holdWith s k.team k.sec.role x)

/-- assert (R343): every section of the context is held, and a record of kind 0x40 written. -/
def execAssert (a : Sel) (s : State) : Res :=
  guardedForm (.assert a) s (fun _ => true) (fun k => usesUnlatched k ⟨true, [], [(a, 2)]⟩) (fun k => k.th) (fun k =>
    let ptr := k.th.kpair (uniNo a)
    let low := (k.th.lowest k.act).getD 0
    let x : Trap := ⟨cASSERT, k.act, ptr, BitVec.ofNat 32 low⟩
    let s := modOwn k (pass k s) (fun c => recordTrap c k.th.pc x)
    let all (t : Team) : Team := if t.ctx = k.team.ctx then { t with secs := t.secs.map requestHold } else t
    let s : State := { s with teams := s.teams.map all }
    s.post (debugRec k.team k.sec.role cASSERT ptr))

/-- hold (R347). -/
def execHold (s : State) : Res :=
  sectionForm .hold s (fun _ => true) (fun _ => ⟨true, [], []⟩) (fun k =>
    (modOwn k (pass k s) requestHold).post (debugRec k.team k.sec.role 0 k.th.pc))

/-! ## idem -/

/-- idem enter (R346). -/
def execIdemEnter (s : State) : Res :=
  sectionForm .idemEnter s (fun k => k.rec?.isSome || (!k.sec.idem && k.sec.stack.isEmpty && !k.sec.hmode)) (fun _ => ⟨true, [], []⟩) (fun k =>
    let r : IdemRec := { k := (List.range 16).map k.th.kreg, gmode := k.th.gmode, fpflags := k.th.fpflags, path := k.th.path, pc := k.th.pc + 4 }
    modOwn k (pass k s) (fun c => { c with idem := true, idemRec := some r }))

/-- idem leave (R346). -/
def execIdemLeave (s : State) : Res :=
  sectionForm .idemLeave s (fun k => k.rec?.isSome || k.sec.idem) (fun _ => ⟨true, [], []⟩) (fun k =>
    modOwn k (pass k s) (fun c => { c with idem := false, idemRec := none }))

/-! ## uisend -/

/-- The peer context and device that a target context number names in the sender's route table (R376). -/
def State.route? (s : State) (ctx n : Nat) : Option (Nat × Nat) :=
  let x := s.ctxAt ctx
  let e := readNat s.mem (x.routebase.toNat + 8 * n) 8
  if n < x.routecnt ∧ bits e 63 1 = 1 ∧ bits e 32 31 = 0 then some (bits e 16 16, bits e 0 16) else none

/-- The status of a send written to its destination (R345). -/
def sendStatus (k : Iss) (s : State) (d : Sel) (act : Mask) (st : Nat) : State :=
  retireWith k s (k.th.putResult false false k.path act d (fun _ => BitVec.ofNat 64 st)).advance

/-- uisend (R345): under its release, accepted at the belfry, or sent to a peer whose status comes back later (R376). The instruction
stands until its status is written. -/
def execUisend (d b : Sel) (s : State) : Res :=
  let kr (k : Iss) (i : Nat) : Word := k.th.kreg (uniNo b + i)
  guardedForm (.uisend d b) s (fun k => (kr k 0).extractLsb' 16 16 == 0 && (kr k 1).extractLsb' 6 26 == 0)
    (fun _ => ⟨false, [(d, 1)], [(b, 4)]⟩) (fun k => k.th.putResult false false k.path k.act d (fun _ => 0)) (fun k =>
    if !s.performed k 3 || k.sec.peerSend.isSome then s
    else
      let ctx := (kr k 0).toNat
      let vec := (kr k 1).toNat
      let s := noteRelease k s
      if 0x8000 ≤ ctx then
        match s.route? k.team.ctx (ctx % 0x8000) with
        | none => sendStatus k s d k.act 2
        | some (pctx, dev) =>
          if !s.peers.contains dev then sendStatus k s d k.act 2
          else
            let p : PeerSend := { id := s.nextOp, pctx := pctx, dev := dev, vec := vec, pay := k.th.kpair (uniNo b + 2)
                                  who := k.rec?.map (fun r => r.2.2.id), dest := d, lanes := k.act }
            modOwn k { s with nextOp := s.nextOp + 1 } (fun c => { c with peerSend := some p })
      else
        let r := s.accept ctx vec (k.th.kpair (uniNo b + 2)) (s.permits ctx 3 vec (some k.team.ctx))
        sendStatus k r.2 d k.act r.1)

/-- An older send of the context to the same peer context has still to arrive (R376). -/
def State.olderSend (s : State) (t : Team) (p : PeerSend) : Bool :=
  s.teams.any (fun u => u.ctx == t.ctx && u.secs.any (fun c =>
    c.peerSend.any (fun q => q.dev == p.dev && q.pctx == p.pctx && decide (q.id < p.id))))

/-- SEND_STATUS_RETURN: a peer's status comes back, once the older sends to the same peer context have arrived (R376). -/
def execSendStatusReturn (tid role : Nat) (status : BitVec 2) (s : State) : Res :=
  .next (match s.team? tid, (s.sec? tid role).bind Section.peerSend with
    | some t, some p =>
      let issuer : Issuer := match p.who with
        | none => .sect tid role
        | some id => .lantern t.die t.core id
      if s.olderSend t p then s else
      let s := s.modSec tid role (fun c => { c with peerSend := none })
      match { s with sel := some issuer : State }.iss? with
      | some k => sendStatus k s p.dest p.lanes status.toNat
      | none => s
    | _, _ => s)

/-! ## Requests at a boundary -/

/-- The breakpoint that a PC matches (R90): index and ACT; in handler mode only one with ACT 1 (R81). Which of two matching ones counts
is the model's choice: the lowest index, whatever its ACT (log entry 97). -/
def State.bkpt? (s : State) (ctx : Nat) (hmode : Bool) (pc : DWord) : Option (Nat × Bool) :=
  ((List.range 8).filterMap (fun i =>
    let b := tget 0 (s.ctxAt ctx).bkpt i
    if b.getLsbD 63 && b.toNat % 2 ^ 49 == pc.toNat && (b.getLsbD 62 || !hmode) then some (i, b.getLsbD 62) else none)).head?

/-- A section that may issue stands before a breakpoint (R76, R90). -/
def bkptDue (s : State) (t : Team) (c : Section) : Bool :=
  (c.state == .running || c.state == .handler) && !c.noBkpt && (s.bkpt? t.ctx c.hmode c.th.pc).isSome

/-- A breakpoint is taken by a section before it issues the instruction at its PC (R90). -/
def takeBreak (s : State) (t : Team) (c : Section) (i : Nat) (act : Bool) : State :=
  let x : Trap := ⟨cBREAK, c.th.path, c.th.pc, BitVec.ofNat 32 i⟩
  if act then holdWith s t c.role x else takeTrapAt s t c.role .brk .next x

/-- BREAKPOINT_MATCH: a section, or an ejected lane, which is recalled, stands at a breakpoint's PC (R90, R26). -/
def execBreakpointMatch (tid role : Nat) (s : State) : Res :=
  .next (match s.team? tid, s.sec? tid role with
    | some t, some c =>
      match s.iss?.bind (fun k => k.rec?.map (fun x => (mayTrap k s, x))) with
      | some (may, d, n, r) =>
        if r.tid = tid ∧ r.role = role ∧ may = true then
          match s.bkpt? t.ctx false r.th.pc with
          | some (i, act) =>
            let s := recallLane s d n r
            match s.sec? tid role with
            | some c => takeBreak s t c i act
            | none => s
          | none => s
        else s
      | none =>
        if bkptDue s t c ∧ !underWay c ∧ !c.stepDone ∧ !c.stepping ∧ !c.holdDue ∧ t.bank = .active then
          match s.bkpt? t.ctx c.hmode c.th.pc with
          | some (i, act) => takeBreak s t c i act
          | none => s
        else s
    | _, _ => s)

/-- STEP_HOLD: after its step a section is held again with STEP (R93); one that a request has parked is held at its restore (R75). -/
def execStepHold (tid role : Nat) (s : State) : Res :=
  .next (match s.sec? tid role with
    | some c =>
      if c.stepDone ∧ !underWay c ∧ c.state ≠ .held ∧ c.state ≠ .exited then
        s.modSec tid role (fun c => requestHold (recordStep c))
      else s
    | none => s)

/-- ALARM_EXPIRY: an enabled alarm's deadline has come (R88). -/
def execAlarmExpiry (tid role : Nat) (s : State) : Res :=
  .next (s.modSec tid role (fun c => if c.state ≠ .exited ∧ alarmPassed s c then { c with alarmDue := true } else c))

/-- ALARM_TRAP: an expired alarm is taken as SOFTTRAP at a boundary, and EN is cleared (R88). -/
def execAlarmTrap (tid role : Nat) (s : State) : Res :=
  .next (match s.team? tid, s.sec? tid role with
    | some t, some c =>
      if c.alarmDue ∧ atBoundary t c ∧ !bkptDue s t c then
        let s := s.modSec tid role (fun c => { c with alarmDue := false, stalarm := c.stalarm &&& ~~~(BitVec.twoPow 64 63) })
        takeTrapAt s t role .alarm .next ⟨cSOFTTRAP, c.th.path, 0, 0x100⟩
      else s
    | _, _ => s)

/-- The section that UIENTRY names, while it can take a delivery (R76, R83, R85). -/
def State.uiTarget? (s : State) (ctx : Nat) : Option (Team × Section) :=
  let x := s.ctxAt ctx
  let e := x.uientry.toNat
  match x.uilaunch with
  | none => none
  | some lid =>
    match s.teams.find? (fun t => t.lid == lid && t.index == bits e 47 14 && t.primary) with
    | none => none
    | some t => match t.secs.find? (fun c => c.role == bits e 61 2) with
      | some c => if bits e 63 1 = 1 ∧ atBoundary t c = true ∧ !c.alarmDue ∧ !bkptDue s t c ∧ (s.launch? lid).any (fun l => !l.complete) = true then some (t, c) else none
      | none => none

/-- The lowest vector that is pending and unmasked (R85). -/
def uiVector (x : Context) : Option Nat := (List.range 64).find? (fun n => (x.uipend &&& x.uimask).getLsbD n)

/-- A delivery that can take place now, and its turn in the order log (R85, R139, R140). -/
def State.uiTurn? (s : State) (ctx : Nat) : Option (Team × Section × Nat × Turn) :=
  match s.uiTarget? ctx, uiVector (s.ctxAt ctx) with
  | some (t, c), some n =>
    let who := t.index * 2 ^ 72 + c.role * 2 ^ 70
    let same (b : Nat) : Bool := b / 2 ^ 70 == who / 2 ^ 70
    let late := c.det && c.replay && (s.logNext ctx 4 same).any (fun r => decide (r.2 % 2 ^ 64 < c.retired))
    some (t, c, n, if late then .diverged else s.choose ctx c.det c.replay 4 (who + n * 2 ^ 64 + c.retired % 2 ^ 64) same)
  | _, _ => none

/-- In replay a handler section waits at the count of its next logged delivery until that interrupt is there (R140). -/
def State.uiHeld (s : State) (t : Team) (c : Section) : Bool :=
  let who := t.index * 2 ^ 72 + c.role * 2 ^ 70
  c.det && c.replay && !c.hmode && t.primary && (s.logNext t.ctx 4 (fun b => b / 2 ^ 70 == who / 2 ^ 70)).any (fun r => r.2 % 2 ^ 64 == c.retired % 2 ^ 64)

/-- The registers that a delivery writes (R85). -/
def deliver (n : Nat) (x : Context) : Context :=
  { x with
    uivec := BitVec.ofNat 32 (n + (tget 0 x.uicount n).toNat * 2 ^ 16)
    uipay := tget 0 x.uivpay n
    uicount := tset 0 x.uicount n 0
    uipend := x.uipend &&& ~~~(BitVec.twoPow 64 n) }

/-- UI_DELIVERY: the lowest pending vector is delivered to the handler section, an acquire at device scope (R85, R345). -/
def execUiDelivery (ctx : Nat) (s : State) : Res :=
  .next (match s.uiTurn? ctx with
    | some (_, _, _, .wait va) => s.waitTurn ctx va
    | some (_, _, _, .diverged) => replayDiverged s ctx
    | some (t, c, n, .go s) =>
      let x := s.ctxAt ctx
      let pc := BitVec.ofNat 64 (x.uientry.toNat % 2 ^ 47 * 4)
      let s := (s.modCtx ctx (deliver n)).modCore t.die t.core (fun k => { k with dcache := [] })
      s.modSec t.tid c.role (fun c =>
        let prev := if c.state = .waiting then SecState.waiting else if c.state = .ejectedPending then .ejectedPending else .running
        enterHandler c .ui 0 .next prev pc c.th.path)
    | none => s)

end Sys2Proof.Machine
end

