-- ==== Sys2Proof/Machine/Issue.lean ====
section
/-!
DEFINITION. What the machine does next: timers (R87, R196), the pick of a section on a port (R129), the requests that meet at its
boundary (R76), latches that another section's pass invalidates (R67), the fetch and decoding of its word (R199, R205).
-/

namespace Sys2Proof.Machine

/-! ## Time -/

/-- Whether the timers of a section count (R87). -/
def counts (t : Team) (c : Section) : Bool := t.bank == .active && c.state != .held && c.state != .parked && c.state != .exited

/-- Cycles of events that a core's counters add in one step (R196). The occupied and conflict cycles of a step are free. -/
def perfCycles (s : State) (d c n : Nat) : State :=
  let stalled := s.teams.any (fun t => t.die == d && t.core == c && t.bank == .active
    && t.secs.any (fun x => x.state == .waiting && (x.waitOn == .tbwait || x.waitOn == .bar)))
  let s := s.pmAdd d c 1 n
  let s := s.pmAdd d c 3 (Nat.min n (Config.cyclesOfStep (4 * s.stepNo + 1)))
  let s := s.pmAdd d c 4 (Nat.min n (Config.cyclesOfStep (4 * s.stepNo + 2)))
  if stalled then s.pmAdd d c 11 n else s

/-- One step's time passes (R87): CYCLE, WALL, the timers of resident sections, the cycle counts of cores. -/
def tick (s : State) : State :=
  if s.stage = .off then { s with stepNo := s.stepNo + 1 }
  else
    let n := Config.cyclesOfStep (4 * s.stepNo)
    let count (t : Team) : Team :=
      { t with secs := t.secs.map (fun c => if counts t c then { c with stimer := c.stimer + BitVec.ofNat 64 n } else c) }
    let watched := (s.cores.filter (fun x => !x.2.pmsel.isEmpty)).map Prod.fst
    let s : State := { s with
      stepNo := s.stepNo + 1
      cycle := s.cycle + BitVec.ofNat 64 n
      wall := s.wall + BitVec.ofNat 64 (10 * Config.tensOfNsOfStep s.stepNo)
      teams := s.teams.map count }
    watched.foldl (fun s x => perfCycles s (x / 64) (x % 64) n) s

/-! ## The pick -/

/-- The ports of the passes for some lanes: those of their groups (R15, R17). With no lane at all, a handler's mask being empty, an
instruction issues on the port of the section's group 0 (log entry 102). -/
def portsFor (c : Section) (m : Mask) : List Nat :=
  if m = 0 then [c.group0 % 4]
  else (List.range 4).filter (fun p => (groupsOf m c.th.groups).any (fun g => (c.group0 + g) % 4 == p))

/-- The lanes for which a section's next instruction issues: its path, or what RESUME executes again (R80). -/
def issueMask (c : Section) : Mask :=
  match c.retry with
  | some m => c.th.path &&& m
  | none => c.th.path

/-- The ports on which a section's next passes issue. -/
def portsOf (c : Section) : List Nat := portsFor c (issueMask c)

/-- A section's next pass may issue (R17, R129): it is in issue, and nothing holds it back. -/
def readyPass (t : Team) (c : Section) : Bool :=
  t.bank == .active && (c.state == .running || c.state == .handler) && !c.delayed && c.oculus.isNone
    && c.peerSend.isNone && c.emu.isNone && (c.hostReq.all (fun h => h.who.isNone && h.op.lanes.isEmpty))

/-- A section has a pass to issue on a port: a ready one that the port has not yet issued, and that the scoreboard and the memory unit
have not held back as things stand (R17, R129). -/
def State.hasPass (s : State) (t : Team) (x : Section) (port : Nat) : Bool :=
  readyPass t x && (portsOf x).contains port && !x.granted.contains port && !s.stalled.contains (t.tid, x.role)

/-- The ready sections of a port, in placement order (R129). -/
def State.portSecs (s : State) (d c port : Nat) : List (Team × Section) :=
  s.teams.flatMap (fun t => if t.die = d ∧ t.core = c then (t.secs.filter (fun x => s.hasPass t x port)).map (fun x => (t, x)) else [])

/-- The class of step 1 of R129. -/
def pickClass (c : Section) : Nat := if c.hmode then 0 else if c.resumed ∨ c.aged then 1 else 2

/-- Those of a list whose measure is least. -/
def leastBy {α : Type} (f : α → Nat) (l : List α) : List α :=
  match least (l.map f) with
  | some m => l.filter (fun x => f x == m)
  | none => []

/-- The section that a port scheduler picks (R129). -/
def State.pick (s : State) (d c port : Nat) : Option (Team × Section) :=
  let l := leastBy (fun x : Team × Section => pickClass x.2) (s.portSecs d c port)
  let l := leastBy (fun x : Team × Section => x.2.bkLevel.toNat) l
  let l := if l.any (fun x => x.2.aged) then l.filter (fun x => x.2.aged) else l
  match tget none (s.coreAt d c).lastOn port with
  | some (tid, role) =>
    match l.find? (fun x => x.1.tid == tid && x.2.role == role) with
    | some x => some x
    | none => (leastBy (fun x : Team × Section => tget 0 x.2.lastIssue port) l).head?
  | none => (leastBy (fun x : Team × Section => tget 0 x.2.lastIssue port) l).head?

/-- The latches of a thread's groups on some ports become invalid (R67). -/
def killOn (c : Section) (ports : List Nat) : Section :=
  let kill (e : Nat × Latch) : Nat × Latch := if ports.contains ((c.group0 + e.1 / 4) % 4) then (e.1, { e.2 with valid := false }) else e
  { c with th := { c.th with latches := (c.th.latches.map kill).filter (fun e => e.2 ≠ latch0) } }

/-- A section has issued passes for some lanes: other sections' latches on their ports become invalid, and the schedulers note it
(R67, R129). -/
def markIssue (s : State) (t : Team) (c : Section) (m : Mask) : State :=
  let ports := portsFor c m
  let mark (u : Team) : Team :=
    if u.die = t.die ∧ u.core = t.core ∧ u.bank = .active then
      { u with secs := u.secs.map (fun x => if u.tid = t.tid ∧ x.role = c.role then
          { x with aged := false, lastIssue := tsets 0 x.lastIssue (ports.map (fun p => (p, s.stepNo))) }
        else killOn x ports) }
    else u
  let s : State := { s with teams := s.teams.map mark }
  let s := s.pmAdd t.die t.core 2 (groupsOf m c.th.groups).length
  s.modCore t.die t.core (fun x => { x with lastOn := tsets none x.lastOn (ports.map (fun p => (p, some (t.tid, c.role)))) })

/-- The lanes whose passes the execution of an instruction has issued, given the section as it stands after it: all of them, those that
completed beside a fault, or those served while others wait (R17, R77). -/
def passLanes (k : Iss) (c : Section) : Mask :=
  if c.retired ≠ k.sec.retired then k.path
  else if (c.hmode && !k.sec.hmode) || c.state == .held then k.act &&& ~~~c.trapMask
  else
    let served (c : Section) : List Nat := (c.hostReq.map (fun h => h.got.map Prod.fst)).getD []
    maskOf ((served c).filter (fun l => !(served k.sec).contains l))

/-- After a section's execution: its passes have issued; or none has, and its next pass is not ready until something else happens,
unless it stands at its handler now (R67, R77, R129). -/
def settle (k : Iss) (s : State) : State :=
  match s.sec? k.team.tid k.sec.role with
  | none => s
  | some c =>
    let m := passLanes k c
    let s := modOwn k s (fun c => { c with granted := [] })
    if m = 0 ∧ c.retired = k.sec.retired then
      { s with stalled := if c.hmode = k.sec.hmode then (k.team.tid, k.sec.role) :: s.stalled else [] }
    else { markIssue s k.team k.sec m with stalled := [] }

/-! ## What firmware does -/

/-- The parameters of a context's thrash detector, within their ranges (R161). -/
def setThrash (s : State) (ctx moves window throttle : Nat) : State :=
  if 1 ≤ moves ∧ moves ≤ 255 ∧ 10000 ≤ window ∧ window ≤ 10 ^ 9 ∧ 100000 ≤ throttle ∧ throttle ≤ 10 ^ 10 then
    s.modCtx ctx (fun x => { x with thrMoves := moves, thrWindow := window, thrThrottle := throttle })
  else s

/-! ## What comes next -/

/-- The next thing to execute, or a state with nothing more to do in this step. -/
inductive Next where
  | run (i : Instr) (s : State)
  | done (s : State)

/-- An event to execute, with no section or lane issuing. -/
def runEvent (i : Instr) (s : State) : Next := .run i { s with sel := none, stalled := [] }

/-- What a section may issue while its taps stand to be written (R294): every form but those that end a path, leave or hold the
section, or reach scratchpad other than through the checks of every access; those wait for the taps. -/
def besideTaps : Instr → Bool
  | .mma .. | .mmad .. | .mmadg .. | .mmadw .. | .mldn .. | .mldw .. | .curve .. | .bmap .. => false
  | .rast .. | .tex .. | .texg .. | .rayq .. | .trace .. | .lupd .. | .dtest .. | .blend .. | .pstore .. | .resid .. | .evpop .. => false
  | .tcopy .. | .tcopys .. | .treduce .. | .bind .. | .unbind .. | .tbinit .. | .tbtest .. | .tbexpect .. | .tbarrive .. | .tbwait .. => false
  | .waitc .. | .bar .. | .gbar | .backoff | .fence .. | .fenceRp .. | .sysflush .. | .sysinv .. | .svc .. | .uisend .. | .uiret => false
  | .assert .. | .trap .. | .brkpt | .hold | .resume | .skip | .idemEnter | .idemLeave | .mts .. => false
  | .join | .ret | .exit | .brx .. | .call .. | .calli .. => false
  | _ => true

/-- The word at the issuer's PC is fetched and decoded; one that is no instruction traps (R199, R205, R206). -/
def issueAt (s : State) (k : Iss) : Next :=
  match fetchWord s k.team k.homeKey k.th.pc.toNat with
  | .wait s => .done (waitOn k s .heldLoad .again)
  | .fault c => .done (raise k s ⟨c, k.path, k.th.pc, fetchAuxOf c⟩)
  | .word w s =>
    match decode w with
    | .ok i => if k.sec.taps.isEmpty || besideTaps i then .run i s else .done s
    | .error e =>
      let code := match e with
        | .opc => cOPC
        | .opnd => cOPND
      .done (raise k s ⟨code, if k.act = 0 then k.path else k.act, 0, w⟩)

/-- A request stands at a section's next boundary (R76). -/
def asked (s : State) (t : Team) (c : Section) : Bool :=
  c.stepDone || c.holdDue || c.alarmDue || bkptDue s t c || (s.uiTurn? t.ctx).isSome

/-- The ports that have still to pick the section, besides the one that does now (R17, R129). -/
def portsLeft (c : Section) (port : Nat) : List Nat := (portsOf c).filter (fun p => p != port && !c.granted.contains p)

/-- A port's pick of a section: with the last of its ports the instruction is fetched and executed; until then the port has made its own
pick, and one of the others is looked at next (R15, R17, R129). -/
def issuePass (s : State) (t : Team) (c : Section) (port : Nat) : Next :=
  match portsLeft c port with
  | p :: _ => .done { (s.modSec t.tid c.role (fun c => { c with granted := port :: c.granted })) with focus := (t.die, t.core, p), stalled := [] }
  | [] =>
    let s : State := { s with sel := some (.sect t.tid c.role) }
    match s.iss? with
    | some k => match issueAt s k with
      | .done s => .done (settle k s)
      | n => n
    | none => .done s

/-- The picked section's boundary (R76), in the order of its requests; then its instruction. A step's one instruction and an
instruction that is under way meet no request; while taps stand to be written, the boundary waits for them (R302). -/
def issueSection (s : State) (t : Team) (c : Section) (port : Nat) : Next :=
  let issue (_ : Unit) : Next := if s.uiHeld t c then .done { s with stalled := (t.tid, c.role) :: s.stalled } else issuePass s t c port
  if c.stepping then issuePass s t c port
  else if !c.taps.isEmpty && asked s t c then .done { s with stalled := (t.tid, c.role) :: s.stalled }
  else if underWay c then issuePass s t c port
  else if c.stepDone then runEvent (.stepHold t.tid c.role) s
  else if c.holdDue then .done { (s.modSec t.tid c.role holdNow) with stalled := [] }
  else if bkptDue s t c then runEvent (.breakpointMatch t.tid c.role) s
  else if c.alarmDue && atBoundary t c then runEvent (.alarmTrap t.tid c.role) s
  else match s.uiTurn? t.ctx with
    | some (u, x, _, .go _) => if u.tid = t.tid ∧ x.role = c.role then runEvent (.uiDelivery t.ctx) s else issue ()
    | some (u, x, _, .diverged) => if u.tid = t.tid ∧ x.role = c.role then runEvent (.uiDelivery t.ctx) s else issue ()
    | _ => issue ()

/-- A section's ejected lanes may run (R25, R28): it is resident and not held. -/
def lanesRun (t : Team) (c : Section) : Bool := t.bank == .active && c.state != .held && c.state != .parked && c.state != .exited

/-- The lantern's next instruction of an ejected lane, which is recalled at a breakpoint, when its section may take it (R25, R26, R90). -/
def issueLane (s : State) (d c idx : Nat) : Next :=
  match (s.coreAt d c).lantern[idx]? with
  | none => .done s
  | some r =>
    match s.team? r.tid, s.sec? r.tid r.role with
    | some t, some x =>
      let s : State := { s with sel := some (.lantern d c r.id), stalled := [] }
      if !lanesRun t x || (x.hostReq.any (fun h => h.who != some r.id || !h.op.lanes.isEmpty)) || x.peerSend.any (fun p => p.who == some r.id) then .done s
      else if (s.bkpt? t.ctx false r.th.pc).isSome then .run (.breakpointMatch t.tid x.role) s
      else match s.iss? with
        | some k => issueAt s k
        | none => .done s
    | _, _ => .done s

/-- One act: ports 0 to 3 issue from the core's sections, a higher number runs a lane of the core's lantern. -/
def issueOn (s : State) (d c port : Nat) : Next :=
  if port < 4 then
    match s.pick d c port with
    | some (t, x) => issueSection s t x port
    | none => .done { s with stalled := [] }
  else issueLane s d c (port - 4)

/-- What the machine does next: the head of the agenda, or the issue port in focus. -/
def nextOf (s : State) : Next :=
  match s.agenda with
  | .event e :: r => runEvent e.val { s with agenda := r }
  | .issue d c p :: r => issueOn { s with agenda := r } d c p
  | .fail sp :: r => .done { s with agenda := r, failed := sp :: s.failed, stalled := [] }
  | .mend sp :: r => .done { s with agenda := r, failed := s.failed.filter (fun x => x != sp), stalled := [] }
  | .host pa bs :: r => .done (hostStore { s with agenda := r, stalled := [] } pa bs)
  | .thrash ctx m w t :: r => .done (setThrash { s with agenda := r, stalled := [] } ctx m w t)
  | .eccClear n :: r => .done { s with agenda := r, stalled := [], eccCounts := tset 0 s.eccCounts n 0 }
  | [] => issueOn s s.focus.1 s.focus.2.1 s.focus.2.2

/-! ## A word placed for the next step -/

/-- Where the next step fetches: die, core and physical address, when it is to issue an instruction of a section. -/
def fetchPlace? (s : State) : Option (Nat × Nat × Nat) :=
  let at? (d c p : Nat) : Option (Nat × Nat × Nat) :=
    if p < 4 then
      match s.pick d c p with
      | some (t, x) =>
        if asked s t x || s.uiHeld t x || !(portsLeft x p).isEmpty then none
        else match s.translate d c t.ctx .fetch x.th.pc.toNat with
          | .ok pa _ => if x.th.pc.toNat % 4 = 0 ∧ x.th.pc.toNat < 2 ^ 49 ∧ isHost pa = false then some (d, c, pa) else none
          | _ => none
      | none => none
    else none
  match s.agenda with
  | .issue d c p :: _ => at? d c p
  | .event _ :: _ | .fail _ :: _ | .mend _ :: _ | .host .. :: _ | .thrash .. :: _ | .eccClear _ :: _ => none
  | [] => at? s.focus.1 s.focus.2.1 s.focus.2.2

/-- A section as it stands when its team is placed (R14, R57, R62, R70, R73). -/
def newSection (role group0 groups budget : Nat) (pc : DWord) (kregs : Table Word) (dmr det replay : Bool) : Section where
  role := role
  group0 := group0
  th := { pc := pc, gmode := gmodeReset, fpflags := 0, path := fullMask groups, live := fullMask groups, groups := groups
          budget := budget, vregs := [], kregs := kregs, preds := [], latches := [], freed := 0, ejected := false }
  stack := []
  state := .running
  prev := .running
  hmode := false
  waitOn := .none
  waitFor := .again
  bkLevel := 0
  idem := false
  dmr := dmr
  det := det
  replay := replay
  redir := false
  holdReq := false
  parkWhy := 0
  stepGrp := 0
  stepLane := 0
  step := false
  trapCode := 0
  trapPc := 0
  trapAddr := 0
  trapAux := 0
  trapMask := 0
  stimer := 0
  stalarm := 0
  alarmDue := false
  holdDue := false
  stepping := false
  stepDone := false
  noBkpt := false
  stepPc := 0
  retry := none
  outs := []
  hs := none
  idemRec := none
  slots := []
  bmap := []
  bmapOff := 0
  tiles := []
  log := []
  logSeq := 0
  emu := none
  taps := []
  oculus := none
  hostReq := none
  arrived := []
  delayed := false
  parkElig := none
  resumed := false
  aged := false
  lastIssue := []
  svcLanes := none
  svcReply := none
  svcPending := []
  cmp := []
  peerSend := none
  releases := []
  lastRel := 0
  drains := []
  promo := []
  granted := []
  copies := 0
  retired := 0

/-- The launch packet of the machine that `withFetchWord` sets up: one team of one role of one group, budget 192, 320 KiB of
scratchpad. -/
def bootPacket : Packet where
  done := 0
  save := 0
  privB := 0
  kargs := 0
  scratch := 320
  priv := 0
  gangM1 := 0
  lat := 0
  trdepth := 0
  kcount := 0
  roles := [(1, 24)]
  entryW := 0x100000
  uie := false
  dep := false
  early := false
  dmr := false
  replay := false
  det := false
  irq := false
  chain := 0
  reserve := 0
  grid := 1

/-- That team, on core 0 of die 0 in context 0. -/
def bootTeam : Team where
  tid := 0
  lid := 0
  ctx := 0
  index := 0
  gang := 0
  rank := 0
  gangSize := 1
  die := 0
  core := 0
  slot := 0
  bank := .active
  groups := 1
  secs := [newSection 0 0 1 192 0x400000 [] false false false]
  scratch := []
  scratchSize := 327680
  base := 0
  privSize := 0
  lines := []
  cerrs := []
  bcs := []
  twin := none
  primary := true
  draining := false
  discarded := false
  stood := false
  recs := []
  copies := []
  regs := []
  treduces := 0
  epoch := []
  gbarCame := []

/-- Its launch. -/
def bootLaunch : Launch where
  lid := 0
  ctx := 0
  queue := 0
  number := 0
  part := 0
  pkt := bootPacket
  kvals := []
  after := none
  placed := 1
  curvePos := 0
  exited := 0
  complete := false
  wordDone := false
  epoch := []
  epochClosed := false
  raw := []

/-- What a load of a program from outside stands for (log entry 8): a started module with one team running at 0x400000, in a
context whose one 512 MiB page of addresses 0 and up lies at physical address 0x20000000. -/
def bootProgram (s : State) : State :=
  let mem := writeNat (writeNat s.mem 0x10000 8 0x11001) 0x11000 8 0x2000003B
  { s with
    stage := .s2
    cfgReady := true
    parts := [(0, List.range 60 |>.map (fun i => 16 * (i / 15) + i % 15))]
    contexts := tset ctx0 s.contexts 0 { ctx0 with exists_ := true, enabled := true, ptroot := 0x10000, trapent := 0x100100 }
    launches := [bootLaunch]
    teams := [bootTeam]
    cores := [(0, { core0 with ctx := some 0 })]
    mem := mem
    agenda := [.issue 0 0 0]
    sel := none
    stalled := []
    nextTid := 1
    nextLid := 1 }

/-- A word stored where the next step fetches; a program is loaded first where none is to be fetched. -/
def placeWord (s : State) (w : Word) : State :=
  let put (s : State) (x : Nat × Nat × Nat) : State :=
    (s.physWrite x.2.2 (wordBytes w)).modCore x.1 x.2.1 (fun k => { k with ibuf := k.ibuf.filter (fun e => e.1 != x.2.2 / 4) })
  match fetchPlace? s with
  | some x => put s x
  | none => put (bootProgram s) (0, 0, 0x20400000)

/-! ## Scheduling events -/

/-- LANTERN_EXEC: the lantern runs one instruction of an ejected lane (R25): it is the next thing the machine does. -/
def execLanternExec (die core idx : Nat) (s : State) : Res :=
  .next (match (s.coreAt die core).lantern[idx]? with
    | some r =>
      match s.team? r.tid, s.sec? r.tid r.role with
      | some t, some c => if lanesRun t c then { s with agenda := .issue die core (4 + idx) :: s.agenda } else s
      | _, _ => s
    | none => s)

/-- LATCH_IDLE_INVALIDATE: two cycles without a pass of the section that last issued on a port (R67). -/
def execLatchIdleInvalidate (die core port : Nat) (s : State) : Res :=
  .next (match tget none (s.coreAt die core).lastOn port with
    | some (tid, role) => s.modSec tid role (fun c => killOn c [port])
    | none => s)

/-- AGING: a section has had a ready pass for 256 cycles without issuing (R129). -/
def execAging (tid role : Nat) (s : State) : Res :=
  .next (match s.team? tid with
    | some t => s.modSec tid role (fun c => if readyPass t c ∧ !s.stalled.contains (tid, role) then { c with aged := true } else c)
    | none => s)

/-- BACKOFF_DECAY: 1,024 cycles without backoff (R130). -/
def execBackoffDecay (tid role : Nat) (s : State) : Res :=
  .next (s.modSec tid role (fun c => if c.state ≠ .exited ∧ !c.delayed then { c with bkLevel := 0, parkElig := none } else c))

/-- BACKOFF_DELAY_END: the delay of backoff is over (R338). -/
def execBackoffDelayEnd (tid role : Nat) (s : State) : Res :=
  .next (s.modSec tid role (fun c => { c with delayed := false }))

/-- RESUME_CLASS_EXPIRY: 4,096 cycles after a restore (R129). -/
def execResumeClassExpiry (tid role : Nat) (s : State) : Res :=
  .next (s.modSec tid role (fun c => { c with resumed := false }))

/-- DEMAND_PARK_ELIGIBLE: 65,536 cycles at level 7 (R30). -/
def execDemandParkEligible (tid role : Nat) (s : State) : Res :=
  .next (s.modSec tid role (fun c => if c.bkLevel = 7 ∧ c.state ≠ .exited ∧ c.parkElig = none then { c with parkElig := some s.stepNo } else c))

end Sys2Proof.Machine
end

