-- ==== Sys2Proof/Machine/Debug.lean ====
section
/-!
DEFINITION. The debug window (R71, R92, R375, R196): selection, holds, release and the single step (R93), writes of a held section's
state, what a read returns.
-/

namespace Sys2Proof.Machine

/-! ## The selection -/

/-- The launch, section and lane index that SEL and LSEL select (R375): a team placed or parked, or that was so when its context ended,
so that its trap record is still read (R81). -/
def State.selected (s : State) (ctx : Nat) : Option (Team × Section × Nat) :=
  let x := s.ctxAt ctx
  let sel := x.dbgSel.toNat
  let l := 32 * bits sel 26 5 + bits sel 31 5
  match s.launches.find? (fun la => la.ctx == ctx && la.queue == bits x.dbgLsel.toNat 48 16 && la.number.toNat == bits x.dbgLsel.toNat 0 32) with
  | none => none
  | some la =>
    match s.teams.find? (fun t => t.lid == la.lid && t.index == bits sel 0 24 && t.primary && (t.bank != .gone || t.stood)) with
    | none => none
    | some t => (t.secs.find? (fun c => c.role == bits sel 24 2 && decide (l / 32 < c.th.groups))).map (fun c => (t, c, l))

/-- The last write of a window was refused, or was not (R375). -/
def dbgMark (s : State) (ctx : Nat) (bad : Bool) : State := s.modCtx ctx (fun x => { x with dbgRefused := bad })

/-! ## Release and step -/

/-- Instructions that step every active lane of the group (R7, R93). -/
def collective : Instr → Bool
  | .shfl .. | .shflx .. | .ballot .. | .vote .. | .mma .. | .mmad .. | .mmadg .. | .mmadw .. | .mldn .. | .mldw .. | .rast .. => true
  | _ => false

/-- The lanes that a step executes for (R93): the lane, or the active lanes of its group. -/
def stepLanes (c : Section) (w : Option Word) : Mask :=
  let one := BitVec.twoPow 1024 (32 * c.stepGrp.toNat + c.stepLane.toNat)
  match w.map decode with
  | some (.ok i) => if collective i then (c.th.guarded c.th.path &&& groupMask c.stepGrp.toNat) ||| one else one
  | _ => one

/-- The path split for a step as a divergent branch at its PC would (R93): the stepped lanes run, the rest is pending. Both sides meet at
the JOIN of the innermost open entry, and execute it there together for that entry (log entry 104). -/
def splitStep (m : Mask) (c : Section) : Section :=
  let join := (c.stack.head?).bind Entry.joinPc
  let e := { branchEntry c.th.pc join c.th.path (some (c.th.path &&& ~~~m, c.th.pc)) with resume := join.getD 0 }
  { c with stack := e :: c.stack, th := { c.th with path := m } }

/-- A release with STEP (R93). With the lane outside the current path STEP is recorded, with bit 8 of TRAPAUX, and the section stays held. A
split that would push entry 257 is OPND, as for a divergent branch (R98). A path that waits at a JOIN executes it for the stepped lane. -/
def stepRelease (s : State) (t : Team) (c : Section) : State :=
  if !c.th.path.getLsbD (32 * c.stepGrp.toNat + c.stepLane.toNat) then
    s.modSec t.tid c.role (fun c => recordTrap c c.th.pc ⟨cSTEP, c.th.path, 0, 0x100⟩)
  else
    let w := match fetchWord s t c.role c.th.pc.toNat with
      | .word w _ => some w
      | _ => none
    let m := stepLanes c w &&& c.th.path
    let splits := c.retry.isNone && m != c.th.path
    let s := s.modSec t.tid c.role (fun c => comeBack (if c.prev = .ejectedPending then .running else c.prev) c)
    if splits && stackFull c then takeTrapAt s t c.role .trap .next ⟨cOPND, m, 0, w.getD 0⟩
    else s.modSec t.tid c.role (fun c =>
      { (if splits then splitStep m c else c) with stepping := true, noBkpt := true, stepPc := c.th.pc + 4 })

/-- A debug window's release (R92, R93): PREV, with what is left of a delay of backoff dropped (R348). -/
def releaseSec (s : State) (t : Team) (c : Section) : State :=
  if c.step then stepRelease s t c
  else (s.modSec t.tid c.role (fun c => { comeBack c.prev c with delayed := false })).recheckJoin t.tid c.role

/-! ## Writes -/

/-- A write of CMD (R375): hold, release, hold all. -/
def dbgCmd (s : State) (ctx v : Nat) : State :=
  if v = 3 then
    let all (t : Team) : Team := if t.ctx = ctx ∧ t.bank ≠ .gone then { t with secs := t.secs.map requestHold } else t
    dbgMark { s with teams := s.teams.map all } ctx false
  else match s.selected ctx with
    | none => dbgMark s ctx true
    | some (t, c, _) =>
      if v = 1 then dbgMark (s.modSec t.tid c.role requestHold) ctx false
      else if v = 2 ∧ c.state = .held then dbgMark (releaseSec s t c) ctx false
      else dbgMark s ctx true

/-- The bits of SSTAT that the window writes (R71, R73). -/
def stepBits : DWord := 0x0000FFE000000000

/-- The step fields of SSTAT, written (R71, R73). -/
def putStep (v : Nat) (c : Section) : Section :=
  { c with step := bits v 37 1 == 1, stepLane := BitVec.ofNat 5 (bits v 38 5), stepGrp := BitVec.ofNat 5 (bits v 43 5) }

/-- System registers that the window writes while the section is held (R71). -/
def heldReg (r : Nat) : Bool :=
  decide (r = 0x00 ∨ r = 0x01 ∨ r = 0x02 ∨ r = 0x03 ∨ r = 0x10 ∨ r = 0x14 ∨ r = 0x19 ∨ (0xC0 ≤ r ∧ r ≤ 0xFF))

/-- A value that the window may give a register: what MTS may write (R5, R71), an instruction's address for SPC, and for SSTAT one that
leaves the reserved, RO and HW fields as they stand (R4, R5, log entry 103). -/
def hostValueOk (s : State) (t : Team) (c : Section) (r v : Nat) : Bool :=
  if r = 0x00 then (BitVec.ofNat 64 v &&& ~~~stepBits) == (sstat s t c &&& ~~~stepBits)
  else if r = 0x01 then decide (v % 4 = 0 ∧ v < 2 ^ 49)
  else sysValueOk c r (BitVec.ofNat 64 v) && (sysWidth r == some true || decide (v < 2 ^ 32))

/-- Breakpoints and watchpoints are written at any time (R71, R90, R91). -/
def dbgPoint (s : State) (ctx i v : Nat) : Option State :=
  let val := BitVec.ofNat 64 v
  if i < 8 then
    if bits v 49 13 = 0 ∧ bits v 0 2 = 0 then some (s.modCtx ctx (fun x => { x with bkpt := tset 0 x.bkpt i val })) else none
  else if i < 12 then
    if bits v 49 6 = 0 ∧ bits v 0 49 % 2 ^ bits v 55 5 = 0 then some (s.modCtx ctx (fun x => { x with wpt := tset 0 x.wpt (i - 8) val })) else none
  else none

/-- A write of a system register by its number (R9, R71); none when it is refused. -/
def dbgSys (s : State) (ctx r v : Nat) : Option State :=
  let val := BitVec.ofNat 64 v
  if r = 0x11 then some (s.modCtx ctx (fun x => { x with uipend := x.uipend &&& ~~~val }))
  else if 0x28 ≤ r ∧ r ≤ 0x33 then dbgPoint s ctx (r - 0x28) v
  else if heldReg r then
    match s.selected ctx with
    | none => none
    | some (t, c, _) =>
      if c.state ≠ .held ∨ hostValueOk s t c r v = false then none
      else if r = 0x00 then some (s.modSec t.tid c.role (putStep v))
      else if r = 0x01 then some (s.modSec t.tid c.role (fun c => { c with th := { c.th with pc := val } }))
      else if r = 0x14 then some (s.modCtx ctx (fun x => { x with uientry := val }))
      else some (sysSet s t c.role r val)
  else none

/-- A register of a held section, or of an ejected lane's record for that lane's own (R92): the latches that name it are no longer
recoverable (R66). -/
def dbgLane (s : State) (t : Team) (c : Section) (l : Nat) (f : Thread → Thread) : State :=
  match (s.coreAt t.die t.core).lantern.find? (fun r => r.tid == t.tid && r.role == c.role && r.lane == l) with
  | some r => s.modCore t.die t.core (fun x => { x with lantern := x.lantern.map (fun y => if y.id = r.id then { y with th := f y.th } else y) })
  | none => s.modSec t.tid c.role (fun c => { c with th := f c.th })

/-- One 32-bit register of the selected lane or section, at its window offset (R375); none when it is refused. -/
def dbgWord (s : State) (ctx off : Nat) (w : Word) : Option State :=
  match s.selected ctx with
  | none => none
  | some (t, c, l) =>
    let n := (off - 0x2000) / 4
    let u := (off - 0x3000) / 4
    if c.state ≠ .held then none
    else if 0x2000 ≤ off ∧ off < 0x2300 then
      if n < c.th.budget ∧ c.th.freed.getLsbD (l / 32) = false then
        some (dbgLane s t c l (fun th => (th.setV l n w).unrec (l / 32) (BitVec.ofNat 8 n) 1))
      else none
    else if off = 0x2400 then
      some (dbgLane s t c l (fun th => { th with preds := tsets false th.preds ((List.range 7).map (fun p => (8 * l + p, w.getLsbD p))) }))
    else if 0x3000 ≤ off ∧ off < 0x30C0 then
      some (s.modSec t.tid c.role (fun c =>
        { c with th := (List.range c.th.groups).foldl (fun th g => th.unrec g (BitVec.ofNat 8 (0xC0 + u)) 1) (c.th.setK u w) }))
    else none

/-- Bytes of the team scratchpad, barriers included (R94, R375). -/
def dbgScratch (s : State) (ctx off size v : Nat) : Option State :=
  match s.selected ctx with
  | none => none
  | some (t, c, _) =>
    if c.state = .held ∧ off + size ≤ t.scratchSize then
      some (s.modTeam t.tid (fun t => { t with scratch := writeBytes t.scratch off (toBytes size v) }))
    else none

/-- Performance counters of the selected section's core (R196), at offsets of this model's own above the window. -/
def dbgPmc (s : State) (ctx off v : Nat) : Option State :=
  match s.selected ctx with
  | none => none
  | some (t, _, _) =>
    let i := (off - 0x80000) / 8
    let put (f : Core → Core) : Option State := some (s.modCore t.die t.core f)
    if off % 8 ≠ 0 then none
    else if i < 8 then if v < 2 ^ 48 then put (fun x => { x with pmc := tset 0 x.pmc i (BitVec.ofNat 48 v) }) else none
    else if i < 16 then if v < 0x0C then put (fun x => { x with pmsel := tset 0 x.pmsel (i - 8) (BitVec.ofNat 8 v) }) else none
    else if i = 16 then if v < 2 ^ 16 then put (fun x => { x with pmctx := BitVec.ofNat 16 v }) else none
    else none

/-- What the window reads of a core's performance counters, selectors and counted context (R196). -/
def pmcReg (x : Core) (i : Nat) : Nat :=
  if i < 8 then (tget 0 x.pmc i).toNat
  else if i < 16 then (tget 0 x.pmsel (i - 8)).toNat
  else if i = 16 then x.pmctx.toNat
  else 0

/-! ## The window's 8-byte words -/

/-- The window's registers of 8 bytes, as a read returns them (R375). -/
def State.dbgRead8 (s : State) (ctx off : Nat) : Nat :=
  let x := s.ctxAt ctx
  if off = 0x00 then x.dbgSel.toNat
  else if off = 0x10 then b2n x.dbgRefused + 2 * b2n ((s.selected ctx).any (fun y => y.2.1.state == .held))
  else if off = 0x18 then x.dbgLsel.toNat
  else if 0x4000 ≤ off ∧ off < 0x4040 then (tget 0 x.bkpt ((off - 0x4000) / 8)).toNat
  else if 0x4040 ≤ off ∧ off < 0x4060 then (tget 0 x.wpt ((off - 0x4040) / 8)).toNat
  else match (if 0x1000 ≤ off ∧ off < 0x1800 then ctxReg s ctx ((off - 0x1000) / 8) else none), s.selected ctx with
    | some v, _ => v.toNat
    | none, none => 0
    | none, some (t, c, l) =>
      let th := match (s.coreAt t.die t.core).lantern.find? (fun r => r.tid == t.tid && r.role == c.role && r.lane == l) with
        | some r => r.th
        | none => c.th
      let v (n : Nat) : Nat := (th.vreg l n).toNat
      let k (n : Nat) : Nat := (c.th.kreg n).toNat
      if 0x1000 ≤ off ∧ off < 0x1800 then (sysReg s t c l ((off - 0x1000) / 8)).toNat
      else if 0x2000 ≤ off ∧ off < 0x2300 then v ((off - 0x2000) / 4) + 2 ^ 32 * v ((off - 0x2000) / 4 + 1)
      else if off = 0x2400 then (List.range 8).foldl (fun a p => a + b2n (th.pred l p) * 2 ^ p) 0
      else if 0x3000 ≤ off ∧ off < 0x30C0 then k ((off - 0x3000) / 4) + 2 ^ 32 * k ((off - 0x3000) / 4 + 1)
      else if 0x4100 ≤ off ∧ off < 0x4120 then
        let b := tget bar0 t.bcs ((off - 0x4100) / 8)
        b.pending + b.roles.toNat * 2 ^ 4 + b.phase.toNat * 2 ^ 8
      else if 0x8000 ≤ off ∧ off < 0x9000 then readNat (tget ⟨[], 0, 0⟩ c.tiles ((off - 0x8000) / 1024)).bits ((off - 0x8000) % 1024) 8
      else if 0x10000 ≤ off ∧ off < 0x10000 + t.scratchSize then readNat t.scratch (off - 0x10000) 8
      else if 0x80000 ≤ off then pmcReg (s.coreAt t.die t.core) ((off - 0x80000) / 8)
      else 0

/-- A 4- or 8-byte value put into an 8-byte word at its offset. -/
def mergeWord (old off size v : Nat) : Nat :=
  if size = 8 then v % 2 ^ 64
  else if off % 8 = 0 then old / 2 ^ 32 * 2 ^ 32 + v % 2 ^ 32
  else old % 2 ^ 32 + v % 2 ^ 32 * 2 ^ 32

/-- An aligned write of 4 or 8 bytes into a debug window (R375); none when it is refused. -/
def dbgPut (s : State) (ctx off size v : Nat) : Option State :=
  let base := off / 8 * 8
  let new := mergeWord (s.dbgRead8 ctx base) off size v
  if base = 0x00 then (if new < 2 ^ 36 then some (s.modCtx ctx (fun x => { x with dbgSel := BitVec.ofNat 64 new })) else none)
  else if base = 0x18 then (if bits new 32 16 = 0 then some (s.modCtx ctx (fun x => { x with dbgLsel := BitVec.ofNat 64 new })) else none)
  else if base = 0x1088 then dbgSys s ctx 0x11 (mergeWord 0 off size v)
  else if 0x1000 ≤ off ∧ off < 0x1800 then dbgSys s ctx ((base - 0x1000) / 8) new
  else if 0x4000 ≤ off ∧ off < 0x4060 then dbgPoint s ctx ((base - 0x4000) / 8) new
  else if 0x10000 ≤ off ∧ off < 0x80000 then dbgScratch s ctx (off - 0x10000) size v
  else if 0x80000 ≤ off then dbgPmc s ctx off v
  else if size = 8 then (dbgWord s ctx off (BitVec.ofNat 32 v)).bind (fun s => dbgWord s ctx (off + 4) (BitVec.ofNat 32 (v / 2 ^ 32)))
  else dbgWord s ctx off (BitVec.ofNat 32 v)

/-- A write into a debug window: a command, or a register; STATUS notes a refusal (R71, R375). -/
def dbgWrite (s : State) (ctx off size v : Nat) : State :=
  if off = 0x08 then dbgCmd s ctx v
  else match dbgPut s ctx off size v with
    | some s => dbgMark s ctx false
    | none => dbgMark s ctx true

/-- The size of the register at a window offset. -/
def dbgSize (off : Nat) : Nat := if (0x2000 ≤ off ∧ off < 0x4000) ∨ (0x10000 ≤ off ∧ off < 0x80000) ∨ off % 8 ≠ 0 then 4 else 8

/-- Debug windows take writes from stage 2 on, for contexts 0 to 4,095 (R370). -/
def dbgEvent (s : State) (ctx off size v : Nat) : State := if s.stage = .s2 ∧ ctx < 4096 then dbgWrite s ctx off size v else s

/-- DEBUG_HOLD (R375). -/
def execDebugHold (ctx : Nat) (s : State) : Res := .next (dbgEvent s ctx 0x08 8 1)

/-- DEBUG_RELEASE (R92, R93). -/
def execDebugRelease (ctx : Nat) (s : State) : Res := .next (dbgEvent s ctx 0x08 8 2)

/-- DEBUG_HOLD_ALL (R375). -/
def execDebugHoldAll (ctx : Nat) (s : State) : Res := .next (dbgEvent s ctx 0x08 8 3)

/-- DEBUG_WINDOW_WRITE (R71): a write of the size of the register at its offset. -/
def execDebugWindowWrite (ctx off : Nat) (v : BitVec 64) (s : State) : Res :=
  .next (if off % 4 = 0 then dbgEvent s ctx off (dbgSize off) (v.toNat % 2 ^ (8 * dbgSize off)) else s)

end Sys2Proof.Machine
end

