-- ==== Sys2Proof/Machine/Mem.lean ====
section
/-!
DEFINITION. Loads and stores (R255 to R259), their shaped forms (R260, R165), ATOM (R261 to R263) and RED (R264).
-/

namespace Sys2Proof.Machine

/-! ## LD, ST and their window forms -/

/-- The register bits of a loaded element (R255). -/
def loadExt (ty : BitVec 5) (size v : Nat) : DWord :=
  if tySigned ty ∧ size < 4 then (BitVec.ofInt 32 (sext v (8 * size))).setWidth 64 else BitVec.ofNat 64 v

/-- How an M-format major forms a lane's address (R256). -/
inductive Window where
  | any | core | priv
  deriving DecidableEq

/-- The element of one lane (R201, R256). -/
def mElem (k : Iss) (win : Window) (m : BitVec 5) (o : Sel) (e i l : Nat) (data data2 : DWord) : Elem :=
  match win with
  | .any => { lane := l, a := k.th.mAddr l m o e i, bad := false, data := data, data2 := data2 }
  | .core => { winElem (0xFC * 2 ^ 56 + k.team.die * 2 ^ 54 + k.team.core * 2 ^ 48) l (k.th.winSum l m o e i) with data := data, data2 := data2 }
  | .priv => { winElem (0xFE * 2 ^ 56) l (k.th.winSum l m o e i) with data := data, data2 := data2 }

/-- A load of the M format (R257). -/
def loadM (ins : Instr) (win : Window) (n : Bool) (d : Sel) (m : BitVec 5) (o : Sel) (i : BitVec 3) (s : State) : Res :=
  guardedForm ins s (fun k => (tyBytes (gType k.th.gmode)).isSome && pairDst (tyPair (gType k.th.gmode)) d)
    (fun k => ⟨n, [wsel (tyPair (gType k.th.gmode)) d], [(o, 1)]⟩)
    (fun k => k.th.putResult n (tyPair (gType k.th.gmode)) k.path k.act d (fun _ => 0))
    (fun k =>
      let ty := gType k.th.gmode
      let e := (tyBytes ty).getD 1
      let es := (k.th.lanes k.act).map (fun l => mElem k win m o e i.toNat l 0 0)
      loadForm k s n (tyPair ty) d ty e es [] (fun _ => loadExt ty e) [])

/-- A store of the M format (R257). -/
def storeM (ins : Instr) (win : Window) (d : Sel) (m : BitVec 5) (o : Sel) (i : BitVec 3) (s : State) : Res :=
  guardedForm ins s (fun k => (tyBytes (gType k.th.gmode)).isSome && pairSrc (tyPair (gType k.th.gmode)) d)
    (fun k => ⟨true, [], [wsel (tyPair (gType k.th.gmode)) d, (o, 1)]⟩) (fun k => k.th)
    (fun k =>
      let ty := gType k.th.gmode
      let e := (tyBytes ty).getD 1
      let es := (k.th.lanes k.act).map (fun l => mElem k win m o e i.toNat l (BitVec.ofNat 64 (k.th.src (tyPair ty) l d)) 0)
      storeForm k s { kind := .store, ty := ty, size := e, scope := 0, rd := 0, lanes := [], atomic := false } es [])

/-- ld (R256, R257). -/
def execLd (n : Bool) (d : Sel) (k : BitVec 5) (o : Sel) (i : BitVec 3) (s : State) : Res := loadM (.ld n d k o i) .any n d k o i s
/-- st (R256, R257). -/
def execSt (d : Sel) (k : BitVec 5) (o : Sel) (i : BitVec 3) (s : State) : Res := storeM (.st d k o i) .any d k o i s
/-- lds (R256). -/
def execLds (n : Bool) (d : Sel) (k : BitVec 5) (o : Sel) (i : BitVec 3) (s : State) : Res := loadM (.lds n d k o i) .core n d k o i s
/-- sts (R256). -/
def execSts (d : Sel) (k : BitVec 5) (o : Sel) (i : BitVec 3) (s : State) : Res := storeM (.sts d k o i) .core d k o i s
/-- ldp (R256). -/
def execLdp (n : Bool) (d : Sel) (k : BitVec 5) (o : Sel) (i : BitVec 3) (s : State) : Res := loadM (.ldp n d k o i) .priv n d k o i s
/-- stp (R256). -/
def execStp (d : Sel) (k : BitVec 5) (o : Sel) (i : BitVec 3) (s : State) : Res := storeM (.stp d k o i) .priv d k o i s

/-! ## LDT and STT -/

/-- The number under which a shape record is asked of the host: beyond every lane. -/
abbrev recordLane : Nat := 1024

/-- The shape record of an instruction as it can be read at issue, watched as a load of its 128 bytes (R260, R91): its fields and the state after the read, or where the
read stands. -/
def recordRead (k : Iss) (s : State) (a : Nat) : Except Ready (Shape × State) :=
  let e : Elem := { lane := recordLane, a := a, bad := false, data := 0, data2 := 0 }
  let r := s.readyAt k .load none 128 { e with lane := (k.th.lowest k.act).getD 0 }
  match (match s.watch? k.team.ctx .load (match r with
      | .fault .. => []
      | _ => s.vasOf k .load 128 e) with
    | some (i, _) => Ready.fault cWATCH (BitVec.ofNat 64 a) (BitVec.ofNat 32 i)
    | none => s.eccOf true 128 e r) with
  | .spot sp vas => let v := s.loadAt k 128 (.spot sp vas); .ok (Shape.of (toBytes 128 v.1), v.2)
  | .val v => .ok (Shape.of (toBytes 128 v), s)
  | r => .error r

/-- The coordinate of a lane in a dimension (R165). -/
def coord (k : Iss) (l : Nat) (v : Sel) (d : Nat) : Int := (k.th.vreg l (v.toNat + d)).toInt

/-- The lowest dimension in which a lane lies outside the tensor (R165). -/
def outside (k : Iss) (r : Shape) (v : Sel) (l : Nat) : Option Nat :=
  (List.range r.rank).find? (fun d => decide (coord k l v d < 0 ∨ ((r.dim.getD d 0 : Nat) : Int) ≤ coord k l v d))

/-- The address of a lane before PERM (R165). -/
def shapeSum (k : Iss) (r : Shape) (v : Sel) (l : Nat) : Nat :=
  ((r.base : Int) + ((List.range r.rank).map (fun d => coord k l v d * r.stride.getD d 0)).sum) % (2 ^ 64 : Nat) |>.toNat

/-- PERM acts on an element that lies in team scratchpad. -/
def permuted (a : Nat) : Bool := addrClass a == 3 || addrClass a == 2

/-- The permuted address of a lane (R165, R166). Of an 8-byte element PERM moves both 4-byte words within its 8 bytes' new place, so that what a
copy has brought in reads back as written; a misaligned one keeps its address, and faults (log entry 110). -/
def shapeAddr (k : Iss) (r : Shape) (v : Sel) (l : Nat) : Nat :=
  let a := shapeSum k r v l
  if !permuted a then a
  else if r.esize ≠ 8 then permOff r.perm a
  else if a % 8 = 0 then permOff r.perm a / 8 * 8 else a

/-- The two words of a lane's 8-byte element change places under PERM (R166). -/
def shapeSwap (k : Iss) (r : Shape) (v : Sel) (l : Nat) : Bool :=
  let a := shapeSum k r v l
  permuted a && r.esize == 8 && decide (a % 8 = 0) && decide (permOff r.perm a % 8 ≠ 0)

/-- A value with its two words as they lie in memory for a lane. -/
def shapeWords (k : Iss) (r : Shape) (v : Sel) (l x : Nat) : Nat := if shapeSwap k r v l then x % 2 ^ 32 * 2 ^ 32 + x / 2 ^ 32 else x

/-- The lanes of a shaped access: elements, lanes that PERMIT leaves out, SHAPE faults (R165, R78). -/
def shapeLanes (k : Iss) (r : Shape) (v : Sel) (rec : Nat) (data : Nat → DWord) : List Elem × List Nat × List (Elem × Ready) :=
  let ls := k.th.lanes k.act
  let el (l : Nat) : Elem := { lane := l, a := shapeAddr k r v l, bad := false, data := data l, data2 := 0 }
  (ls.filterMap (fun l => if (outside k r v l).isNone then some (el l) else none),
   if r.permit then ls.filter (fun l => (outside k r v l).isSome) else [],
   if r.permit then [] else ls.filterMap (fun l => (outside k r v l).map (fun d =>
     (el l, Ready.fault cSHAPE (BitVec.ofNat 64 rec) (BitVec.ofNat 32 d)))))

/-- A record on a pinned host page with no copy on the device is asked of the host (R119, R260): a completion with data leaves a copy of
its line, and an error completion is the record's fault. -/
def hostRecord (k : Iss) (s : State) (a : Nat) (sp : Spot) : State :=
  match k.host?.bind (fun h => h.bad.find? (fun x => x.1 == recordLane)) with
  | some x => if !mayTrap k s then s else raise k (hostOver k s) ⟨x.2.toNat, k.act, BitVec.ofNat 64 a, memAux .load 128⟩
  | none =>
    if k.sec.hostReq.any (fun h => !h.op.lanes.isEmpty) then waitOn k s .heldLoad .event
    else
      let x : LaneOp := { lane := recordLane, addr := BitVec.ofNat 64 a, vas := [], spot := some sp, data := 0, data2 := 0 }
      let op : MemOp := { kind := .store, ty := 0, size := 128, scope := 0, rd := 0, lanes := [x], atomic := false }
      let h : HostReq := { who := k.rec?.map (fun r => r.2.2.id), op := op, dest := none, isLoad := true
                           got := (k.host?.map HostReq.got).getD [], bad := (k.host?.map HostReq.bad).getD []
                           part := k.host?.bind HostReq.part, since := s.nextOp }
      waitOn k (modOwn k s (fun c => { c with hostReq := some h })) .heldLoad .event

/-- The common part of ldt and stt (R260): the record, its faults, the registers it needs; then the access. -/
def shaped (ins : Instr) (n : Bool) (d : Sel) (isLoad : Bool) (m : BitVec 5) (v : Sel) (s : State)
    (eff : Iss → State → Shape → Nat → State) : Res :=
  guardedForm ins s (fun _ => true) (fun _ => ⟨n, [], []⟩)
    (fun k => if isLoad then k.th.putResult n false k.path k.act d (fun _ => 0) else k.th)
    (fun k =>
      let a := (k.th.kpair (2 * m.toNat)).toNat
      let uses (w : Bool) (c : Nat) : Uses := if isLoad then ⟨n, [wsel w d], [(v, c)]⟩ else ⟨true, [], [wsel w d, (v, c)]⟩
      if a % 128 ≠ 0 then raise k s ⟨cOPND, k.act, BitVec.ofNat 64 a, wordOf ins⟩
      else match recordRead k s a with
        | .error r =>
          match regFault k.th k.act (uses false 1) with
          | some x => raise k s x
          | none => match r with
            | .fault c ad w => raiseAccess k (s.homesServed k.team.tid k.homeKey) ⟨c, k.act, ad, w⟩
            | .host sp => hostRecord k s a sp
            | .absent s' tid l => waitOn k s' .absent (.line tid l)
            | .held va => waitOn k (s.askHome k.team.ctx va [(k.team.tid, k.homeKey)]) .heldLoad .again
            | .logged => waitOn k s .heldLoad .again
            | _ => s
        | .ok (r, s') =>
          if !r.ok false false then raise k s ⟨cOPND, k.act, BitVec.ofNat 64 a, wordOf ins⟩
          else
            let w := decide (r.esize = 8)
            if !(if isLoad then pairDst w d else pairSrc w d) then raise k s ⟨cOPND, k.act, 0, wordOf ins⟩
            else match regFault k.th k.act (uses w r.rank) with
              | some x => raise k s x
              | none => eff k s' r a)

/-- ldt (R260). -/
def execLdt (n : Bool) (d : Sel) (m : BitVec 5) (v : Sel) (h : BitVec 3) (s : State) : Res :=
  shaped (.ldt n d m v h) n d true m v s (fun k s r a =>
    let p := shapeLanes k r v a (fun _ => 0)
    let ty := gType k.th.gmode
    let signed := tySigned ty || ty == 8
    loadForm k s n (decide (r.esize = 8)) d ty r.esize p.1 p.2.1 (fun l x => loadExt (if signed then 0 else 4) r.esize (shapeWords k r v l x)) p.2.2)

/-- stt (R260). -/
def execStt (d : Sel) (m : BitVec 5) (v : Sel) (h : BitVec 3) (s : State) : Res :=
  shaped (.stt d m v h) true d false m v s (fun k s r a =>
    let p := shapeLanes k r v a (fun l => BitVec.ofNat 64 (shapeWords k r v l (k.th.src (decide (r.esize = 8)) l d)))
    storeForm k s { kind := .store, ty := 0, size := r.esize, scope := 0, rd := 0, lanes := [], atomic := false } p.1 p.2.2)

/-! ## ATOM and RED -/

/-- The TYPE an atomic accepts (R261). -/
def atomTy (kind : OpKind) (t : BitVec 5) : Bool :=
  match t.toNat with
  | 2 | 3 | 6 | 7 => true
  | 10 | 11 => kind == .add || kind == .xchg || kind == .cas
  | _ => false

/-- BODY of an atomic arrival record (R139). -/
def atomBody (t : Team) (role : Nat) (x : LaneOp) : Nat :=
  let a := match x.vas with
    | v :: _ => v.1
    | [] => x.addr.toNat % 2 ^ 49
  a * 2 ^ 47 + t.index % 2 ^ 24 * 2 ^ 23 + role * 2 ^ 21 + x.lane / 32 * 2 ^ 16 + x.lane % 32 * 2 ^ 11

/-- The arrivals of one instruction at each address it names, in deterministic mode (R139, R140, R265): the lowest lane stands
for those that share an address. -/
def atomTurn (t : Team) (c : Section) (s : State) : List LaneOp → Turn
  | ls =>
    let key (x : LaneOp) : Nat := atomBody t 0 x / 2 ^ 47
    let firsts := ls.foldl (fun acc x => if acc.any (fun y => key y == key x) then acc else acc ++ [x]) ([] : List LaneOp)
    firsts.foldl (fun acc x => match acc with
      | .go s => s.choose t.ctx c.det c.replay 2 (atomBody t c.role x) (fun b => decide (b / 2 ^ 47 = key x))
      | r => r) (Turn.go s)

/-- One atom major (R261). -/
def atomM (ins : Instr) (kind : OpKind) (n : Bool) (d : Sel) (m : BitVec 5) (o : Sel) (c : BitVec 3) (s : State) : Res :=
  let wide (k : Iss) : Bool := tyPair (gType k.th.gmode)
  guardedForm ins s
    (fun k => atomTy kind (gType k.th.gmode) &&
      (if kind = .cas then (!wide k || decide (d.toNat % 4 = 0)) else (if n then pairSrc (wide k) d else pairDst (wide k) d)))
    (fun k => ⟨n, if n then [] else [wsel (wide k) d],
      [(d, if kind = .cas then (if wide k then 4 else 2) else (if wide k then 2 else 1)), (o, 1)]⟩)
    (fun k => if n then k.th else k.th.putResult n (wide k) k.path k.act d (fun _ => 0))
    (fun k =>
      let ty := gType k.th.gmode
      let w := wide k
      let e := (tyBytes ty).getD 4
      let second (l : Nat) : DWord :=
        if kind = .cas then k.th.regVal l (BitVec.ofNat 8 (d.toNat + (if w then 2 else 1))) w else 0
      let es := (k.th.lanes k.act).map (fun l => mElem k .any m o e 0 l (BitVec.ofNat 64 (k.th.src w l d)) (second l))
      let op : MemOp := { kind := kind, ty := ty, size := e, scope := c, rd := gRd k.th.gmode, lanes := [], atomic := true }
      if n then storeForm k s op es [] else atomForm k s w d op es (atomTurn k.team k.sec))

/-- ATOM_ADD (R261). -/
def execAtomAdd (n : Bool) (d : Sel) (k : BitVec 5) (o : Sel) (c : BitVec 3) (s : State) : Res := atomM (.atomAdd n d k o c) .add n d k o c s
/-- ATOM_MIN (R261). -/
def execAtomMin (n : Bool) (d : Sel) (k : BitVec 5) (o : Sel) (c : BitVec 3) (s : State) : Res := atomM (.atomMin n d k o c) .min n d k o c s
/-- ATOM_MAX (R261). -/
def execAtomMax (n : Bool) (d : Sel) (k : BitVec 5) (o : Sel) (c : BitVec 3) (s : State) : Res := atomM (.atomMax n d k o c) .max n d k o c s
/-- ATOM_AND (R261). -/
def execAtomAnd (n : Bool) (d : Sel) (k : BitVec 5) (o : Sel) (c : BitVec 3) (s : State) : Res := atomM (.atomAnd n d k o c) .and n d k o c s
/-- ATOM_OR (R261). -/
def execAtomOr (n : Bool) (d : Sel) (k : BitVec 5) (o : Sel) (c : BitVec 3) (s : State) : Res := atomM (.atomOr n d k o c) .or n d k o c s
/-- ATOM_XOR (R261). -/
def execAtomXor (n : Bool) (d : Sel) (k : BitVec 5) (o : Sel) (c : BitVec 3) (s : State) : Res := atomM (.atomXor n d k o c) .xor n d k o c s
/-- ATOM_XCHG (R261). -/
def execAtomXchg (n : Bool) (d : Sel) (k : BitVec 5) (o : Sel) (c : BitVec 3) (s : State) : Res := atomM (.atomXchg n d k o c) .xchg n d k o c s
/-- ATOM_CAS (R261). -/
def execAtomCas (n : Bool) (d : Sel) (k : BitVec 5) (o : Sel) (c : BitVec 3) (s : State) : Res := atomM (.atomCas n d k o c) .cas n d k o c s

/-- One red major (R264). -/
def redM (ins : Instr) (kind : OpKind) (d : Sel) (m : BitVec 5) (o : Sel) (c : BitVec 3) (s : State) : Res :=
  guardedForm ins s (fun k => atomTy kind (gType k.th.gmode) && pairSrc (tyPair (gType k.th.gmode)) d)
    (fun k => ⟨true, [], [wsel (tyPair (gType k.th.gmode)) d, (o, 1)]⟩) (fun k => k.th)
    (fun k =>
      let ty := gType k.th.gmode
      let e := (tyBytes ty).getD 4
      let es := (k.th.lanes k.act).map (fun l => mElem k .any m o e 0 l (BitVec.ofNat 64 (k.th.src (tyPair ty) l d)) 0)
      storeForm k s { kind := kind, ty := ty, size := e, scope := c, rd := gRd k.th.gmode, lanes := [], atomic := false } es [])

/-- RED_ADD (R264). -/
def execRedAdd (d : Sel) (k : BitVec 5) (o : Sel) (c : BitVec 3) (s : State) : Res := redM (.redAdd d k o c) .add d k o c s
/-- RED_MIN (R264). -/
def execRedMin (d : Sel) (k : BitVec 5) (o : Sel) (c : BitVec 3) (s : State) : Res := redM (.redMin d k o c) .min d k o c s
/-- RED_MAX (R264). -/
def execRedMax (d : Sel) (k : BitVec 5) (o : Sel) (c : BitVec 3) (s : State) : Res := redM (.redMax d k o c) .max d k o c s
/-- RED_AND (R264). -/
def execRedAnd (d : Sel) (k : BitVec 5) (o : Sel) (c : BitVec 3) (s : State) : Res := redM (.redAnd d k o c) .and d k o c s
/-- RED_OR (R264). -/
def execRedOr (d : Sel) (k : BitVec 5) (o : Sel) (c : BitVec 3) (s : State) : Res := redM (.redOr d k o c) .or d k o c s
/-- RED_XOR (R264). -/
def execRedXor (d : Sel) (k : BitVec 5) (o : Sel) (c : BitVec 3) (s : State) : Res := redM (.redXor d k o c) .xor d k o c s

end Sys2Proof.Machine
end

