-- ==== Sys2Proof/Machine/Spaces.lean ====
section
/-!
DEFINITION. FENCE and its promotion form (R266, R267), window tests and casts (R268 to R270), SYSFLUSH and SYSINV (R271).
-/

namespace Sys2Proof.Machine

/-! ## FENCE -/

/-- At completion a fence of gang scope or wider drops the core's cached lines (R266). -/
def fenceDrop (k : Iss) (s : State) (scope : Nat) : State :=
  if 2 ≤ scope then s.modCore k.team.die k.team.core (fun x => { x with dcache := [] }) else s

/-- fence (R266). -/
def execFence (c : BitVec 3) (s : State) : Res :=
  pathForm (.fence c) s (fun _ => true) (fun _ => ⟨true, [], []⟩) (fun k =>
    if s.performed k c.toNat then noteRelease k (pass k (fenceDrop k s c.toNat)) else s)

/-- The drain of fence.rp (R267, steps 1 and 2): what every section of the context had issued before it, below a number, has performed at
the scope, in the comparators and at the host too, and has replayed from its side logs, those of discarded teams included. -/
def drained (s : State) (ctx scope n : Nat) : Bool :=
  let mine (tid : Nat) : Bool := s.teams.any (fun t => t.tid == tid && t.ctx == ctx)
  let secs := s.teams.flatMap (fun t => if t.ctx = ctx then t.secs else [])
  secs.all (fun c => c.log.all (fun e => decide (n ≤ e.id)) && c.cmp.all (fun o => decide (n ≤ o.id))
      && c.hostReq.all (fun h => h.op.lanes.isEmpty || decide (n ≤ h.since)))
    && s.orphans.all (fun o => o.ctx != ctx || decide (n ≤ o.entry.id))
    && (scope = 0 || s.remote.all (fun r => !mine r.tid || decide (n ≤ r.id)))
    && (scope < 2 || s.cores.all (fun x => x.2.storeBuf.all (fun b => !mine b.tid || decide (n ≤ b.id))))

/-- The lines of global memory that a generic address lies in, as a walk finds them (R267, step 3). -/
def lineOf (k : Iss) (s : State) (a : Nat) : List Nat :=
  match s.placeOf k.team k.sec ((k.th.lowest k.path).getD 0) a 1 with
  | .glob vas => vas.filterMap (fun x => match s.translateNow k.team.ctx .load x.1 with
    | .ok pa _ => some (pa / 128 * 128)
    | _ => none)
  | _ => []

/-- fence.rp (R267). -/
def execFenceRp (c : BitVec 3) (a : Sel) (s : State) : Res :=
  pathForm (.fenceRp c a) s (fun _ => true) (fun _ => ⟨true, [], [(a, 2)]⟩) (fun k =>
    let ad := (k.th.kpair (uniNo a)).toNat
    let e : Elem := { lane := (k.th.lowest k.path).getD 0, a := ad, bad := false, data := 0, data2 := 0 }
    match s.checkPlace k .load 1 e with
    | .error f => raise k s ⟨f, k.path, BitVec.ofNat 64 ad, memAux .load 1⟩
    | .ok _ =>
      let who := k.rec?.map (fun r => r.2.2.id)
      let n := ((k.sec.drains.find? (fun x => x.1 == who)).map Prod.snd).getD s.nextOp
      let others := k.sec.drains.filter (fun x => x.1 != who)
      let lines := lineOf k s ad
      -- from the drain on the line is promoted: a write to it shows what its section's release covers (R359)
      let promote (c : Section) : Section := { c with promo := c.promo ++ lines.filter (fun l => !c.promo.contains l) }
      if drained s k.team.ctx c.toNat n && s.performed k c.toNat then
        noteRelease k (pass k (modOwn k (fenceDrop k (lines.foldl (fun s l => s.dropLineAll l) s) c.toNat) (fun c => promote { c with drains := others })))
      else modOwn k s (fun c => promote { c with drains := (who, n) :: others }))

/-! ## Window tests and casts -/

/-- sptest (R268). -/
def execSptest (d b : Sel) (s : State) : Res :=
  laneForm (.sptest d b) s (fun _ => true) false d (fun _ => false) (fun _ => [(b, 2)])
    (fun th l => (BitVec.ofNat 64 (addrClass (th.src64 l b).toNat), 0))

/-- A form whose lanes may each raise SPACE with an address, and otherwise write a value (R269, R270). -/
def castForm (ins : Instr) (d b : Sel) (wd wb : Bool) (f : Iss → Nat → Nat × Bool × DWord) (s : State) : Res :=
  guardedForm ins s (fun _ => true) (fun _ => ⟨false, [wsel wd d], [wsel wb b]⟩)
    (fun k => k.th.putResult false wd k.path k.act d (fun _ => 0)) (fun k =>
      let rs := (k.th.lanes k.act).map (fun l =>
        let r := f k l
        let e : Elem := { lane := l, a := r.1, bad := false, data := 0, data2 := 0 }
        (e, if r.2.1 then Ready.fault cSPACE (BitVec.ofNat 64 r.1) (memAux .load 1) else Ready.val 0))
      accessEnd k s (putSome k false wd d (okLanes rs) (fun l => (f k l).2.2)) rs)

/-- The address that spcast forms and whether it raises SPACE (R269). -/
def castAddr (k : Iss) (cls o : Nat) : Nat × Bool :=
  match cls with
  | 0 => (o, false)
  | 1 => (0xF8 * 2 ^ 56 + k.team.die * 2 ^ 54 + o, decide (2 ^ 25 ≤ o))
  | 2 => (0xFA * 2 ^ 56 + k.team.rank * 2 ^ 52 + o, decide (k.team.scratchSize ≤ o))
  | 3 => (0xFC * 2 ^ 56 + k.team.die * 2 ^ 54 + k.team.core * 2 ^ 48 + o, decide (k.team.scratchSize ≤ o))
  | _ => (0xFE * 2 ^ 56 + o, decide (k.team.privSize ≤ o))

/-- spcast (R269). -/
def execSpcast (c : BitVec 3) (d b : Sel) (s : State) : Res :=
  castForm (.spcast c d b) d b true false (fun k l =>
    let r := castAddr k c.toNat (k.th.src32 l b).toNat
    (r.1, r.2, BitVec.ofNat 64 r.1)) s

/-- spcast.off (R270). -/
def execSpcastOff (c : BitVec 3) (d b : Sel) (s : State) : Res :=
  castForm (.spcastOff c d b) d b false true (fun k l =>
    let a := (k.th.src64 l b).toNat
    (a, decide (addrClass a ≠ c.toNat) || s.spaceFault k.team a 1 || (c == 0 && decide (bits a 32 17 ≠ 0)), BitVec.ofNat 64 (a % 2 ^ 32))) s

/-! ## SYSFLUSH and SYSINV -/

/-- sysflush and sysinv (R271): counted on OSYS until SYS_CACHE_OP_COMPLETE. -/
def sysForm (ins : Instr) (flush : Bool) (a b : Sel) (s : State) : Res :=
  guardedForm ins s (fun _ => true) (fun _ => ⟨true, [], [(a, 2), (b, 1)]⟩) (fun k => k.th) (fun k =>
    let ad := (k.th.kpair (uniNo a)).toNat
    if addrClass ad ≠ 0 ∨ !addrZeros ad then raise k s ⟨cSPACE, k.act, BitVec.ofNat 64 ad, memAux .load 1⟩
    else if counter k.sec 4 = 63 then waitOn k s .copyEntry (.counter 4 62)
    else
      let op : SysOp := { id := s.nextOp, tid := k.team.tid, role := k.sec.role, ctx := k.team.ctx, flush := flush, va := ad
                          len := (k.th.kreg (uniNo b)).toNat }
      let s : State := { s with nextOp := s.nextOp + 1, sysOps := s.sysOps ++ [op] }
      pass k (modOwn k s (outAdd 4 op.id)))

/-- sysflush (R271). -/
def execSysflush (a b : Sel) (s : State) : Res := sysForm (.sysflush a b) true a b s
/-- sysinv (R271). -/
def execSysinv (a b : Sel) (s : State) : Res := sysForm (.sysinv a b) false a b s

end Sys2Proof.Machine
end

