-- ==== Sys2Proof/Machine/Homes.lean ====
section
/-!
DEFINITION. Events of the memory system: what stores, remote steps and host requests meet on their way (R257 to R263, R353 to
R363), page homes and migration (R152 to R161), caches (R119, R271), the dual-run comparator (R195), and the end of a wait (R75).
-/

namespace Sys2Proof.Machine

/-! ## Waits -/

/-- The condition of a wait has ended (R75, R182, R186, R189, R190, R105). -/
def waitOver (t : Team) (c : Section) : WaitFor → State → Bool
  | .again, _ => true
  | .counter cls n, _ => decide (counter c cls ≤ n)
  | .barrier off q, _ =>
    let b := t.tbar off
    decide (b.phase ≠ q) || b.cerr || !b.init || decide (b.resv ≠ 0)
  | .phase pc, _ => c.arrived.any (fun a => a.1 == pc && a.2.2.2)
  | .line tid l, s => (s.team? tid).all (fun u => lineOpen s u l)
  | .event, _ => c.hostReq.isNone && c.cmp.all (fun o => o.dest.isNone) && c.peerSend.isNone && c.emu.isNone

/-- A section is ready again; a held load has no boundary before it completes (R348). -/
def wakeUp (c : Section) : Section :=
  { c with state := readyState c, waitOn := .none, waitFor := if c.waitOn = .heldLoad then .event else .again }

/-- A waiting section whose condition has ended is ready again. -/
def State.endWait (s : State) (tid role : Nat) : State :=
  match s.team? tid, s.sec? tid role with
  | some t, some c => if c.state = .waiting ∧ waitOver t c c.waitFor s = true then s.modSec tid role wakeUp else s
  | _, _ => s

/-- WAIT_END: what a section waits for has come: the release of its oldest step that now can happen (R329), or the end of its wait
(R75). -/
def execWaitEnd (tid role : Nat) (s : State) : Res := .next ((s.tryRelease tid role).endWait tid role)

/-- HELD_LOAD_COMPLETE: a held load's page has been mapped or moved, or its page home has failed; the load is tried again (R155,
R159). -/
def execHeldLoadComplete (tid role : Nat) (s : State) : Res :=
  .next (match s.team? tid, s.sec? tid role with
    | some t, some c =>
      if c.state = .waiting ∧ c.waitOn = .heldLoad ∧ c.waitFor = .again
          ∧ s.homes.any (fun h => h.ctx == t.ctx && !h.failed && h.who.contains (tid, role)) = false then
        s.modSec tid role wakeUp
      else s
    | _, _ => s)

/-! ## Stores and remote steps -/

/-- Two byte lists share an address. -/
def sharesByte (a b : List (Nat × Byte)) : Bool := a.any (fun x => b.any (fun y => y.1 == x.1))

/-- A spot of a remote step meets the bytes of a buffered store. -/
def Spot.hits (sp : Spot) (bs : List (Nat × Byte)) : Bool :=
  match sp with
  | .phys pas => (physBytes pas).any (fun p => bs.any (fun b => b.1 == p))
  | _ => false

/-- An operation numbered before a promoted line's (R359): what its section had issued before its last release has performed at device
scope, so that whoever reads the line sees that too. -/
def State.promoWaits (s : State) (tid role rel : Nat) (ls : List Nat) : Bool :=
  s.promoted ls && (match s.team? tid, s.sec? tid role with
    | some t, some c => !s.olderPerformed t c none rel 2
    | _, _ => false)

/-- A store of the core, older than an operation, to bytes of its spot has still to perform, whichever of the core's sections issued it: the
release that may order the two works within the core (R351, R353). -/
def Core.olderStore (c : Core) (id : Nat) (sp : Spot) : Bool := c.storeBuf.any (fun b => decide (b.id < id) && sp.hits b.bytes)

/-- STORE_PERFORM: a buffered element performs at its home (R353, R355), after every older one of the core to the same bytes and
every older remote step of its section there; on a promoted line, after what its section's last release covers (R359). -/
def execStorePerform (die core idx : Nat) (s : State) : Res :=
  .next (
    let x := s.coreAt die core
    match x.storeBuf[idx]? with
    | none => s
    | some b =>
      if (x.storeBuf.take idx).any (fun o => sharesByte o.bytes b.bytes) then s
      else if s.remote.any (fun r => r.tid == b.tid && r.role == b.role && decide (r.id < b.id)
          && r.op.lanes.any (fun l => match l.spot with
            | some sp => sp.hits b.bytes
            | none => false)) then s
      else if s.promoWaits b.tid b.role b.rel (b.bytes.map (fun x => x.1 / 128 * 128)) then s
      else
        let s := s.homeWrite b.bytes
        (s.cachePut die core b.bytes).modCore die core (fun x => { x with storeBuf := x.storeBuf.filter (fun e => e.id != b.id) }))

/-- A reduction's contribution enters the epoch of its place (R363): the launch's, or that of the team whose scratchpad it is. -/
def State.accumulate (s : State) (t : Team) (role : Nat) (op : MemOp) (x : LaneOp) : State :=
  let con : Contribution := { key := [t.index, role, x.lane / 32, x.lane % 32], op := { op with lanes := [] }, lane := x }
  match x.spot with
  | some (.team tid _) => s.modTeam tid (fun u => { u with epoch := u.epoch ++ [con] })
  | _ => s.modLaunch t.lid (fun l => { l with epoch := l.epoch ++ [con] })

/-- One lane of a posted step performs at its place, or is accepted into an epoch (R55, R262, R363, R265). -/
def State.postLane (s : State) (t : Team) (c : Section) (op : MemOp) (x : LaneOp) : Turn :=
  match x.spot with
  | none => .go s
  | some sp =>
    let drop (s : State) : State := sp.linesOf.foldl (fun s l => s.dropLine t.die t.core l) s
    if op.kind = .store then .go (drop (s.spotWrite t.ctx sp (toBytes op.size x.data.toNat)))
    else if c.det && !op.atomic then .go (s.accumulate t c.role op x)
    else
      let turn := if op.atomic then s.choose t.ctx c.det c.replay 2 (atomBody t c.role x) (fun b => decide (b / 2 ^ 47 = atomBody t 0 x / 2 ^ 47))
        else .go s
      match turn with
      | .go s => .go (drop (s.stepAt t.ctx op x sp).2)
      | r => r

/-- The place of a posted step can take it: its scratchpad line is present and its team resident (R101, R105). -/
def State.placeOpen (s : State) (sp : Spot) (n : Nat) : Except State Unit :=
  match sp with
  | .team tid off =>
    if (s.team? tid).any (fun t => t.bank == .shadow || t.bank == .saved) then .error s
    else match touch s tid (rangeLines off n) with
      | .wait s' _ => .error s'
      | _ => .ok ()
  | _ => .ok ()

/-- REMOTE_PERFORM: the next lane of a posted step performs, after the older writes there of its section and of its core's other
sections (R262, R351, R353, R181), and on a promoted line after what its section's last release covers (R359). -/
def execRemotePerform (tid role op : Nat) (s : State) : Res :=
  .next (
    match s.team? tid, s.sec? tid role, s.remote.find? (fun r => r.id == op && r.tid == tid && r.role == role) with
    | some t, some c, some r =>
      match r.op.lanes with
      | [] => s
      | x :: rest =>
        match x.spot with
        | none => s
        | some sp =>
          if (s.coreAt t.die t.core).olderStore r.id sp || s.promoWaits tid role r.rel sp.linesOf then s
          else if s.remote.any (fun o => o.tid == tid && o.role == role && decide (o.id < r.id)
              && o.op.lanes.any (fun l => match l.spot with
                | some y => sp.near y r.op.size o.op.size
                | none => false)) then s
          else match s.placeOpen sp r.op.size with
            | .error s' => s'
            | .ok _ => match s.postLane t c r.op x with
              | .wait va => s.waitTurn t.ctx va
              | .diverged => replayDiverged s t.ctx
              | .go s =>
                let upd (o : RemoteOp) : Option RemoteOp :=
                  if o.id = op then (if rest.isEmpty then none else some { o with op := { o.op with lanes := rest } }) else some o
                let s : State := { s with remote := s.remote.filterMap upd }
                s.partDone tid role op
    | _, _, _ => s)

/-- The pieces of a lane's element translated now: its spot, a page still to come, or a fault (R158). -/
def State.respot (s : State) (ctx : Nat) (k : Access) (vas : List (Nat × Nat)) : Glob :=
  vas.foldr (fun x acc => match s.translateNow ctx k x.1 with
    | .page => .bad cPAGE
    | .prot => .bad cPROT
    | .resolvable => match acc with
      | .bad c => .bad c
      | _ => .res x.1
    | .ok pa _ => match acc with
      | .ok l => .ok ((pa, x.2) :: l)
      | r => r) (.ok [])

/-- Where a contribution to global memory applies at the close of its epoch: in the frame its page has by then, since a page may have moved
since the reducer accepted it (R160, R363); a page still to come is asked for first. -/
def State.placeAgain (s : State) (ctx : Nat) (x : Contribution) : Except Nat Contribution :=
  match x.lane.spot with
  | some (.phys _) => match s.respot ctx .red x.lane.vas with
    | .ok pas => .ok { x with lane := { x.lane with spot := some (.phys pas) } }
    | .res va => .error va
    | .bad _ => .ok x
  | _ => .ok x

/-- EPOCH_CLOSE: every team has exited and every write of the launch has performed; the contributions apply in the order of R55 (R363). -/
def execEpochClose (lid : Nat) (s : State) : Res :=
  .next (match s.launch? lid with
    | some l =>
      let mine (tid : Nat) : Bool := s.teams.any (fun t => t.tid == tid && t.lid == lid)
      if l.pkt.det && !l.epochClosed && l.placed == l.pkt.grid && s.teams.all (fun t => t.lid != lid || t.bank == .gone)
          && s.remote.all (fun r => !mine r.tid) && s.orphans.all (fun o => !mine o.tid)
          && s.cores.all (fun x => x.2.storeBuf.all (fun b => !mine b.tid))
          && s.teams.all (fun t => t.lid != lid || t.secs.all (fun c => c.log.isEmpty && c.cmp.isEmpty)) then
        match (l.epoch.map (s.placeAgain l.ctx)).findSome? (fun x => match x with
            | .error va => some va
            | .ok _ => none) with
        | some va => s.askHome l.ctx va []
        | none =>
          let again (x : Contribution) : Contribution := match s.placeAgain l.ctx x with
            | .ok y => y
            | .error _ => x
          (applyEpoch s l.ctx (l.epoch.map again)).modLaunch lid (fun l => { l with epoch := [], epochClosed := true })
      else s
    | none => s)

/-! ## The host link -/

/-- The host request of a section advances; when nothing is left to ask, a waiting path is ready again (R259, R263). -/
def hostStep (s : State) (tid role : Nat) (h : HostReq) : State :=
  s.modSec tid role (fun c => { c with
    hostReq := some h
    state := if h.op.lanes.isEmpty && h.who.isNone && c.state == .waiting then readyState c else c.state
    waitOn := if h.op.lanes.isEmpty && h.who.isNone && c.state == .waiting then .none else c.waitOn })

/-- A host answer also reaches the second copy of a dual-run team (R195). -/
def hostTwin (s : State) (tid role : Nat) (h : HostReq) : State :=
  match (s.team? tid).bind Team.twin with
  | some u => match (s.sec? u role).bind Section.hostReq with
    | some g => if !h.isLoad && h.op.lanes.isEmpty then hostStep s u role { g with op := h.op, got := h.got, bad := h.bad } else s
    | none => s
  | none => s

/-- Bytes of host memory come over the link, as the host's memory holds them by then, and the device keeps them; a line of which a slice
has got a copy since keeps the copy's, which may hold newer writes of the device (R119, R352, R353). -/
def State.hostBytes (s : State) (pa : Nat) (bs : List Byte) : State := if (s.sliceLine? (pa / 128 * 128)).isSome then s else s.physWrite pa bs

/-- LOAD_RETURN: the host link answers a load element (R257, R259): 0 data, 1 Unsupported Request, 2 Completer Abort. With
sixteen words the whole line comes, as a shape record always does, and the device keeps a copy of it (R119). -/
def execLoadReturn (tid role : Nat) (status : Nat) (data : List (BitVec 64)) (s : State) : Res :=
  .next (match s.team? tid, (s.sec? tid role).bind Section.hostReq with
    | some t, some h =>
      match h.isLoad, h.op.lanes with
      | true, x :: rest =>
        let h' := { h with op := { h.op with lanes := rest } }
        if status = 1 then hostStep s tid role { h' with bad := h.bad ++ [(x.lane, 0x15)] }
        else if status = 2 then hostStep s tid role { h' with bad := h.bad ++ [(x.lane, 0x16)] }
        else match x.spot with
          | some (.phys pas) =>
            let pa := (pas.head?.getD (0, 0)).1
            let line := pa / 128 * 128
            if data.length = 16 ∧ pas.length = 1 then
              let s := s.hostBytes line (data.flatMap (fun w => toBytes 8 w.toNat))
              let bs := (s.homeLine? line).getD (data.flatMap (fun w => toBytes 8 w.toNat))
              let v := ofBytes ((bs.drop (pa - line)).take h.op.size)
              let s := (if (s.sliceLine? line).isNone then s.takeSlice line bs else s).modCore t.die t.core (fun c => c.keepLine line bs)
              hostStep s tid role { h' with got := h.got ++ [(x.lane, BitVec.ofNat 64 v)] }
            else if h.op.size = 128 then s
            else
              let v := (data.headD 0).toNat % 2 ^ (8 * h.op.size)
              let s := ((physBytes pas).zip (toBytes h.op.size v)).foldl (fun s b => s.hostBytes b.1 [b.2]) s
              let now (b : Nat × Byte) : Byte := match s.sliceLine? (b.1 / 128 * 128) with
                | some l => l.data.getD (b.1 % 128) 0
                | none => b.2
              let v := ofBytes (((physBytes pas).zip (toBytes h.op.size v)).map now)
              hostStep s tid role { h' with got := h.got ++ [(x.lane, BitVec.ofNat 64 v)] }
          | _ => s
      | _, _ => s
    | _, _ => s)

/-- The lanes an AtomicOp stands for: with an integer add, every lane of its address (R263). -/
def combinedLanes (h : HostReq) (x : LaneOp) : List LaneOp :=
  if h.op.kind = .add then h.op.lanes.filter (fun y => y.addr == x.addr) else [x]

/-- A host request without the lanes that one AtomicOp carried. -/
def HostReq.without (h : HostReq) (ls : List LaneOp) : HostReq :=
  { h with op := { h.op with lanes := h.op.lanes.filter (fun y => !(ls.any (fun z => z.lane == y.lane))) } }

/-- The lanes of one AtomicOp fail with a code (R263). -/
def hostFail (s : State) (tid role : Nat) (h : HostReq) (x : LaneOp) (code : BitVec 8) : State :=
  let ls := combinedLanes h x
  let h' := { h.without ls with bad := h.bad ++ ls.map (fun y => (y.lane, code)) }
  hostTwin (hostStep s tid role h') tid role h'

/-- The place of an ATOM at the host in the order of arrivals at its address, in deterministic mode (R265, R139, R140). -/
def hostTurn (s : State) (t : Team) (c : Section) (h : HostReq) (x : LaneOp) : Turn :=
  if h.op.atomic then s.choose t.ctx c.det c.replay 2 (atomBody t c.role x) (fun b => decide (b / 2 ^ 47 = atomBody t 0 x / 2 ^ 47)) else .go s

/-- ATOMICOP_COMPLETION: the host answers an AtomicOp (R263, R366): the old value, or 1 Unsupported Request, 2 Completer Abort. -/
def execAtomicopCompletion (tid role : Nat) (status : Nat) (old : BitVec 64) (s : State) : Res :=
  .next (match s.team? tid, s.sec? tid role, (s.sec? tid role).bind Section.hostReq with
    | some t, some c, some h =>
      match h.isLoad, h.op.lanes with
      | false, x :: _ =>
        if status = 1 then hostFail s tid role h x 0x15
        else if status = 2 then hostFail s tid role h x 0x16
        else match hostTurn s t c h x with
        | .wait va => s.waitTurn t.ctx va
        | .diverged => replayDiverged s t.ctx
        | .go s =>
          let ls := combinedLanes h x
          let m := 2 ^ (8 * h.op.size)
          let step (acc : Nat × List (Nat × DWord)) (y : LaneOp) : Nat × List (Nat × DWord) :=
            ((h.op.new acc.1 y).getD acc.1, acc.2 ++ [(y.lane, BitVec.ofNat 64 acc.1)])
          let r := ls.foldl step (old.toNat % m, [])
          let s := match x.spot with
            | some (.phys pas) => ((physBytes pas).zip (toBytes h.op.size r.1)).foldl (fun s b => s.physWrite b.1 [b.2]) s
            | _ => s
          let h' := { h.without ls with got := h.got ++ r.2 }
          hostTwin (hostStep s tid role h') tid role h'
      | _, _ => s
    | _, _, _ => s)

/-- COMPLETION_TIMEOUT: a request to the host is not answered in time (R259, R263). -/
def execCompletionTimeout (tid role : Nat) (s : State) : Res :=
  .next (match (s.sec? tid role).bind Section.hostReq with
    | some h =>
      match h.op.lanes with
      | x :: rest =>
        if h.isLoad then hostStep s tid role { h with op := { h.op with lanes := rest }, bad := h.bad ++ [(x.lane, 0x17)] }
        else hostFail s tid role h x 0x17
      | [] => s
    | none => s)

/-! ## Translation and page homes -/

/-- WALK_COMPLETE: a miss of a core's TLB has been walked (R152, R196): what the walk found, an entry that maps nothing included, enters the
TLB, which holds 1,024 entries, and the directory entries it read are held too. -/
def execWalkComplete (die core ctx : Nat) (va : BitVec 64) (s : State) : Res :=
  .next (
    let x := s.coreAt die core
    if x.ctx ≠ some ctx ∨ 2 ^ 49 ≤ va.toNat ∨ (tlbFind x.tlb ctx va.toNat).isSome = true then s
    else
      let l := (s.coreWalk die core ctx va.toNat).getD (0, 12)
      let dirs := (walkDirs (s.dirAt die core) (s.ctxAt ctx).ptroot.toNat va.toNat).map (fun pa => (pa, some (BitVec.ofNat 64 (s.dirAt die core pa))))
      (s.pmAdd die core 5 1).modCore die core (fun x =>
        let t := if 1024 ≤ x.tlb.length then x.tlb.drop 1 else x.tlb
        { x with tlb := tset (0, 0) t (tlbKey ctx va.toNat l.2) (BitVec.ofNat 64 l.1, l.2), dirs := tsets none x.dirs dirs }))

/-- An invalidation of a range: no TLB and no walker keeps an entry of it (R153). -/
def State.dropTlb (s : State) (ctx base len : Nat) : State :=
  let keep (e : Nat × DWord × Nat) : Bool :=
    let lo := e.1 % 2 ^ 37 * 4096
    !(e.1 / 2 ^ 37 == ctx && decide (lo < base + len ∧ base < lo + 2 ^ e.2.2))
  { s with cores := (s.cores.map (fun x => (x.1, { x.2 with tlb := x.2.tlb.filter keep, dirs := [] }))).filter (fun x => x.2 ≠ core0) }

/-- No core keeps a cached line of a physical range; slice copies of it are written back and dropped. -/
def State.dropRange (s : State) (pa len : Nat) : State :=
  let out (l : Nat) : Bool := !decide (pa ≤ l ∧ l < pa + len)
  let lines := s.slices.flatMap (fun x => (x.2.lines.map Prod.fst).filter (fun l => !out l))
  let s := lines.foldl (fun s l => (s.writeBack l).dropSlice l) s
  { s with cores := (s.cores.map (fun x => (x.1, { x.2 with dcache := x.2.dcache.filter (fun l => out l.1) }))).filter (fun x => x.2 ≠ core0) }

/-- A page entry rewritten by its page home, and its range invalidated (R153, R154, R160). -/
def State.setLeaf (s : State) (ctx : Nat) (l : Leaf) (base e : Nat) : State :=
  (s.physWrite l.pa (toBytes 8 e)).dropTlb ctx base (2 ^ l.lg)

/-- An entry with a frame, OWN, V 1 and the permissions of an older entry. R154 lists what the page home writes without DEM: that DEM keeps
its value is the model's choice (log entry 107). -/
def leafWith (e pa own : Nat) : Nat := 1 + 2 + bits e 3 3 * 8 + own * 2 ^ 9 + bits e 11 1 * 2 ^ 11 + pa / 4096 % 2 ^ 40 * 4096

/-- Names under which a page home fails a distributor's completion word (R126) and the draining or filling of an image (R115). -/
abbrev wordTid (lid : Nat) : Nat := 2 ^ 40 + lid
abbrev imageRole : Nat := 2000

/-- The page home gives a request up (R154): those who wait for the page take PAGE, and a side-logged operation to it ends the
context. -/
def State.homeFails (s : State) (ctx base lg : Nat) : State :=
  let mine (h : HomeReq) : Bool := h.ctx == ctx && h.va == BitVec.ofNat 64 base && !h.failed && !h.toHost
  let s : State := { s with homes := (s.homes.map (fun h => if mine h then { h with failed := true } else h)).filter (fun h => !h.failed || !h.who.isEmpty) }
  let ops := s.teams.flatMap (fun t => if t.ctx = ctx then t.secs.flatMap (fun c => c.log) else [])
    ++ (s.orphans.filter (fun o => o.ctx == ctx)).map Orphan.entry
  match ops.find? (fun e => e.on base lg) with
  | some e =>
    let a := (((e.op.lanes.find? (fun x => x.vas.any (fun v => v.1 / 2 ^ lg == base / 2 ^ lg))).map LaneOp.addr)).getD 0
    endContext s ctx cPAGE a (recOf 0x10 ctx)
  | none => s

/-- FRAME_GRANT: the host driver answers the oldest frame request of a slice (R392). -/
def execFrameGrant (die slice : Nat) (frames : List (Option Nat)) (s : State) : Res :=
  .next (s.modSlice die slice (fun x =>
    match x.frames.findIdx? (fun f => f.answer.isNone) with
    | some i => { x with frames := x.frames.mapIdx (fun j f => if j = i then { f with answer := some frames } else f) }
    | none => x))

/-- DEMAND_MAP_COMPLETE: the page home maps a page on demand, or gives it up (R154). -/
def execDemandMapComplete (ctx : Nat) (va : BitVec 64) (s : State) : Res :=
  .next (match s.pageBase ctx va.toNat with
    | none => s
    | some (l, base) =>
      let h := s.pageHome ctx base
      let mine (f : FrameReq) : Bool := f.ctx == ctx && f.demand && f.pages == [(BitVec.ofNat 64 base, l.lg)] && f.answer.isSome
      match (s.sliceAt h.1 h.2).frames.find? mine with
      | none => s
      | some f =>
        let s := s.modSlice h.1 h.2 (fun x => { x with frames := x.frames.filter (fun g => !mine g) })
        match (f.answer.getD []).headD none with
        | some pa =>
          if pa % 2 ^ l.lg = 0 ∧ pa / 2 ^ 48 = h.1 ∧ paOk s.cxlBytes pa = true then
            let s : State := { s with mem := s.mem.filter (fun c => !decide (pa ≤ c.1 ∧ c.1 < pa + 2 ^ l.lg)) }
            let s := (s.dropRange pa (2 ^ l.lg)).setLeaf ctx l base (leafWith l.e pa 0)
            { s with homes := s.homes.filter (fun h => !(h.ctx == ctx && h.va == BitVec.ofNat 64 base && !h.failed && !h.toHost)) }
          else s.homeFails ctx base l.lg
        | none => s.homeFails ctx base l.lg)

/-- The move times of a page that count: the last MOVES, within WINDOW (R161). -/
def movesIn (s : State) (ctx base : Nat) : List Nat :=
  let x := s.ctxAt ctx
  ((tget [] x.history (base / 4096)).take x.thrMoves).filter (fun t => decide (s.wall.toNat < t + x.thrWindow))

/-- The next move of a page would be one too many (R161). -/
def thrashes (s : State) (ctx base : Nat) : Bool := decide ((s.ctxAt ctx).thrMoves ≤ (movesIn s ctx base).length)

/-- A completed move: counted, with its time kept (R161, R193). -/
def State.moved (s : State) (ctx base : Nat) : State :=
  s.modCtx ctx (fun x => { x with
    moves := if x.moves = 0xFFFFFFFF then x.moves else x.moves + 1
    history := tset [] x.history (base / 4096) ((s.wall.toNat :: tget [] x.history (base / 4096)).take x.thrMoves) })

/-- A page becomes pinned at a host address (R161): its device frame is kept for later. -/
def State.pin (s : State) (ctx : Nat) (l : Leaf) (base host : Nat) : State :=
  let s := s.setLeaf ctx l base (leafWith l.e host 2)
  s.modCtx ctx (fun x => { x with
    pins := if x.pins = 0xFFFFFFFF then x.pins else x.pins + 1
    pinned := tset none x.pinned (base / 4096) (some (leafPA l.e, s.wall.toNat)) })

/-- No access to a physical range that was translated earlier is still under way (R160, R369): in a core's buffer, on its way, in a
comparator, or asked of the host. What an epoch has accepted has performed, and is placed again when it applies (R363). -/
def State.quiet (s : State) (pa len : Nat) : Bool :=
  let hit (p : Nat) : Bool := decide (pa ≤ p ∧ p < pa + len)
  let away (op : MemOp) : Bool := op.lanes.all (fun l => match l.spot with
    | some (.phys pas) => pas.all (fun p => !hit p.1)
    | _ => true)
  s.cores.all (fun x => x.2.storeBuf.all (fun b => b.bytes.all (fun y => !hit y.1)))
    && s.remote.all (fun r => away r.op)
    && s.teams.all (fun t => t.secs.all (fun c => c.cmp.all (fun o => away o.op) && c.hostReq.all (fun h => away h.op)))

/-- A request for a page, still to be served. -/
def HomeReq.asks (h : HomeReq) (ctx base : Nat) : Bool := h.ctx == ctx && h.va == BitVec.ofNat 64 base && !h.failed

/-- HOST_MIGRATION_REQUEST: the host asks for a page (R160): it becomes host-owned and its range is invalidated; the data is
handed over by MIGRATION_COMPLETE. A move too many pins the page instead (R161). A request that arrives during a move waits for that move,
and is then served as a new one. -/
def execHostMigrationRequest (ctx : Nat) (va : BitVec 64) (s : State) : Res :=
  .next (match s.pageBase ctx va.toNat with
    | none => s
    | some (l, base) =>
      if !leafV l.e || leafOWN l.e = 2 || leafSYS l.e then s
      else
        let now := leafOWN l.e = 0 ∧ thrashes s ctx base = false ∧ s.homes.all (fun h => !h.asks ctx base) = true
        let s : State := { s with homes := s.homes ++ [⟨ctx, BitVec.ofNat 64 base, true, now, [], false⟩] }
        if now then s.setLeaf ctx l base (leafWith l.e (leafPA l.e) 1) else s)

/-- The oldest request pending for a page. -/
def State.pageReq (s : State) (ctx base : Nat) : Option HomeReq := s.homes.find? (fun h => h.asks ctx base)

/-- The oldest request of a page has been served. -/
def dropReq (ctx base : Nat) : List HomeReq → List HomeReq
  | [] => []
  | h :: r => if h.asks ctx base then r else h :: dropReq ctx base r

/-- The oldest request of a page has begun its move to the host. -/
def beginReq (ctx base : Nat) : List HomeReq → List HomeReq
  | [] => []
  | h :: r => if h.asks ctx base then { h with begun := true } :: r else h :: beginReq ctx base r

/-- Bytes that the host has changed, by offset, in a copy of a page. -/
def State.hostData (s : State) (pa size : Nat) (data : List Host.Cell) : State :=
  data.foldl (fun s c => if c.1 < size then s.physWrite (pa + c.1) [c.2] else s) s

/-- MIGRATION_COMPLETE: the oldest move of a page completes (R160). `data` holds the bytes that the host has changed while it owned the page, by
offset; the frame keeps the others (log entry 77). For a page that is pinned instead (R161), the first cell's address is the host address. -/
def execMigrationComplete (ctx : Nat) (va : BitVec 64) (data : List Host.Cell) (s : State) : Res :=
  .next (match s.pageBase ctx va.toNat with
    | none => s
    | some (l, base) =>
      let size := 2 ^ l.lg
      let pa := leafPA l.e
      let done (s : State) : State := { s with homes := dropReq ctx base s.homes }
      let host := (data.head?.map Prod.fst).getD 0
      match s.pageReq ctx base with
      | none => s
      | some h =>
        if !leafV l.e || leafOWN l.e = 2 then s
        else if thrashes s ctx base && (h.toHost == (leafOWN l.e == 0)) then
          -- one move too many: the data goes to, or stays in, host memory
          if host % size ≠ 0 ∨ paOk s.cxlBytes host = false ∨ host / 2 ^ 48 ≠ 8 ∨ s.quiet pa size = false then s
          else
            let s := s.dropRange pa size
            let s := (s.physWrite host (s.physRead pa size)).hostData host size (data.drop 1)
            done (s.pin ctx l base host)
        else if h.toHost then
          if leafOWN l.e = 0 then
            { s.setLeaf ctx l base (leafWith l.e pa 1) with homes := beginReq ctx base s.homes }
          else if !h.begun then done s
          else if s.quiet pa size then done ((s.dropRange pa size).moved ctx base) else s
        else if leafOWN l.e = 0 then done s
        else
          let s := s.hostData pa size data
          done (((s.dropRange pa size).setLeaf ctx l base (leafWith l.e pa 0)).moved ctx base))

/-- THROTTLE_EXPIRY: a page pinned by the thrash detector returns to host-owned after THROTTLE (R161). -/
def execThrottleExpiry (ctx : Nat) (va : BitVec 64) (s : State) : Res :=
  .next (match s.pageBase ctx va.toNat with
    | none => s
    | some (l, base) =>
      match tget none (s.ctxAt ctx).pinned (base / 4096) with
      | none => s
      | some (frame, t) =>
        if leafOWN l.e ≠ 2 ∨ leafSYS l.e = true ∨ s.wall.toNat < t + (s.ctxAt ctx).thrThrottle ∨ s.quiet (leafPA l.e) (2 ^ l.lg) = false then s
        else
          let s := s.dropRange (leafPA l.e) (2 ^ l.lg)
          let s := (s.physWrite frame (s.physRead (leafPA l.e) (2 ^ l.lg))).setLeaf ctx l base (leafWith l.e frame 1)
          s.modCtx ctx (fun x => { x with
            pinned := tset none x.pinned (base / 4096) none
            history := tset [] x.history (base / 4096) [] }))

/-! ## The side log -/

/-- A lane of a logged operation replays as the original operation would have performed (R158); a system-scope step on a pinned
page performs on the host's memory (R263). -/
def State.replayLane (s : State) (t : Team) (c : Section) (op : MemOp) (x : LaneOp) (pas : List (Nat × Nat)) : Turn :=
  let host := op.kind ≠ .store ∧ op.scope = 5 ∧ pas.any (fun p => isHost p.1) = true
  let lines := (Spot.phys pas).linesOf
  let s := if host then lines.foldl (fun s l => ((s.writeBack l).dropSlice l).dropLineAll l) s else s
  match s.postLane t c op { x with spot := some (.phys pas) } with
  | .go s => .go (if host then lines.foldl (fun s l => (s.writeBack l).dropSlice l) s else s)
  | r => r

/-- The first entry to replay on a page for each section, as team, role and entry, in the order of the teams; a discarded team's
entries before those that its section logs after the discard (R118, R158). -/
def State.replayable (s : State) (ctx base lg : Nat) : List (Orphan × Bool) :=
  let orphans := s.orphans.filter (fun o => o.ctx == ctx && o.entry.on base lg)
  let first (o : Orphan) : Bool := (orphans.find? (fun p => p.tid == o.tid && p.role == o.role)) == some o
  s.teams.flatMap (fun t => if t.ctx = ctx then t.secs.filterMap (fun c =>
      if orphans.any (fun o => o.tid == t.tid && o.role == c.role) then none
      else (c.log.find? (fun e => e.on base lg)).map (fun e => (⟨ctx, t.tid, c.role, e⟩, false))) else [])
    ++ ((orphans.filter first).map (fun o => (o, true)))

/-- A replayed entry leaves its log, or the entries of discarded teams. -/
def State.unlog (s : State) (o : Orphan) (gone : Bool) : State :=
  if gone then { s with orphans := s.orphans.filter (fun x => x != o) }
  else s.modSec o.tid o.role (fun c => { c with log := c.log.filter (fun y => y != o.entry) })

/-- An older entry of the same log shares bytes with an entry, on another page (R98, R353). -/
def olderEntry (log : List LogEntry) (e : LogEntry) : Bool :=
  let bytes (y : LogEntry) : List (Nat × Nat) := y.op.lanes.flatMap LaneOp.vas
  (log.takeWhile (fun y => y != e)).any (fun y => (bytes y).any (fun a => (bytes e).any (fun b => decide (a.1 < b.1 + b.2 ∧ b.1 < a.1 + a.2))))

/-- SIDE_LOG_REPLAY: on a mapped page, one section's oldest entry replays (R158), after the older writes to its bytes of its section and of
its core's other sections (R351, R353), and on a promoted line after every older store of the core (R359). The low 12 bits of the address
pick among the sections that have one. An entry some of whose bytes lie on a page still to come waits for that page. -/
def execSideLogReplay (ctx : Nat) (va : BitVec 64) (s : State) : Res :=
  .next (match s.pageBase ctx va.toNat with
    | none => s
    | some (l, base) =>
      let cs := s.replayable ctx base l.lg
      match cs[va.toNat % 4096 % cs.length]? with
      | none => s
      | some (o, gone) =>
        match s.team? o.tid, s.sec? o.tid o.role with
        | some t, some c =>
          let e := o.entry
          let acc : Access := if e.op.kind = .store then .store else if e.op.atomic then .atomic else .red
          let spot (x : LaneOp) : Glob := match s.respot ctx acc x.vas with
            | .ok pas => if s.sysWay e.op = some false ∧ pas.any (fun p => isHost p.1) = true then .bad cSYS_UR else .ok pas
            | g => g
          let spots := e.op.lanes.map (fun x => (x, spot x))
          match spots.findSome? (fun p => match p.2 with
              | .res v => some v
              | _ => none), spots.findSome? (fun p => match p.2 with
              | .bad f => some (f, p.1.addr)
              | _ => none) with
          | some v, _ => s.askHome ctx v []
          | none, some (f, a) => endContext s ctx f a (recOf 0x10 ctx)
          | none, none =>
            let places := spots.filterMap (fun p => match p.2 with
              | .ok pas => some (p.1, pas)
              | _ => none)
            let lines := places.flatMap (fun p => (Spot.phys p.2).linesOf)
            let core := s.coreAt t.die t.core
            if !gone && olderEntry c.log e then s
            else if places.any (fun p => core.olderStore e.id (.phys p.2)) then s
            else if s.promoted lines && core.storeBuf.any (fun b => decide (b.id < e.id)) then s
            else
              match places.foldl (fun acc p => match acc with
                | .go s => s.replayLane t c e.op p.1 p.2
                | r => r) (Turn.go s) with
              | .wait va => s.waitTurn ctx va
              | .diverged => replayDiverged s ctx
              | .go s => (s.unlog o gone).partDone o.tid o.role e.id
        | _, _ => s)

/-! ## Caches -/

/-- CACHE_EVICTION: a copy is dropped (R119): 0 a core's data line, 1 a slice copy, which is written back, 2 a word of a core's
fetch buffer. -/
def execCacheEviction (kind die unit line : Nat) (s : State) : Res :=
  .next (match kind with
    | 0 => s.dropLine die unit line
    | 1 => (s.writeBack line).dropSlice line
    | 2 => s.modCore die unit (fun x => { x with ibuf := x.ibuf.filter (fun e => e.1 != line) })
    | _ => s)

/-- The physical ranges of a range of virtual addresses, page by page; unmapped pages are left out (R271). -/
def State.rangesOf (s : State) (ctx va len : Nat) : List (Nat × Nat) :=
  if len = 0 then []
  else
    let lo := va / 128 * 128
    let hi := (va + len + 127) / 128 * 128
    (List.range ((hi - 1) / 4096 + 1 - lo / 4096)).filterMap (fun i =>
      let p := (lo / 4096 + i) * 4096
      let a := Nat.max p lo
      let b := Nat.min (p + 4096) hi
      match s.pageBase ctx a with
      | some (l, base) => if leafV l.e then some (leafPA l.e + (a - base), b - a) else none
      | none => none)

/-- SYS_CACHE_OP_COMPLETE: a SYSFLUSH or SYSINV completes at system scope (R271), after the section's older stores to its range. -/
def execSysCacheOpComplete (tid role op : Nat) (s : State) : Res :=
  .next (match s.sysOps.find? (fun o => o.id == op && o.tid == tid && o.role == role), s.team? tid with
    | some o, some t =>
      let rs := s.rangesOf o.ctx o.va o.len
      let inside (p : Nat) : Bool := rs.any (fun r => decide (r.1 ≤ p ∧ p < r.1 + r.2))
      if (s.coreAt t.die t.core).storeBuf.any (fun b => b.tid == tid && b.role == role && decide (b.id < op) && b.bytes.any (fun y => inside y.1)) then s
      else
        let lines := s.slices.flatMap (fun x => (x.2.lines.map Prod.fst).filter inside)
        let s :=
          if o.flush then lines.foldl (fun s l => s.writeBack l) s
          else
            let s := lines.foldl (fun s l => s.dropSlice l) s
            let part := s.partCores (s.ctxAt o.ctx).part
            let clean (x : Core) : Core := { x with dcache := x.dcache.filter (fun l => !inside l.1), ibuf := x.ibuf.filter (fun w => !inside (4 * w.1)) }
            { s with cores := (s.cores.map (fun x => if part.contains x.1 then (x.1, clean x.2) else x)).filter (fun x => x.2 ≠ core0) }
        let s : State := { s with sysOps := s.sysOps.filter (fun x => x.id != op) }
        s.opDone tid role op
    | _, _ => s)

/-! ## Dual run -/

/-- Two operations match (R195): place in the program, kind, address, size and data. -/
def DmrOp.same (a b : DmrOp) : Bool :=
  a.pc == b.pc && a.op.kind == b.op.kind && a.op.size == b.op.size
    && a.op.lanes.map (fun x => (x.lane, dmrAddr x.addr, x.data, x.data2)) == b.op.lanes.map (fun x => (x.lane, dmrAddr x.addr, x.data, x.data2))

/-- The order of a section's operations that the comparator follows: that of its path, or of one ejected lane (R272). -/
def DmrOp.stream (o : DmrOp) : Option Nat := if o.who.isSome then (o.op.lanes.head?).map LaneOp.lane else none

/-- One lane of the primary's operation performs once (R195), with its place in the order log for an atomic (R265): the old value. -/
def State.dmrLane (s : State) (t : Team) (c : Section) (o : DmrOp) (x : LaneOp) (sp : Spot) : Nat × Turn :=
  let both (s : State) : State := match sp.twin s with
    | some sp' => if o.op.kind = .store then s.spotWrite t.ctx sp' (toBytes o.op.size x.data.toNat) else (s.stepAt t.ctx o.op x sp').2
    | none => s
  if o.dest.isSome then
    let r := s.stepAt t.ctx o.op x sp
    (r.1, .go (dropBoth (both r.2) t sp))
  else if o.op.kind ≠ .store && c.det && !o.op.atomic then
    let s := s.accumulate t c.role o.op x
    (0, .go (match sp.twin s with
      | some sp' => s.accumulate t c.role o.op { x with spot := some sp' }
      | none => s))
  else (0, match s.postLane t c o.op { x with spot := some sp } with
    | .go s => .go (dropBoth (both s) t sp)
    | r => r)

/-- Lanes of the primary's operation perform (R195): the old values by lane. -/
def State.dmrPerform (s : State) (t : Team) (c : Section) (o : DmrOp) (ls : List LaneOp) : List (Nat × DWord) × Turn :=
  let start : Turn := if o.dest.isSome then atomTurn t c s ls else .go s
  ls.foldl (fun acc x => match acc.2, x.spot with
    | .go s, some sp =>
      let r := s.dmrLane t c o x sp
      (acc.1 ++ [(x.lane, BitVec.ofNat 64 r.1)], r.2)
    | _, _ => acc) ([], start)

/-- The first differing address and values of a mismatch (R143). -/
def dmrDetail (a b : DmrOp) : List Byte :=
  let p := ((a.op.lanes.zip b.op.lanes).find? (fun p => dmrAddr p.1.addr != dmrAddr p.2.addr || p.1.data != p.2.data)).getD
    ((a.op.lanes.head?.getD ⟨0, 0, [], none, 0, 0⟩), (b.op.lanes.head?.getD ⟨0, 0, [], none, 0, 0⟩))
  toBytes 8 p.1.addr.toNat ++ toBytes 8 p.1.data.toNat ++ toBytes 8 p.2.data.toNat

/-- The operations of a section's two copies that meet next: the oldest of the primary whose counterpart has come (R195). -/
def dmrPair (c d : Section) : Option (DmrOp × DmrOp) :=
  c.cmp.findSome? (fun a => (d.cmp.find? (fun b => b.stream == a.stream)).map (fun b => (a, b)))

/-- An operation leaves its comparator, or stays there with the lanes still to be done. -/
def cmpTake (id : Nat) (rest : List Nat) (c : Section) : Section :=
  { c with cmp := c.cmp.filterMap (fun o =>
    if o.id ≠ id then some o
    else if rest.isEmpty then none
    else some { o with op := { o.op with lanes := o.op.lanes.filter (fun x => rest.contains x.lane) } }) }

/-- DMR_COMPARE: operations of a section's two copies meet in the comparator (R195). Lanes whose page is still to be mapped, or has
entries in the primary's side log, go to that log, as far as it has room (R156, R157). -/
def execDmrCompare (tid role : Nat) (s : State) : Res :=
  .next (match s.team? tid, s.sec? tid role with
    | some t, some c =>
      match t.primary, t.twin.bind (fun u => (s.sec? u role).map (fun d => (u, d))) with
      | true, some (u, d) =>
        match dmrPair c d with
        | none => s
        | some (a, b) =>
          let count (s : State) : State := s.modCtx t.ctx (fun x => { x with dmrCount := x.dmrCount + 1 })
          let take (s : State) (rest : List Nat) : State := (s.modSec tid role (cmpTake a.id rest)).modSec u role (cmpTake b.id rest)
          let req (c : Section) (o : DmrOp) (ls : List LaneOp) (got : List (Nat × DWord)) : HostReq :=
            { who := o.who, op := { a.op with lanes := ls }, dest := none, isLoad := false, got := (c.hostReq.map HostReq.got).getD [] ++ got
              bad := (c.hostReq.map HostReq.bad).getD [], part := o.counted, since := o.id }
          let busy (c : Section) (o : DmrOp) : Bool := c.hostReq.any (fun h => h.who != o.who || !h.op.lanes.isEmpty)
          let hostly := a.op.scope = 5 && a.op.kind != .store && a.op.lanes.any (fun x => match x.spot with
            | some (.phys pas) => pas.any (fun p => isHost p.1)
            | _ => false)
          if !a.same b then dmrEnd s t role (dmrDetail a b)
          else if (hostly || a.dest.isSome) && (busy c a || busy d b) then s
          else if hostly then
            let s := (take (count s) []).clearLines (a.op.lanes.flatMap (fun x => (x.spot.map Spot.linesOf).getD []))
            (s.modSec tid role (fun c => { c with hostReq := some (req c a a.op.lanes []) })).modSec u role (fun d => { d with hostReq := some (req d b [] []) })
          else
            let isFar (x : LaneOp) : Bool := a.dest.isNone && (x.spot.isNone || x.vas.any (fun v => s.logsPage t.ctx c.log v.1))
            let far := (a.op.lanes.filter isFar).map (fun x => (s.pageNo t.ctx ((x.vas.head?.map Prod.fst).getD 0), x))
            let id := a.counted.getD a.id
            let fit := logFits c.log.length c.logSeq id a.op far
            let near := a.op.lanes.filter (fun x => !isFar x)
            if near.isEmpty && fit.isEmpty && !far.isEmpty then s
            else
              let r := s.dmrPerform t c a near
              match r.2 with
              | .wait va => s.waitTurn t.ctx va
              | .diverged => replayDiverged s t.ctx
              | .go s =>
                let entries := logEntries c.logSeq id a.op fit
                let s := if entries.isEmpty then s
                  else s.modSec tid role (fun c => { c with log := c.log ++ entries, logSeq := (c.logSeq + entries.length) % 65536 })
                let s := fit.foldl (fun s x => s.askHome t.ctx (x.1 * 4096) []) s
                let rest := (far.filter (fun x => !fit.any (fun y => y.2.lane == x.2.lane))).map (fun x => x.2.lane)
                let s := take s rest
                if !rest.isEmpty then s
                else
                  let s := count s
                  let s := if a.dest.isSome then hostStep (hostStep s tid role (req c a [] r.1)) u role (req d b [] r.1) else s
                  let done (s : State) (tid : Nat) (o : DmrOp) : State := match o.counted with
                    | some id => s.partDone tid role id
                    | none => s
                  done (done s tid a) u b
      | _, _ => s
    | _, _ => s)

end Sys2Proof.Machine
end

