-- ==== Sys2Proof/Machine/Rooms.lean ====
section
/-!
DEFINITION. What a core's active bank has free (R14, R34), what is parked and how it comes back (R69, R75, R114, R132, R391), the
delivery of a service reply (R138, R139, R393), and the discard of a team in idempotent regions (R118).
-/

namespace Sys2Proof.Machine

/-! ## Resources -/

/-- Group slots, register granules and KiB of scratchpad (R14); of a bank, also the ranges of its scratchpad that are taken: first KiB and
length (R99). -/
structure Room where
  slots : Nat
  gran  : Nat
  kib   : Nat
  taken : List (Nat × Nat)
  deriving DecidableEq, Repr

/-- Groups of a section whose resources have not been freed (R34). -/
def heldGroups (c : Section) : Nat := ((List.range c.th.groups).filter (fun g => !c.th.freed.getLsbD g)).length

/-- What a team takes of its core's bank. -/
def Team.room (t : Team) : Room :=
  ⟨(t.secs.map heldGroups).sum, (t.secs.map (fun c => heldGroups c * (c.th.budget / 8))).sum, t.scratchSize / 1024, []⟩

/-- The first KiB of a free contiguous range of a bank's scratchpad, the lowest (R99). -/
def Room.gap (have_ : Room) (n : Nat) : Option Nat :=
  (List.range (Config.scratchKiB + 1 - n)).find? (fun b => have_.taken.all (fun r => decide (b + n ≤ r.1 ∨ r.1 + r.2 ≤ b)))

/-- A room less a need that takes a range from some KiB on. -/
def Room.lessAt (a b : Room) (base : Nat) : Room := ⟨a.slots - b.slots, a.gran - b.gran, a.kib - b.kib, (base, b.kib) :: a.taken⟩

/-- One room less a need, in its lowest range. -/
def Room.less (a b : Room) : Room := a.lessAt b ((a.gap b.kib).getD 0)

/-- A need fits, its scratchpad in one contiguous range (R14, R99). -/
def Room.fits (need have_ : Room) : Bool :=
  decide (need.slots ≤ have_.slots ∧ need.gran ≤ have_.gran ∧ need.kib ≤ have_.kib) && (have_.gap need.kib).isSome

/-- An empty bank (R14). -/
def Room.bank : Room := ⟨Config.groupSlots, Config.granules, Config.scratchKiB, []⟩

/-- A bank without what some teams take of it. -/
def bankWithout (ts : List Team) : Room := ts.foldl (fun r t => r.lessAt t.room t.base) Room.bank

/-- The teams of a core in a bank. -/
def State.inBank (s : State) (d c : Nat) (b : Bank) : List Team := s.teams.filter (fun t => t.die == d && t.core == c && t.bank == b)

/-- What the active bank of a core has free. -/
def State.freeRoom (s : State) (d c : Nat) : Room := bankWithout (s.inBank d c .active)

/-! ## Parking -/

/-- A section leaves issue and is parked (R75, R67): a hold that stands, or waits, goes with it; a step that is done is recorded, and holds
the section at its restore (R93). What a load had read before it was held is read again (R155). -/
def parkSec (why : BitVec 2) (c : Section) : Section :=
  match c.state with
  | .exited => c
  | .parked => { c with parkWhy := why }
  | .held => { c with state := .parked, parkWhy := why, holdReq := true, th := c.th.killLatches }
  | p =>
    let c' := if c.stepDone then recordStep c else c
    { c' with state := .parked, prev := p, parkWhy := why, holdReq := c.holdReq || c.holdDue || c.stepDone, holdDue := false, delayed := false
              stepping := false, granted := [], waitOn := .none, waitFor := .again, th := c.th.killLatches
              hostReq := if c.hostReq.any (fun h => h.isLoad && h.op.lanes.isEmpty) then none else c.hostReq }

/-- Every section of the team that has not exited is parked, none in a handler: the team leaves the core (R391, R82). -/
def mayLeave (t : Team) : Bool := t.secs.all (fun c => (c.state == .parked || c.state == .exited) && !c.hmode)

/-- What a team holds in its core's queues goes into its image: continuation records, paused copies, region entries (R114). -/
def stow (s : State) (t : Team) : State :=
  let x := s.coreAt t.die t.core
  let s := s.modTeam t.tid (fun u => { u with
    recs := x.lantern.filter (fun r => r.tid == t.tid)
    copies := x.copyq.filter (fun c => c.tid == t.tid)
    regs := (x.regions.filter (fun r => r.2.tid == t.tid)).map Prod.snd })
  s.modCore t.die t.core (fun x => { x with
    lantern := x.lantern.filter (fun r => r.tid != t.tid)
    copyq := x.copyq.filter (fun c => c.tid != t.tid)
    regions := x.regions.filter (fun r => r.2.tid != t.tid) })

/-- Region-table entries that are free (R163). -/
def freeRegions (x : Core) : List Nat := (List.range 32).filter (fun i => x.regions.all (fun e => e.1 != i))

/-- The queues of a core have room for what a team's image holds of them (R136, R163). -/
def queuesFit (x : Core) (t : Team) : Bool :=
  decide (t.recs.length + x.lantern.length ≤ 64) && decide (t.regs.length ≤ (freeRegions x).length)

/-- What the image holds of the core's queues comes back (R28, R117, R163): copies come back paused. -/
def unstow (s : State) (t : Team) : State :=
  let x := s.coreAt t.die t.core
  let regs := t.regs.zip (freeRegions x)
  let place (c : Copy) : Copy :=
    { c with region := match c.region with
      | none => none
      | some _ => (regs.find? (fun r => r.1.soff == (Block.of c.block).soff)).map Prod.snd }
  let s := s.modCore t.die t.core (fun x => { x with
    lantern := x.lantern ++ t.recs
    copyq := x.copyq ++ t.copies.map place
    regions := tsets ⟨0, 0, false, false, false, 0, 0⟩ x.regions (regs.map (fun r => (r.2, r.1))) })
  s.modTeam t.tid (fun u => { u with recs := [], copies := [], regs := [] })

/-! ## Service replies -/

/-- The ring position moves over the oldest requests whose replies have been delivered (R393). -/
def ringFree : List SvcReq → Word → List SvcReq × Word
  | [], w => ([], w)
  | r :: l, w => if r.delivered then ringFree l (w + BitVec.ofNat 32 r.units) else (r :: l, w)

/-- A request's reply has been delivered (R393). -/
def State.reqDone (s : State) (die slice seq : Nat) : State :=
  s.modSlice die slice (fun x =>
    let l := ringFree (x.reqs.map (fun r => if r.seq = seq then { r with delivered := true } else r)) x.rfree
    { x with reqs := l.1, rfree := l.2 })

/-- A service number of the allocation window (R392). -/
def allocNum (r : SvcReq) : Bool := r.num == 1 || r.num == 2

/-- An allocation request of the context was served before this one and its reply waits: in deterministic mode replies of the window
are delivered in the order of service (R392). -/
def State.servedBefore (s : State) (r : SvcReq) : Bool :=
  allocNum r && s.slices.any (fun x => x.2.reqs.any (fun q => q.ctx == r.ctx && allocNum q && q.served && !q.delivered && decide (q.order < r.order)))

/-- BODY of a service reply record (R139). -/
def replyBody (die slice seq : Nat) : Nat := seq % 2 ^ 64 * 2 ^ 32 + slice * 2 ^ 28 + die * 2 ^ 26

/-- The turn of a reply's delivery (R138, R139, R140). -/
def State.replyTurn (s : State) (t : Team) (die slice : Nat) (r : SvcReq) : Turn :=
  let d := t.secs.find? (fun c => c.role == r.role)
  let det := d.any Section.det
  if det && s.servedBefore r then .wait none
  else s.choose r.ctx det (d.any Section.replay) 3 (replyBody die slice r.seq) (fun _ => true)

/-- The request whose reply a parked section awaits. -/
def State.pendingReq (s : State) (t : Team) (role : Nat) : Option SvcReq :=
  (s.sliceAt t.die (t.core % 16)).reqs.find? (fun r => r.tid == t.tid && r.role == role && !r.nowait && !r.delivered)

/-- A parked section may come back: its reply, where it awaits one, has been posted (R132). -/
def mayResume (c : Section) : Bool := c.state == .parked && (c.svcLanes.isNone || c.svcReply.isSome)

/-- The reply bytes of each lane in v0 to v3 (R138, R339), whose latches are no longer recoverable (R66). -/
def giveReply (c : Section) : Section :=
  match c.svcLanes, c.svcReply with
  | some ls, some bs =>
    let word (b : List Byte) (n : Nat) : Word := BitVec.ofNat 32 (ofBytes ((b.drop (4 * n)).take 4))
    let set (th : Thread) (x : Nat × List Byte) : Thread := (List.range 4).foldl (fun th n => th.setV x.1 n (word x.2 n)) (th.unrec (x.1 / 32) 0 4)
    { c with svcLanes := none, svcReply := none, th := (ls.zip bs).foldl set c.th }
  | _, _ => c

/-- A parked section comes back (R69, R75, R129, R130): into held when a hold waits for it, and else to PREV. The operations that completed
during its absence leave its counters (R197). -/
def backFromPark (c : Section) : Section :=
  if !mayResume c then c
  else
    let c := giveReply { c with th := c.th.dropLatches }
    let c := { c with resumed := true, bkLevel := 0, parkElig := none, aged := false, delayed := false, outs := pruneOuts [] c.outs }
    if c.holdReq then { c with state := .held, holdReq := false } else comeBack c.prev c

/-- The replies that the coming-back sections of a team are given take their turns in the order log. -/
def State.deliverAll (s : State) (t : Team) (roles : List Nat) : Turn :=
  roles.foldl (fun acc role => match acc with
    | .go s => match s.pendingReq t role with
      | some r => match s.replyTurn t t.die (t.core % 16) r with
        | .go s => .go (s.reqDone t.die (t.core % 16) r.seq)
        | r => r
      | none => .go s
    | r => r) (.go s)

/-- Sections that come back with a reply. -/
def repliedRoles (t : Team) : List Nat := (t.secs.filter (fun c => mayResume c && c.svcReply.isSome)).map Section.role

/-- After a section's return a join that it waits at is checked again at once (R75). -/
def recheckAll (s : State) (t : Team) : State := t.secs.foldl (fun s c => s.recheckJoin t.tid c.role) s

/-- A section parked in place resumes with its reply (R391): the drain stops, and nothing was freed. -/
def resumeInPlace (s : State) (t : Team) (role : Nat) : Turn :=
  match s.deliverAll t [role] with
  | .go s =>
    let s := s.modTeam t.tid (fun u => { u with draining := false })
    .go ((s.modSec t.tid role backFromPark).recheckJoin t.tid role)
  | r => r

/-- In place: every parked section of the team waits for a reply, and its core is not about to swap. -/
def parkedInPlace (t : Team) : Bool := t.bank == .active && t.secs.all (fun c => c.state != .parked || c.parkWhy == 1)

/-! ## Restoring -/

/-- A parked team that may be restored (R132). -/
def resumable (t : Team) : Bool := t.bank == .saved && t.secs.any mayResume

/-- The teams parked on a core, in order of parking. -/
def State.parkedTeams (s : State) (d c : Nat) : List Team := (s.coreAt d c).parked.filterMap s.team?

/-- A parked team fits its core now (R14, R21). -/
def State.restoreFits (s : State) (t : Team) : Bool :=
  let x := s.coreAt t.die t.core
  (x.ctx == none || x.ctx == some t.ctx) && t.room.fits (s.freeRoom t.die t.core) && queuesFit x t

/-- The team for which a park was made has ceased to wait (R131). -/
def State.waiterGone (s : State) (w : Nat × Option Nat) : Bool :=
  match w.2 with
  | none => !(s.team? w.1).any resumable
  | some i => !(s.launch? w.1).any (fun l => !l.complete && l.placed == i)

/-- The waiting team that a core's freed room is kept for (R131). -/
def State.keptFor (s : State) (d c : Nat) : Option (Nat × Option Nat) :=
  match (s.coreAt d c).parkFor with
  | some w => if s.waiterGone w then none else some w
  | none => none

/-- The parked team that a core restores next (R132): the first that is resumable and fits, after the one a park was made for. -/
def State.nextRestore (s : State) (d c : Nat) : Option Team :=
  let l := (s.parkedTeams d c).filter (fun t => resumable t && s.restoreFits t)
  match s.keptFor d c with
  | some (w, none) => l.find? (fun t => t.tid == w)
  | some (_, some _) => none
  | none => l.head?

/-- A free team slot of a core. -/
def State.freeSlot (s : State) (d c : Nat) : Nat :=
  ((List.range 96).find? (fun i => (s.inBank d c .active).all (fun t => t.slot != i))).getD 0

/-- A context has become resident: its wake request leaves the list, and one that was kept for want of room enters it (R120, R142). -/
def State.wakeServed (s : State) (ctx : Nat) : State :=
  let die := (s.ctxAt ctx).homeDie
  if !(s.dieAt die).wake.contains ctx then s
  else
    let kept := (s.contexts.find? (fun x => x.2.wakeKept && x.2.homeDie == die)).map Prod.fst
    let s := s.modDie die (fun d => { d with wake := d.wake.filter (fun c => c != ctx) ++ kept.toList })
    match kept with
    | some c => s.modCtx c (fun x => { x with wakeKept := false })
    | none => s

/-- A team comes back into the active bank of its core (R114, R132). -/
def restoreTeam (s : State) (t : Team) : Turn :=
  match s.deliverAll t (repliedRoles t) with
  | .go s =>
    let slot := s.freeSlot t.die t.core
    let base := ((s.freeRoom t.die t.core).gap (t.scratchSize / 1024)).getD 0
    let back (c : Section) : Section := backFromPark { c with th := c.th.dropLatches }
    let s := (unstow s t).modTeam t.tid (fun u => { u with
      bank := .active, slot := slot, base := base, draining := false, discarded := false, secs := u.secs.map back })
    let s := s.modCore t.die t.core (fun x => { x with
      ctx := some t.ctx
      dcache := []
      parked := x.parked.filter (fun p => p != t.tid)
      parkFor := if x.parkFor = some (t.tid, none) then none else x.parkFor })
    .go (recheckAll (s.wakeServed t.ctx) t)
  | r => r

/-! ## Discard -/

/-- A team that is discarded instead of saved (R118). -/
def mayDiscard (t : Team) : Bool := t.secs.all (fun c => c.idem && !c.hmode)

/-- A section as it restarts at its region's entry (R118, R346, R69, R197). -/
def restartSec (c : Section) : Section :=
  match c.idemRec with
  | none => c
  | some r =>
    let dead := (List.range c.th.groups).filter (fun g => maskWord r.path g = 0)
    { c with
      th := { c.th with pc := r.pc, gmode := r.gmode, fpflags := r.fpflags, path := r.path, live := r.path, vregs := [], preds := []
                        kregs := tsets 0 [] (r.k.mapIdx (fun i w => (i, w))), latches := []
                        freed := dead.foldl (fun m g => m ||| BitVec.twoPow 32 g) 0 }
      stack := []
      holdReq := c.holdReq || c.holdDue || c.state == .held
      holdDue := false
      stepping := false
      stepDone := false
      noBkpt := false
      hostReq := none
      cmp := []
      emu := none
      taps := []
      oculus := none
      peerSend := none
      releases := []
      drains := []
      promo := []
      granted := []
      state := .parked
      prev := .running
      parkWhy := 2
      waitOn := .none
      waitFor := .again
      retry := none
      outs := []
      slots := []
      bmap := []
      bmapOff := 0
      tiles := []
      log := []
      arrived := []
      delayed := false
      svcLanes := none
      svcReply := none
      svcPending := [] }

/-- The gang arrivals of a discarded team are withdrawn (R197). -/
def withdraw (s : State) (t : Team) : State :=
  let g := s.gang t.lid (gangKey t)
  let s := s.modTeam t.tid (fun u => { u with gbarCame := [] })
  if g.open_ && gangCame t && !t.gbarCame.isEmpty then
    let n := tget 0 g.dieCount t.die
    -- a die whose arrival has been sent has to send it again
    let sent := n == 0 && !g.due.contains t.die
    s.setGang { g with dieCount := tset 0 g.dieCount t.die (n + 1), due := g.due.filter (fun d => d != t.die)
                       cross := if sent then g.cross + 1 else g.cross }
  else s

/-- A team is discarded (R118): its banks are free at once; its side-log entries stay to replay; it restarts from its regions'
entries with a scratchpad of zeros. -/
def discard (s : State) (t : Team) : State :=
  let s := withdraw s t
  let s : State := { s with orphans := s.orphans ++ t.secs.flatMap (fun c => c.log.map (fun e => ⟨t.ctx, t.tid, c.role, e⟩)) }
  let s := s.modTeam t.tid (fun u => { u with
    bank := .saved, discarded := true, draining := false, secs := u.secs.map restartSec, scratch := [], lines := [], cerrs := [], bcs := []
    recs := [], copies := [], regs := [], epoch := [] })
  -- the replies to its requests find no section any more
  let s := s.modSlice t.die (t.core % 16) (fun x => { x with reqs := x.reqs.map (fun r => if r.tid = t.tid ∧ r.nowait = false then { r with role := 1024 } else r) })
  s.modCore t.die t.core (fun x => { x with
    lantern := x.lantern.filter (fun r => r.tid != t.tid)
    copyq := x.copyq.filter (fun c => c.tid != t.tid)
    regions := x.regions.filter (fun r => r.2.tid != t.tid)
    parked := x.parked ++ [t.tid] })

end Sys2Proof.Machine
end

