-- ==== Sys2Proof/Machine/Launch.lean ====
section
/-!
DEFINITION. Launch packets and their checks (R121 to R125), the placement of gangs (R14, R19, R127, R128), the completion of a
launch and its word (R126).
-/

namespace Sys2Proof.Machine

/-! ## Reads of the distributor -/

/-- What a read of context memory by a unit without a core meets. -/
inductive CtxRead where
  | bytes (bs : List Byte)
  | held (va : Nat)
  | bad (code : Nat)
  deriving DecidableEq, Repr

/-- Bytes at a generic address of window 0x00, as device-scope loads read them (R122). -/
def State.ctxRead (s : State) (ctx a n : Nat) : CtxRead :=
  if addrClass a ≠ 0 ∨ addrZeros a = false ∨ 2 ^ 49 < a + n then .bad cSPACE
  else (List.range n).foldl (fun acc i => match acc with
    | .bytes bs => match s.translateNow ctx .load (a + i) with
      | .ok pa _ => .bytes (bs ++ s.homeRead pa 1)
      | .page => .bad cPAGE
      | .prot => .bad cPROT
      | .resolvable => .held (a + i)
    | r => r) (.bytes [])

/-! ## Packets -/

/-- The roles a packet declares: the first absent one ends them (R124). -/
def rolesOf (v : Nat) : Nat → List (Nat × Nat)
  | 0 => []
  | n + 1 =>
    let w := bits v (128 + 16 * (3 - n)) 16
    if bits w 10 6 = 0 then [] else (bits w 10 6, bits w 5 5) :: rolesOf v n

/-- The fields of a packet's 512 bits (R124). -/
def Packet.of (v : Nat) : Packet where
  done := BitVec.ofNat 64 (bits v 448 64)
  save := BitVec.ofNat 64 (bits v 384 64)
  privB := BitVec.ofNat 64 (bits v 320 64)
  kargs := BitVec.ofNat 64 (bits v 256 64)
  scratch := bits v 238 9
  priv := bits v 227 11
  gangM1 := bits v 223 4
  lat := bits v 221 2
  trdepth := bits v 217 4
  kcount := bits v 211 6
  roles := rolesOf v 4
  entryW := bits v 64 47
  uie := bits v 54 1 == 1
  dep := bits v 53 1 == 1
  early := bits v 52 1 == 1
  dmr := bits v 51 1 == 1
  replay := bits v 50 1 == 1
  det := bits v 49 1 == 1
  irq := bits v 48 1 == 1
  chain := bits v 40 8
  reserve := bits v 32 8
  grid := bits v 0 24

/-- A field of a packet outside the range that R124 gives it, a reserved code of it (log entry 69). -/
def rangeIll (p : Packet) : Bool :=
  decide (1024 < p.priv) || decide (48 < p.kcount) || (if p.early then decide (p.reserve = 0 ∨ 64 < p.reserve) else p.reserve != 0)

/-- A packet is ill-formed as its bits stand (R125). -/
def packetIll (v : Nat) (p : Packet) : Bool :=
  decide (bits v 56 8 ≠ 1) || decide (bits v 247 9 ≠ 0) || decide (bits v 192 19 ≠ 0) || decide (bits v 111 17 ≠ 0)
    || decide (bits v 55 1 ≠ 0) || decide (bits v 24 8 ≠ 0) || p.lat == 3
    || (List.range 4).any (fun r => decide (bits v (128 + 16 * r) 5 ≠ 0)) || p.grid == 0 || p.roles.isEmpty
    || (p.early && !p.dep) || (p.replay && !p.det) || rangeIll p
    || decide (p.done.toNat % 8 ≠ 0) || decide (p.save.toNat % 4096 ≠ 0) || decide (p.privB.toNat % 128 ≠ 0) || decide (p.kargs.toNat % 64 ≠ 0)

/-- A UIENTRY of a packet that names no section of its launch (R83). -/
def entryIll (p : Packet) (e : Nat) : Bool := bits e 63 1 == 1 && (decide (p.grid ≤ bits e 47 14) || decide (p.roles.length ≤ bits e 61 2))

/-- What one team of a launch takes (R14). -/
def Packet.room (p : Packet) : Room := ⟨(p.roles.map Prod.fst).sum, (p.roles.map (fun r => r.1 * r.2)).sum, p.scratch, []⟩

/-! ## Where a gang fits -/

/-- A core, as 64 × die + core, and what it has free. -/
abbrev Rooms := List (Nat × Room)

/-- How many teams of a need, at most `n`, a core has room for one after the other. -/
def Room.holdsUpTo (need : Room) : Nat → Room → Nat
  | 0, _ => 0
  | n + 1, r => if need.fits r then Room.holdsUpTo need n (r.less need) + 1 else 0

/-- How many teams of a need a core has room for. -/
def Room.holds (need r : Room) : Nat := if need.slots = 0 then 0 else Room.holdsUpTo need (r.slots / need.slots) r

/-- Teams that a set of cores has room for. -/
def holdsAll (need : Room) (rs : Rooms) : Nat := (rs.map (fun r => need.holds r.2)).sum

/-- The core with room that has the most free group slots, the lowest first (R127). -/
def mostFree (need : Room) (rs : Rooms) : Option Nat :=
  (rs.foldl (fun (acc : Option (Nat × Nat)) r =>
    if need.holds r.2 = 0 then acc
    else match acc with
      | none => some (r.1, r.2.slots)
      | some (c, n) => if n < r.2.slots then some (r.1, r.2.slots) else some (c, n)) none).map Prod.fst

/-- A core gives room to a team. -/
def takeRoom (need : Room) (rs : Rooms) (c : Nat) : Rooms := rs.map (fun r => if r.1 = c then (r.1, r.2.less need) else r)

/-- Teams placed one by one where most slots are free, among the cores that a team may take by its rank. -/
def spread (need : Room) (ok : Nat → Nat → Bool) : Nat → Nat → Rooms → Option (List Nat × Rooms)
  | 0, _, rs => some ([], rs)
  | n + 1, rank, rs =>
    match mostFree need (rs.filter (fun r => ok rank r.1)) with
    | none => none
    | some c => (spread need ok n (rank + 1) (takeRoom need rs c)).map (fun x => (c :: x.1, x.2))

/-- The first result of a list of tries. -/
def firstSome {α β : Type} (l : List α) (f : α → Option β) : Option β := l.findSome? f

/-- A gang on one die under its class: cell, or die (R127). -/
def gangOnDie (need : Room) (n lat : Nat) (rs : Rooms) (d : Nat) : Option (List Nat × Rooms) :=
  let here := rs.filter (fun r => r.1 / 64 == d)
  if lat = 0 then
    let fitsCell (k : Nat) : Bool := decide (n ≤ holdsAll need (here.filter (fun r => r.1 / 4 == k)))
    match mostFree need (here.filter (fun r => fitsCell (r.1 / 4))) with
    | none => none
    | some c => spread need (fun _ x => x / 4 == c / 4) n 0 rs
  else if holdsAll need here < n then none
  else spread need (fun _ x => x / 64 == d) n 0 rs

/-- The teams of a gang of class package, each on the die in turn where it fits, and else on the next (R127). -/
def gangOnModule (need : Room) (dies : List Nat) : Nat → Rooms → Option (List Nat × Rooms)
  | 0, rs => some ([], rs)
  | n + 1, rs =>
    match firstSome dies (fun d => mostFree need (rs.filter (fun r => r.1 / 64 == d))) with
    | none => none
    | some c => (gangOnModule need dies n (takeRoom need rs c)).map (fun x => (c :: x.1, x.2))

/-- The shipped policy (R127): the dies in turn, from the one given. -/
def gangPlan (need : Room) (n lat : Nat) (dies : List Nat) (rs : Rooms) : Option (List Nat × Rooms) :=
  if lat = 2 then gangOnModule need dies n rs else firstSome dies (gangOnDie need n lat rs)

/-- The second copies of a dual-run gang (R195): each on another cell than the first copy, within the gang's class. -/
def twinPlan (need : Room) (lat : Nat) (dies first : List Nat) (rs : Rooms) : Option (List Nat × Rooms) :=
  let apart (rank c : Nat) : Bool := decide (first.getD rank 0 / 4 ≠ c / 4)
  let within (f : Nat → Bool) : Option (List Nat × Rooms) := spread need (fun rank c => apart rank c && f c) first.length 0 rs
  match lat with
  | 0 => firstSome (dies.flatMap (fun d => (List.range 16).map (fun k => 16 * d + k))) (fun k => within (fun c => c / 4 == k))
  | 1 => firstSome dies (fun d => within (fun c => c / 64 == d))
  | _ => within (fun _ => true)

/-! ## The curve -/

/-- One step of hpos (R128): position so far and the rest of the index. -/
def hposStep (a : Nat × Nat × Nat) (sz : Nat) : Nat × Nat × Nat :=
  let t := a.2.2
  let rx := t / 2 % 2
  let ry := Nat.xor t rx % 2
  let p := if ry = 0 then
      let q := if rx = 1 then (sz - 1 - a.1, sz - 1 - a.2.1) else (a.1, a.2.1)
      (q.2, q.1)
    else (a.1, a.2.1)
  (p.1 + sz * rx, p.2 + sz * ry, t / 4)

/-- hpos (R128). -/
def hpos (p : Nat) : Nat × Nat :=
  let r := [1, 2, 4, 8].foldl hposStep (0, 0, p)
  (r.1, r.2.1)

/-- The core at a curve position, as 64 × die + core (R128). -/
def curveCore (p : Nat) : Nat :=
  let x := (hpos p).1
  let y := (hpos p).2
  let lx := x % 8
  let ly := y % 8
  64 * (x / 8 + 2 * (y / 8)) + 4 * (lx / 2 + 4 * (ly / 2)) + lx % 2 + 2 * (ly % 2)

/-- A core lies in the span of the class of a gang that starts at another (R128). -/
def inSpan (lat a b : Nat) : Bool :=
  match lat with
  | 0 => a / 4 == b / 4
  | 1 => a / 64 == b / 64
  | _ => true

/-- The later teams of a cluster along the curve (R128, step 2): cores and the last position. -/
def curveRest (need : Room) (lat c0 : Nat) : Nat → Nat → Rooms → Option (List Nat × Nat × Rooms)
  | 0, p, rs => some ([], p, rs)
  | n + 1, p, rs =>
    let hit (j : Nat) : Option Nat :=
      let q := (p + j) % 256
      if inSpan lat c0 (curveCore q) && rs.any (fun r => r.1 == curveCore q && need.holds r.2 != 0) then some q else none
    match (List.range 256).findSome? hit with
    | none => none
    | some q => (curveRest need lat c0 n q (takeRoom need rs (curveCore q))).map (fun x => (curveCore q :: x.1, x.2))

/-- A cluster in deterministic mode (R128): cores, the position at which the next search starts, the rooms left. -/
def curvePlan (need : Room) (n lat start : Nat) (rs : Rooms) : Option (List Nat × Nat × Rooms) :=
  let try_ (j : Nat) : Option (List Nat × Nat × Rooms) :=
    let p := (start + j) % 256
    let c0 := curveCore p
    if rs.any (fun r => r.1 == c0 && need.holds r.2 != 0) && decide (n ≤ holdsAll need (rs.filter (fun r => inSpan lat c0 r.1))) then
      (curveRest need lat c0 (n - 1) p (takeRoom need rs c0)).map (fun x => (c0 :: x.1, (x.2.1 + 1) % 256, x.2.2))
    else none
  (List.range 256).findSome? try_

/-! ## Acceptance -/

/-- A gang of a launch fits on the empty partition (R13, R19). -/
def State.everFits (s : State) (part : Nat) (p : Packet) : Bool :=
  let rs : Rooms := (s.partCores part).map (fun c => (c, Room.bank))
  let n := Nat.min (p.gangM1 + 1) p.grid
  match gangPlan p.room n p.lat (s.partDies part) rs with
  | none => false
  | some (cs, rs) => !p.dmr || (twinPlan p.room p.lat (s.partDies part) cs rs).isSome

/-- A launch breaks the limits of R13, R14 or R19. -/
def State.overLimits (s : State) (part : Nat) (p : Packet) : Bool :=
  p.roles.any (fun r => decide (32 < r.1) || decide (r.2 = 0) || decide (24 < r.2)) || decide (32 < p.room.slots) || decide (320 < p.scratch)
    || !s.everFits part p

/-- A queue error (R123): ERR, EN clear, and a record. -/
def queueError (s : State) (q : Nat) : State :=
  let x := tget ⟨0, false, false, 0, 0, 0, 0, 0⟩ s.queues q
  let s : State := { s with queues := tset ⟨0, false, false, 0, 0, 0, 0, 0⟩ s.queues q { x with err := true, en := false } }
  s.post { recOf 0x02 x.ctx.toNat with addr := x.base.toNat, queue := q }

/-- A launch is rejected (R125): its record, and its chain is broken. -/
def rejectLaunch (s : State) (ctx q chain cause : Nat) (packet : List Byte) : State :=
  let s : State := { s with broken := (ctx, chain) :: s.broken.filter (fun b => b != (ctx, chain)) }
  s.post { recOf 0x01 ctx with code := cause, queue := q, detail := packet.take 32 }

/-- The previous launch of a chain, with its context's number. -/
def State.lastOfChain (s : State) (ctx chain : Nat) : Option Nat :=
  ((s.launches.filter (fun l => l.ctx == ctx && l.pkt.chain == chain)).getLast?).map Launch.lid

/-- A packet is accepted (R120, R126). Code written before now is fetched as written (R216). -/
def acceptLaunch (s : State) (ctx q part : Nat) (number : Word) (p : Packet) (packet : List Byte) (kvals : List Word) : State :=
  let after := if p.dep then s.lastOfChain ctx p.chain else none
  let l : Launch := { lid := s.nextLid, ctx := ctx, queue := q, number := number, part := part, pkt := p, kvals := kvals, after := after
                      placed := 0, curvePos := 0, exited := 0, complete := false, wordDone := false, epoch := [], epochClosed := false
                      raw := packet.take 32 }
  let cores := s.partCores part
  let fresh (x : Nat × Core) : Nat × Core := if cores.contains x.1 then (x.1, { x.2 with ibuf := [] }) else x
  { s with
    launches := s.launches ++ [l]
    nextLid := s.nextLid + 1
    broken := s.broken.filter (fun b => b != (ctx, p.chain))
    cores := (s.cores.map fresh).filter (fun x => x.2 ≠ core0) }

/-- A packet that has been read (R125): discarded, rejected, held at its values, or accepted; none while a read is held. -/
def takePacket (s : State) (q : Nat) (x : Queue) (part err : Nat) (packet : List Byte) : State × Bool :=
  let ctx := x.ctx.toNat
  let v := ofBytes packet
  if bits v 56 8 = 0 then (s, true)
  else
    let p := Packet.of v
    let no (cause : Nat) : State × Bool := (rejectLaunch s ctx q p.chain cause packet, true)
    let n := if packetIll v p then 0 else 4 * p.kcount + (if p.uie then 8 else 0)
    let vals := if err = 2 ∧ 0 < n then .bad cECC else if n = 0 then .bytes [] else s.ctxRead ctx p.kargs.toNat n
    match vals with
    | .held va => (s.askHome ctx va [], false)
    | r =>
      let bs := match r with
        | .bytes bs => bs
        | _ => []
      let unread := match r with
        | .bytes _ => false
        | _ => true
      let entry := ofBytes (bs.drop (4 * p.kcount))
      if unread || packetIll v p || (p.uie && entryIll p entry) then no 2
      else if s.overLimits part p then no 1
      else if p.dep && s.broken.contains (ctx, p.chain) then no 3
      else
        let words := (List.range (n / 4)).map (fun i => BitVec.ofNat 32 (ofBytes ((bs.drop (4 * i)).take 4)))
        (acceptLaunch s ctx q part x.head p packet words, true)

/-- Where a partition keeps the turn of its dies (R127), and of its queues of a priority (R122). -/
def dieTurn (part : Nat) : Nat := 5 * part
def queueTurn (part prio : Nat) : Nat := 5 * part + 1 + prio

/-- The queue a partition's distributors read next (R122): the highest PRIO with a pending packet, queues of equal PRIO in turn. -/
def State.nextQueue (s : State) (part : Nat) : Option (Nat × Queue) :=
  let pend := s.queues.filter (fun x => x.2.en && x.2.head != x.2.tail && (s.ctxAt x.2.ctx.toNat).enabled && !(s.ctxAt x.2.ctx.toNat).ended
    && (s.ctxAt x.2.ctx.toNat).part == part)
  let top := pend.foldl (fun m x => Nat.max m x.2.prio.toNat) 0
  let l := pend.filter (fun x => x.2.prio.toNat == top)
  match l.find? (fun x => decide (tget 0 s.turn (queueTurn part top) ≤ x.1)) with
  | some x => some x
  | none => l.head?

/-- PACKET_READ: a partition's distributors read a pending packet (R122). `err` 1: the read of the packet meets an error that cannot
be resolved, 2: the read of its values does. -/
def execPacketRead (part err : Nat) (s : State) : Res :=
  .next (
    if s.stage ≠ .s2 ∨ 256 ≤ (s.launches.filter (fun l => l.part == part && !l.complete)).length then s
    else match s.nextQueue part with
    | none => s
    | some (q, x) =>
      let s : State := { s with turn := tset 0 s.turn (queueTurn part x.prio.toNat) (q + 1) }
      let a := x.base.toNat + 64 * (x.head.toNat % 2 ^ (x.log2.toNat + 4))
      match (if err = 1 then .bad cECC else s.ctxRead x.ctx.toNat a 64) with
      | .bad _ => queueError s q
      | .held va => s.askHome x.ctx.toNat va []
      | .bytes bs =>
        match takePacket s q x part err bs with
        | (s, false) => s
        | (s, true) => { s with queues := tset ⟨0, false, false, 0, 0, 0, 0, 0⟩ s.queues q { x with head := x.head + 1 } })

/-! ## Placement -/

/-- A launch has completed, its word written or given up (R126). -/
def Launch.isOver (l : Launch) : Bool := l.complete && l.wordDone

/-- A launch may place teams now, and the group slots it leaves free on every core (R126, R32). -/
def State.gate (s : State) (l : Launch) : Option Nat :=
  let behind := s.launches.any (fun q => q.ctx == l.ctx && q.pkt.chain == l.pkt.chain && decide (q.lid < l.lid) && !q.complete && decide (q.placed < q.pkt.grid))
  match l.after.bind s.launch? with
  | none => some 0
  | some p =>
    if !l.pkt.early then (if p.isOver && !behind then some 0 else none)
    else if p.placed = 0 ∧ p.complete = false then none
    else some (if behind then l.pkt.reserve else 0)

/-- Cores of the launch's partition that it may use, with what they have free (R14, R21, R31, R131). -/
def State.roomsFor (s : State) (l : Launch) (reserve : Nat) : Rooms :=
  (s.partCores l.part).filterMap (fun c =>
    let d := c / 64
    let x := s.coreAt d (c % 64)
    let kept := match s.keptFor d (c % 64) with
      | some w => w != (l.lid, some l.placed)
      | none => (s.nextRestore d (c % 64)).isSome
    if (x.ctx ≠ none ∧ x.ctx ≠ some l.ctx) ∨ kept = true then none
    else
      let r := s.freeRoom d (c % 64)
      some (c, { r with slots := r.slots - reserve }))

/-- The dies of a partition, from the one in turn on (R127). -/
def State.diesInTurn (s : State) (part : Nat) : List Nat :=
  let ds := s.partDies part
  if ds.isEmpty then [] else (List.range ds.length).map (fun i => ds.getD ((tget 0 s.turn (dieTurn part) + i) % ds.length) 0)

/-- A gang's placement: cores of the teams, of their second copies, and where the next search on the curve starts. -/
structure Plan where
  cores : List Nat
  twins : List Nat
  pos   : Nat
  deriving DecidableEq, Repr

/-- The cores that a replay's log gives the teams of a cluster: `some none` when the log has no record of one (R140). -/
def State.loggedCores (s : State) (l : Launch) (n : Nat) : Option (List Nat) :=
  (List.range n).foldl (fun (acc : Option (List Nat)) i => match acc with
    | none => none
    | some cs =>
      let same (b : Nat) : Bool := bits b 72 24 == l.placed + i && bits b 48 16 == l.queue && bits b 0 32 == l.number.toNat
      (s.logNext l.ctx 1 same).map (fun r => cs ++ [64 * bits r.2 70 2 + bits r.2 64 6])) (some [])

/-- Teams placed on given cores, where they have room for them in that order. -/
def onCores (need : Room) : List Nat → Rooms → Option Rooms
  | [], rs => some rs
  | c :: l, rs => if rs.any (fun r => r.1 == c && need.holds r.2 != 0) then onCores need l (takeRoom need rs c) else none

/-- The size of the next gang of a launch (R19). -/
def Launch.nextSize (l : Launch) : Nat := Nat.min (l.pkt.gangM1 + 1) (l.pkt.grid - l.placed)

/-- Where the next gang of a launch goes now, none while it waits (R19, R127, R128, R140, R195). -/
def State.planFor (s : State) (l : Launch) : Option Plan :=
  if l.complete ∨ l.pkt.grid ≤ l.placed ∨ (s.ctxAt l.ctx).enabled = false ∨ (s.ctxAt l.ctx).ended = true then none
  else match s.gate l with
  | none => none
  | some reserve =>
    let need := l.pkt.room
    let rs := s.roomsFor l reserve
    let dies := s.diesInTurn l.part
    let first : Option (List Nat × Nat × Rooms) :=
      if l.pkt.replay then (s.loggedCores l l.nextSize).bind (fun cs => (onCores need cs rs).map (fun rs => (cs, 0, rs)))
      else if l.pkt.det then curvePlan need l.nextSize l.pkt.lat l.curvePos rs
      else (gangPlan need l.nextSize l.pkt.lat dies rs).map (fun x => (x.1, 0, x.2))
    match first with
    | none => none
    | some (cs, pos, rs) =>
      if l.pkt.dmr then (twinPlan need l.pkt.lat dies cs rs).map (fun x => ⟨cs, x.1, pos⟩) else some ⟨cs, [], pos⟩

/-- The sections of a team as they start (R14, R15, R57, R62). -/
def launchSecs (l : Launch) : List Section :=
  let p := l.pkt
  let kregs : Table Word := tsets 0 [] ((l.kvals.take p.kcount).mapIdx (fun i w => (i, w)))
  (p.roles.zipIdx).map (fun x =>
    newSection x.2 ((p.roles.take x.2).map Prod.fst).sum x.1.1 (8 * x.1.2) (BitVec.ofNat 64 (4 * p.entryW)) kregs p.dmr p.det p.replay)

/-- A team placed on a core (R14, R19, R99). -/
def newTeam (l : Launch) (tid index core slot : Nat) (twin : Option Nat) (primary : Bool) : Team where
  tid := tid
  lid := l.lid
  ctx := l.ctx
  index := index
  gang := index / (l.pkt.gangM1 + 1)
  rank := index % (l.pkt.gangM1 + 1)
  gangSize := Nat.min (l.pkt.gangM1 + 1) (l.pkt.grid - index / (l.pkt.gangM1 + 1) * (l.pkt.gangM1 + 1))
  die := core / 64
  core := core % 64
  slot := slot
  bank := .active
  groups := l.pkt.room.slots
  secs := launchSecs l
  scratch := []
  scratchSize := 1024 * l.pkt.scratch
  base := 0
  privSize := 16 * l.pkt.priv
  lines := []
  cerrs := []
  bcs := []
  twin := twin
  primary := primary
  draining := false
  discarded := false
  stood := false
  recs := []
  copies := []
  regs := []
  treduces := 0
  epoch := []
  gbarCame := []

/-- A range of physical memory is 0 in every byte, in memory and wherever it is cached. -/
def State.zeroRange (s : State) (pa n : Nat) : State :=
  let inside (a : Nat) : Bool := decide (pa ≤ a ∧ a < pa + n)
  { s with
    mem := s.mem.filter (fun c => !inside c.1)
    cores := (s.cores.map (fun x => (x.1, { x.2 with dcache := x.2.dcache.filter (fun l => !inside l.1) }))).filter (fun x => x.2 ≠ core0)
    slices := (s.slices.map (fun x => (x.1, { x.2 with lines := x.2.lines.filter (fun l => !inside l.1) }))).filter (fun x => x.2 ≠ slice0) }

/-- A team's private areas are 0 at its launch (R94, R98): the pages of its block that stand mapped; one that a page home maps later is
zero-filled then (R154). -/
def State.zeroPriv (s : State) (t : Team) (base : Nat) : State :=
  let n := t.groups * 32 * t.privSize
  let from_ := base + t.index * n
  let pages := if n = 0 then [] else (List.range ((from_ + n - 1) / 4096 + 1 - from_ / 4096)).map (fun i => from_ / 4096 + i)
  pages.foldl (fun s p =>
    let a := Nat.max from_ (4096 * p)
    match s.translateNow t.ctx .store a with
    | .ok pa _ => s.zeroRange pa (Nat.min (from_ + n) (4096 * (p + 1)) - a)
    | _ => s) s

/-- A team enters its core. -/
def enterTeam (s : State) (t : Team) : State :=
  let slot := s.freeSlot t.die t.core
  let base := ((s.freeRoom t.die t.core).gap (t.scratchSize / 1024)).getD 0
  let s := if t.primary then s.zeroPriv t (((s.launch? t.lid).map (fun l => l.pkt.privB.toNat)).getD 0) else s
  let s : State := { s with teams := s.teams ++ [{ t with slot := slot, base := base }] }
  s.modCore t.die t.core (fun x => { x with
    ctx := some t.ctx, dcache := [], parkFor := if x.parkFor = some (t.lid, some t.index) then none else x.parkFor })

/-- BODY of a placement record (R139). -/
def placeBody (l : Launch) (index core : Nat) : Nat :=
  index * 2 ^ 72 + core / 64 * 2 ^ 70 + core % 64 * 2 ^ 64 + l.queue * 2 ^ 48 + l.number.toNat

/-- The records of a cluster's placement (R128, R139, R140). -/
def State.logPlaces (s : State) (l : Launch) (cs : List Nat) : Turn :=
  (cs.mapIdx (fun i c => (l.placed + i, c))).foldl (fun acc x => match acc with
    | .go s => s.choose l.ctx l.pkt.det l.pkt.replay 1 (placeBody l x.1 x.2) (fun b => b / 2 ^ 72 == x.1 && b % 2 ^ 64 == placeBody l x.1 x.2 % 2 ^ 64)
    | r => r) (.go s)

/-- A launch ends without a word: its placement does not match the replay (R140). -/
def replayMismatch (s : State) (l : Launch) : State :=
  let s := s.modLaunch l.lid (fun l => { l with complete := true, wordDone := true })
  let s : State := { s with broken := (l.ctx, l.pkt.chain) :: s.broken.filter (fun b => b != (l.ctx, l.pkt.chain)) }
  s.post { recOf 0x01 l.ctx with code := 4, queue := l.queue, detail := l.raw }

/-- A gang is placed (R19, R127): its teams, their second copies, UIENTRY with the first (R124), the turn of the dies. -/
def placeGang (s : State) (l : Launch) (p : Plan) : State :=
  let put (s : State) (x : Nat × Nat) : State :=
    let tid := s.nextTid
    match p.twins[x.1]? with
    | some c2 =>
      let s := enterTeam { s with nextTid := tid + 2 } (newTeam l tid (l.placed + x.1) x.2 0 (some (tid + 1)) true)
      enterTeam s (newTeam l (tid + 1) (l.placed + x.1) c2 0 (some tid) false)
    | none => enterTeam { s with nextTid := tid + 1 } (newTeam l tid (l.placed + x.1) x.2 0 none true)
  let s := (p.cores.mapIdx (fun i c => (i, c))).foldl put s
  let entry : DWord := (l.kvals.getD (l.pkt.kcount + 1) 0) ++ (l.kvals.getD l.pkt.kcount 0)
  let s := if l.placed = 0 ∧ l.pkt.uie = true then s.modCtx l.ctx (fun x => { x with uientry := entry, uilaunch := some l.lid }) else s
  let s := s.modLaunch l.lid (fun l => { l with placed := l.placed + p.cores.length, curvePos := p.pos })
  if l.pkt.det then s
  else
    let n := (s.partDies l.part).length
    { s with turn := tset 0 s.turn (dieTurn l.part) (if n = 0 then 0 else (tget 0 s.turn (dieTurn l.part) + 1) % n) }

/-- TEAM_PLACE: the next gang of a launch is placed, where no launch accepted before it can place one now (R127). -/
def execTeamPlace (lid : Nat) (s : State) : Res :=
  .next (match s.launch? lid with
    | none => s
    | some l =>
      let older := s.launches.filter (fun q => q.part == l.part && decide (q.lid < lid))
      if s.stage ≠ .s2 ∨ older.any (fun q => (s.planFor q).isSome) = true then s
      else if l.pkt.replay && !l.complete && decide (l.placed < l.pkt.grid) && (s.gate l).isSome then
        match s.logHeld l.ctx true, s.loggedCores l l.nextSize with
        | some va, _ => s.waitTurn l.ctx va
        | none, none => replayDiverged s l.ctx
        | none, some cs =>
          if cs.any (fun c => !(s.partCores l.part).contains c) then replayMismatch s l
          else match s.planFor l with
            | none => s
            | some p => match s.logPlaces l p.cores with
              | .go s => placeGang s l p
              | .wait va => s.waitTurn l.ctx va
              | .diverged => replayDiverged s l.ctx
      else match s.planFor l with
        | none => s
        | some p => match s.logPlaces l p.cores with
          | .go s => placeGang s l p
          | .wait va => s.waitTurn l.ctx va
          | .diverged => replayDiverged s l.ctx)

/-! ## Completion -/

/-- Every store, atomic, RED and LUPD of a launch's teams has performed at device scope, replays included (R126). -/
def State.launchQuiet (s : State) (lid : Nat) : Bool :=
  let mine (tid : Nat) : Bool := s.teams.any (fun t => t.tid == tid && t.lid == lid)
  s.remote.all (fun r => !mine r.tid) && s.orphans.all (fun o => !mine o.tid)
    && s.cores.all (fun x => x.2.storeBuf.all (fun b => !mine b.tid))
    && s.teams.all (fun t => t.lid != lid || t.secs.all (fun c => c.log.isEmpty && c.cmp.isEmpty))

/-- LAUNCH_COMPLETE: every team has exited and every write has performed, and the epoch has closed (R126, R363). -/
def execLaunchComplete (lid : Nat) (s : State) : Res :=
  .next (match s.launch? lid with
    | some l =>
      if !l.complete ∧ l.placed = l.pkt.grid ∧ s.teams.all (fun t => t.lid != lid || t.bank == .gone) = true ∧ s.launchQuiet lid = true
          ∧ (l.pkt.det = false ∨ l.epochClosed = true) then
        s.modLaunch lid (fun l => { l with complete := true })
      else s
    | none => s)

/-- The launch is over (R126): the completion interrupt is sent (R369), and its teams are forgotten. -/
def launchOver (s : State) (l : Launch) : State :=
  let s := s.modLaunch l.lid (fun l => { l with wordDone := true })
  let x := s.ctxAt l.ctx
  if l.pkt.irq then
    (s.modCtx l.ctx (fun y => { y with irqs := y.irqs ++ [(x.irqaddr, x.irqdata)] })).physWrite (8 * 2 ^ 48 + x.irqaddr.toNat % 2 ^ 48) (toBytes 4 x.irqdata.toNat)
  else s

/-- The completion word (R126). -/
def completionWord (l : Launch) : Nat := l.queue * 2 ^ 48 + l.number.toNat

/-- A completion word that cannot be written (R126). -/
def wordLost (s : State) (l : Launch) (code : Nat) : State :=
  launchOver (s.post { recOf 0x03 l.ctx with addr := l.pkt.done.toNat, code := code, queue := l.queue }) l

/-- COMPLETION_WORD_WRITE: the word is written at DONE at system scope (R126). -/
def execCompletionWordWrite (lid : Nat) (s : State) : Res :=
  .next (match s.launch? lid with
    | some l =>
      let a := l.pkt.done.toNat
      if l.complete = false ∨ l.wordDone = true then s
      else if a = 0 then launchOver s l
      else if addrClass a ≠ 0 ∨ addrZeros a = false then wordLost s l cSPACE
      else match s.translateNow l.ctx .store a with
        | .ok pa _ => launchOver (s.physWrite pa (toBytes 8 (completionWord l))) l
        | .page => wordLost s l cPAGE
        | .prot => wordLost s l cPROT
        | .resolvable =>
          if s.homeFailed l.ctx a (wordTid lid) 0 then wordLost (s.homesServed (wordTid lid) 0) l cPAGE else s.askHome l.ctx a [(wordTid lid, 0)]
    | none => s)

end Sys2Proof.Machine
end

