-- ==== Sys2Proof/Machine/Park.lean ====
section
/-!
DEFINITION. Demand park (R30, R131), the draining and restoring of images (R114, R115, R132), the shadow bank (R113), pre-emption
(R116, R118), and wake requests (R86, R142).
-/

namespace Sys2Proof.Machine

/-! ## Save areas -/

/-- The pages of a team's save area (R115). -/
def State.imagePages (s : State) (t : Team) : List Nat :=
  match s.launch? t.lid with
  | some l => (List.range (saveBytes l.pkt / 4096)).map (fun i => l.pkt.save.toNat + t.index * saveBytes l.pkt + 4096 * i)
  | none => []

/-- What the spill engine meets in a save area. -/
inductive ImageAt where
  | ok
  | wait (s : State)
  | bad (va : Nat)

/-- The pages of a save area as the spill engine's accesses find them (R115, R154). -/
def State.imageAt (s : State) (t : Team) (acc : Access) : ImageAt :=
  let ps := (s.imagePages t).map (fun va => (va, s.translateNow t.ctx acc va))
  match ps.find? (fun p => match p.2 with
    | .page | .prot => true
    | .resolvable => s.homeFailed t.ctx p.1 t.tid imageRole
    | .ok _ _ => false) with
  | some p => .bad p.1
  | none =>
    let far := ps.filter (fun p => match p.2 with
      | .resolvable => true
      | _ => false)
    if far.isEmpty then .ok else .wait (far.foldl (fun s p => s.askHome t.ctx p.1 [(t.tid, imageRole)]) s)

/-- Where in a save area the vector registers of a role begin (R115); past the last role, the team scratchpad. -/
def imageOffset (p : Packet) (role : Nat) : Nat :=
  1024 * (16 + 192 * p.roles.length + ((p.roles.take role).map (fun r => r.1 * r.2)).sum)

/-- The KiB of a section's granules in its save area, group by group: their offsets, with the group and the granule (R15, R115). -/
def granulesAt (p : Packet) (c : Section) : List (Nat × Nat × Nat) :=
  (List.range c.th.groups).flatMap (fun g => (List.range (c.th.budget / 8)).map (fun j =>
    (imageOffset p c.role + 1024 * (g * (c.th.budget / 8) + j), g, j)))

/-- Register and lane of the word `i` of a granule: 32 lanes of each register in turn (log entry 73). -/
def granuleReg (g j i : Nat) : Nat × Nat := (32 * g + i % 32, 8 * j + i / 32)

/-- The parts of an image whose place R115 gives, a KiB each: offset and bytes. -/
def imageKibs (p : Packet) (t : Team) : List (Nat × List Byte) :=
  t.secs.flatMap (fun c => (granulesAt p c).map (fun x => (x.1, (List.range 256).flatMap (fun i =>
      let r := granuleReg x.2.1 x.2.2 i
      toBytes 4 (c.th.vreg r.1 r.2).toNat))))
    ++ (List.range (t.scratchSize / 1024)).map (fun j => (imageOffset p p.roles.length + 1024 * j, readBytes t.scratch (1024 * j) 1024))

/-- The address of an offset in a team's save area (R115). -/
def imageVA (p : Packet) (t : Team) (off : Nat) : Nat := p.save.toNat + t.index * saveBytes p + off

/-- The 4 KiB pieces of a save area whose contents are the device's own (R115): the team header, and of each role the section state, the
side-log entries and the continuation records. -/
def imageOwn (p : Packet) : List Nat :=
  (List.range 4).map (fun i => 4096 * i)
    ++ (List.range p.roles.length).flatMap (fun r => (List.range 27).map (fun i => 1024 * (16 + 192 * r) + 61440 + 4096 * i))

/-- Draining writes the image to the team's save area (R114): the registers and the scratchpad as they stand, bytes that the spec does not
give for the rest (log entries 26 and 73). The second copy of a dual-run team keeps its own values. -/
def State.imageOut (s : State) (t : Team) : State :=
  match s.launch? t.lid with
  | none => s
  | some l =>
    if !t.primary then s
    else
      let s := (imageKibs l.pkt t).foldl (fun s x => match s.translateNow t.ctx .store (imageVA l.pkt t x.1) with
        | .ok pa _ => s.homeWrite (x.2.mapIdx (fun i b => (pa + i, b)))
        | _ => s) s
      (imageOwn l.pkt).foldl (fun s off => match s.translateNow t.ctx .store (imageVA l.pkt t off) with
        | .ok pa _ => s.freeBytes pa 4096
        | _ => s) s

/-- A KiB of a save area; none where its page does not stand. -/
def State.imageKib (s : State) (p : Packet) (t : Team) (off : Nat) : Option (List Byte) :=
  match s.translateNow t.ctx .load (imageVA p t off) with
  | .ok pa _ => some ((List.range 8).flatMap (fun i => s.homeRead (pa + 128 * i) 128))
  | _ => none

/-- Filling reads the image back (R114). -/
def State.imageIn (s : State) (t : Team) : State :=
  match s.launch? t.lid with
  | none => s
  | some l =>
    if !t.primary then s
    else
      let word (th : Thread) (g j : Nat) (bs : List Byte) : Thread := (List.range 256).foldl (fun th i =>
        let r := granuleReg g j i
        th.setV r.1 r.2 (BitVec.ofNat 32 (ofBytes ((bs.drop (4 * i)).take 4)))) th
      let back (c : Section) : Section := { c with th := (granulesAt l.pkt c).foldl (fun th x =>
        ((s.imageKib l.pkt t x.1).map (word th x.2.1 x.2.2)).getD th) c.th }
      s.modTeam t.tid (fun u => { u with
        secs := u.secs.map back
        scratch := (List.range (u.scratchSize / 1024)).foldl (fun m j =>
          ((s.imageKib l.pkt t (imageOffset l.pkt l.pkt.roles.length + 1024 * j)).map (writeBytes m (1024 * j))).getD m) u.scratch })

/-- What a coming-back team finds: its image read back, unless it was discarded (R118). -/
def State.fillImage (s : State) (t : Team) : State := if t.discarded then s else s.imageIn t

/-- A page of an image that cannot be mapped ends the context (R115). -/
def imageLost (s : State) (t : Team) (va : Nat) : State := endContext s t.ctx cPAGE (BitVec.ofNat 64 va) (recBy 0x10 t 0xFF)

/-! ## Demand park -/

/-- Every section of a team that has not exited stands at a boundary (R85). -/
def atBoundaries (t : Team) : Bool := t.secs.all (fun c => c.state == .exited || (!underWay c && !c.stepping && !c.stepDone))

/-- A load that waits for a page home may be saved held (R155, R348). -/
def savableLoad (c : Section) : Bool :=
  c.state == .waiting && c.waitOn == .heldLoad && c.hostReq.all (fun h => h.who.isNone && h.isLoad && h.op.lanes.isEmpty)

/-- A section as pre-emption finds it: a held load that is saved held holds no boundary back. -/
def savedHeld (c : Section) : Section := if savableLoad c then { c with waitOn := .none, hostReq := none } else c

/-- Since which step a team has had a section eligible for demand park (R30); none for a team that is never parked so. -/
def eligibleSince (t : Team) : Option Nat :=
  if decide (1 < t.gangSize) || t.draining || t.secs.any (fun c => c.hmode) then none
  else least (t.secs.filterMap (fun c => if c.bkLevel = 7 ∧ c.state ≠ .parked ∧ c.state ≠ .exited then c.parkElig else none))

/-- The candidate of a core (R131): the team with an eligible section that has been so longest. -/
def State.candidate (s : State) (d c : Nat) : Option Team :=
  let l := (s.inBank d c .active).filter (fun t => (eligibleSince t).isSome)
  (leastBy (fun t => (eligibleSince t).getD 0) l).head?

/-- The team that waits for a core, were the candidate's resources freed (R131): a parked one, or the next of a launch. -/
def State.waiter (s : State) (d c : Nat) (cand : Team) : Option (Nat × Option Nat) :=
  let x := s.coreAt d c
  let others := (s.inBank d c .active).filter (fun t => t.tid != cand.tid)
  let free := bankWithout others
  let parked := (s.parkedTeams d c).filter resumable
  match parked.find? (fun t => t.room.fits free) with
  | some t => some (t.tid, none)
  | none => match parked.head? with
    | some t => some (t.tid, none)
    | none =>
      let waits (l : Launch) : Bool :=
        !l.complete && decide (l.placed < l.pkt.grid) && (s.partCores l.part).contains (64 * d + c)
          && (others.isEmpty || x.ctx == some l.ctx)
          && (match s.gate l with
            | some r => l.pkt.room.fits { free with slots := free.slots - r }
            | none => false)
      (s.launches.find? waits).map (fun l => (l.lid, some l.placed))

/-- A team that waits for a core fits there as things stand, so that nothing need be parked for it. -/
def State.waiterFits (s : State) (d c : Nat) (w : Nat × Option Nat) : Bool :=
  match w.2 with
  | none => (s.team? w.1).any s.restoreFits
  | some _ => (s.launch? w.1).any (fun l => match s.gate l with
    | some r =>
      let free := s.freeRoom d c
      let ctx := (s.coreAt d c).ctx
      (ctx == none || ctx == some l.ctx) && l.pkt.room.fits { free with slots := free.slots - r }
    | none => false)

/-- DEMAND_PARK: the candidate's sections are parked for a waiting team that does not fit, and its image starts to drain (R131). While that
team still does not fit, further candidates are parked for it, one at a time. -/
def execDemandPark (die core : Nat) (s : State) : Res :=
  .next (
    if (s.inBank die core .active).any (fun t => t.draining && t.secs.any (fun c => c.state == .parked && c.parkWhy == 0)) then s
    else match s.candidate die core with
      | none => s
      | some t =>
        if !atBoundaries t then s
        else match (s.keptFor die core).orElse (fun _ => s.waiter die core t) with
          | none => s
          | some w =>
            if s.waiterFits die core w then s
            else
            let s := s.modTeam t.tid (fun u => { u with draining := true, secs := u.secs.map (parkSec 0) })
            (s.modCore die core (fun x => { x with parkFor := some w })).pmAdd die core 0x0A 1)

/-! ## Draining and restoring -/

/-- The copies of a team that are still at work. -/
def State.copiesAtWork (s : State) (t : Team) : Bool := (s.coreAt t.die t.core).copyq.any (fun c => c.tid == t.tid && !c.paused)

/-- A drained image: the team is saved, and what it held is free (R114, R131, R391). -/
def drainDone (s : State) (t : Team) : State :=
  let s := stow s t
  let drop (c : Section) : Section := { c with th := c.th.dropLatches }
  let s := s.modTeam t.tid (fun u => { u with bank := .saved, draining := false, secs := u.secs.map drop })
  let active := !(s.inBank t.die t.core .active).isEmpty
  s.modCore t.die t.core (fun x => { x with parked := x.parked ++ [t.tid], ctx := if active then x.ctx else none })

/-- The image of a team swapped out has drained. Until the last one has, the bank holds the whole context, which a swap may bring back; then
its teams are parked in their order, and the shadow bank is empty (R113). -/
def shadowDrainDone (s : State) (t : Team) : State :=
  let s := s.modTeam t.tid (fun u => { u with draining := false })
  let held := s.inBank t.die t.core .shadow
  if held.any Team.draining then s
  else
    let tids := held.map Team.tid
    let s : State := { s with teams := s.teams.map (fun u => if tids.contains u.tid then { u with bank := .saved } else u) }
    s.modCore t.die t.core (fun x => { x with parked := x.parked ++ tids, shadow := .empty, shadowCtx := none })

/-- The list of parked teams of a core has room for more (R120). -/
def State.parkRoom (s : State) (d c n : Nat) : Bool := decide ((s.coreAt d c).parked.length + n ≤ 96)

/-- IMAGE_DRAIN_COMPLETE: a team's image has been written to its save area (R114). -/
def execImageDrainComplete (tid : Nat) (s : State) : Res :=
  .next (match s.team? tid with
    | some t =>
      if !t.draining then s
      else match t.bank with
        | .active =>
          if !mayLeave t || s.copiesAtWork t || !s.parkRoom t.die t.core 1 then s
          else match s.imageAt t .store with
            | .ok => drainDone (s.imageOut t) t
            | .wait s' => s'
            | .bad va => imageLost s t va
        | .shadow => match s.imageAt t .store with
          | .ok => if s.parkRoom t.die t.core (s.inBank t.die t.core .shadow).length then shadowDrainDone (s.imageOut t) t else s
          | .wait s' => s'
          | .bad va => imageLost s t va
        | _ => s
    | none => s)

/-- A section parked in place whose reply has been posted and not delivered. -/
def repliedInPlace (t : Team) : Option Nat :=
  if parkedInPlace t then ((t.secs.filter (fun c => c.state == .parked && c.svcReply.isSome)).map Section.role).head? else none

/-- TEAM_RESTORE: a parked team comes back on its core with its replies (R132, R138), or a section parked in place does (R391). -/
def execTeamRestore (die core : Nat) (s : State) : Res :=
  .next (match (s.inBank die core .active).find? (fun t => (repliedInPlace t).isSome) with
    | some t => match resumeInPlace s t ((repliedInPlace t).getD 0) with
      | .go s => s
      | .wait va => s.waitTurn t.ctx va
      | .diverged => replayDiverged s t.ctx
    | none => match s.nextRestore die core with
      | none => s
      | some t => match (if t.discarded then .ok else s.imageAt t .load) with
        | .wait s' => s'
        | .bad va => imageLost s t va
        | .ok => match restoreTeam (s.fillImage t) t with
          | .go s => s
          | .wait va => s.waitTurn t.ctx va
          | .diverged => replayDiverged s t.ctx)

/-! ## The shadow bank -/

/-- The parked teams of a context that one bank holds together, in order of parking, with their ranges of its scratchpad. -/
def State.fillTeams (s : State) (d c ctx : Nat) : List Team :=
  (((s.parkedTeams d c).filter (fun t => t.ctx == ctx && resumable t)).foldl
    (fun (acc : List Team × Room) t =>
      if t.room.fits acc.2 then (acc.1 ++ [{ t with base := (acc.2.gap (t.scratchSize / 1024)).getD 0 }], acc.2.less t.room) else acc) ([], Room.bank)).1

/-- What the fill of several images meets. -/
def State.fillAt (s : State) : List Team → ImageAt
  | [] => .ok
  | t :: r => if t.discarded then s.fillAt r else match s.imageAt t .load with
    | .ok => s.fillAt r
    | x => x

/-- SHADOW_FILL_COMPLETE: a context's saved images stand in the shadow bank (R113). -/
def execShadowFillComplete (die core ctx : Nat) (s : State) : Res :=
  .next (
    let x := s.coreAt die core
    let ts := s.fillTeams die core ctx
    if x.ctx = some ctx ∨ (x.shadow ≠ .empty ∧ (x.shadow ≠ .filling ∨ x.shadowCtx ≠ some ctx)) then s
    else if ts.isEmpty then s.modCore die core (fun x => { x with shadow := .empty, shadowCtx := none })
    else match s.fillAt ts with
      | .wait s' => s'
      | .bad va => match ts.head? with
        | some t => imageLost s t va
        | none => s
      | .ok =>
        let s := ts.foldl State.fillImage s
        let s : State := { s with teams := s.teams.map (fun t => match ts.find? (fun u => u.tid == t.tid) with
          | some u => { t with bank := .shadow, base := u.base, draining := false }
          | none => t) }
        s.modCore die core (fun x => { x with
          shadow := .full, shadowCtx := some ctx, parked := x.parked.filter (fun p => !ts.any (fun t => t.tid == p)) }))

/-- Sections of a team that comes in by a swap are back, those with a reply when its delivery has its turn (R113, R139). -/
def swapIn (s : State) (t : Team) : State :=
  let (s, ok) := match s.deliverAll t (repliedRoles t) with
    | .go s => (s, true)
    | _ => (s, false)
  let back (c : Section) : Section :=
    let c := { c with th := c.th.dropLatches }
    if c.svcReply.isSome && !ok then c else backFromPark c
  let s := (unstow s t).modTeam t.tid (fun u => { u with bank := .active, draining := false, discarded := false, secs := u.secs.map back })
  recheckAll s t

/-- A section as pre-emption finds it stands at a boundary with every older instruction complete but logged stores (R116). -/
def secSafe (s : State) (t : Team) (c : Section) : Bool :=
  c.state == .exited || (!underWay (savedHeld c) && !c.stepping && !c.stepDone && c.cmp.isEmpty
    && !s.remote.any (fun r => r.tid == t.tid && r.role == c.role) && !s.sysOps.any (fun o => o.tid == t.tid && o.role == c.role)
    && !(s.coreAt t.die t.core).storeBuf.any (fun b => b.tid == t.tid && b.role == c.role))

/-- The safe point of R116: only paused copies are outstanding, no bound copy is in flight, every section stands at a boundary with its
older instructions complete. -/
def State.safePoint (s : State) (d c : Nat) : Bool :=
  let x := s.coreAt d c
  let paused (id : Nat) : Bool := x.copyq.any (fun y => y.id == id && y.paused)
  (s.inBank d c .active).all (fun t => t.secs.all (fun k => secSafe s t k && k.outs.all (fun o => o.done || decide (2 < o.cls) || paused o.op)))
    && x.copyq.all (fun y => y.form != 3 || y.paused)

/-- A TLB entry of a context. -/
def tlbCtx (e : Nat × DWord × Nat) : Nat := e.1 / 2 ^ 37

/-- BANK_SWAP: the banks of a core exchange their roles (R113), at a safe point at which every section of the active context has left
issue. The outgoing context's TLB entries are dropped (R144), and each of its sections reads PARKWHY 2. -/
def execBankSwap (die core : Nat) (s : State) : Res :=
  .next (
    let x := s.coreAt die core
    let out := s.inBank die core .active
    let inc := s.inBank die core .shadow
    if !x.preempt ∨ x.shadow = .filling ∨ s.safePoint die core = false
        ∨ out.any (fun t => t.secs.any (fun c => c.state != .parked && c.state != .exited)) = true then s
    else
      let s := out.foldl stow s
      let leave (t : Team) : Team :=
        if t.die = die ∧ t.core = core ∧ t.bank = .active then { t with bank := .shadow, draining := true, secs := t.secs.map (parkSec 2) } else t
      let s : State := { s with teams := s.teams.map leave }
      let s := s.modCore die core (fun y => { y with
        preempt := false
        dcache := []
        tlb := y.tlb.filter (fun e => x.ctx != some (tlbCtx e))
        dirs := []
        ctx := if inc.isEmpty then none else x.shadowCtx
        shadow := if out.isEmpty then .empty else .draining
        shadowCtx := if out.isEmpty then none else x.ctx })
      let s := inc.foldl swapIn s
      match inc.head? with
      | some t => s.wakeServed t.ctx
      | none => s)

/-! ## Pre-emption -/

/-- PREEMPT_REQUEST: the distributor sets pre-emption pending: copy issue stalls (R116). -/
def execPreemptRequest (die core : Nat) (s : State) : Res :=
  .next (if s.stage = .s2 then s.modCore die core (fun x => { x with preempt := true }) else s)

/-- PREEMPT_SAFE_POINT: teams that qualify are discarded (R118); the sections of the others leave issue for the swap, unless the
shadow bank is filling (R113, R116). -/
def execPreemptSafePoint (die core : Nat) (s : State) : Res :=
  .next (
    if !(s.coreAt die core).preempt || !s.safePoint die core then s
    else
      let s := ((s.inBank die core .active).filter mayDiscard).foldl (fun s t => if s.parkRoom die core 1 then discard s t else s) s
      let filling := (s.coreAt die core).shadow == .filling
      let park (t : Team) : Team :=
        if t.die = die ∧ t.core = core ∧ t.bank = .active ∧ filling = false then { t with secs := t.secs.map (parkSec 2) } else t
      let s : State := { s with teams := s.teams.map park }
      let active := !(s.inBank die core .active).isEmpty
      s.modCore die core (fun x => { x with ctx := if active then x.ctx else none }))

/-- Cores on which another context runs and the shadow bank can take, or holds, the teams of a context (R86, R113). -/
def State.wakeCores (s : State) (ctx : Nat) : List Nat :=
  (List.range 256).filter (fun c =>
    let x := s.coreAt (c / 64) (c % 64)
    x.ctx != none && !x.preempt && (if x.shadowCtx = some ctx then x.shadow != .empty
      else x.shadow == .empty && !(s.fillTeams (c / 64) (c % 64) ctx).isEmpty))

/-- A context is resident, or has no team left to make resident: its wake request is over. -/
def State.wakeOver (s : State) (ctx : Nat) : Bool :=
  s.teams.any (fun t => t.ctx == ctx && t.bank == .active) || !s.teams.any (fun t => t.ctx == ctx && t.bank != .gone)

/-- CONTEXT_WAKE: the distributor takes the contexts of a die's wake request list in order and makes the first that it can resident (R86,
R142): where its teams are parked behind another context's, the shadow bank fills with them, and pre-emption is pending. The request
stays in the list until the context is resident, so that none is lost (R120). -/
def execContextWake (die : Nat) (s : State) : Res :=
  .next (
    let s := (s.dieAt die).wake.foldl (fun s ctx => if s.wakeOver ctx then s.wakeServed ctx else s) s
    match (s.dieAt die).wake.find? (fun ctx => !(s.wakeCores ctx).isEmpty) with
    | none => s
    | some ctx => (s.wakeCores ctx).foldl (fun s c => s.modCore (c / 64) (c % 64) (fun x =>
        if x.shadow = .empty then { x with shadow := .filling, shadowCtx := some ctx, preempt := true } else { x with preempt := true })) s)

end Sys2Proof.Machine
end

