-- ==== Sys2Proof/Machine/Service.lean ====
section
/-!
DEFINITION. svc (R138, R339), service request rings (R137, R393), the shipped services (R340): allocate and free (R392), the host
atomic, the host runtime's numbers; the failure of a service instance (R379).
-/

namespace Sys2Proof.Machine

/-! ## The ring -/

/-- The slice to whose ring a team's requests go (R137). -/
def svcSlice (t : Team) : Nat := t.core % 16

/-- The 32-byte header of a request (R137). -/
def reqHeader (seq num lanes : Nat) (t : Team) (role : Nat) (nowait : Bool) (replyW : Nat) : List Byte :=
  toBytes 8 seq ++ toBytes 4 num ++ toBytes 2 lanes ++ toBytes 1 t.die ++ toBytes 1 t.core ++ toBytes 4 t.index ++ toBytes 1 role
    ++ toBytes 1 (b2n nowait) ++ toBytes 2 0 ++ toBytes 8 replyW

/-- The units that a request of `n` lane blocks takes: those skipped at the ring's end are its own (R393). -/
def reqUnits (x : Slice) (n : Nat) : Nat :=
  let at_ := x.rpost.toNat % Config.ringUnits
  let left := Config.ringUnits - at_
  if left < n + 1 then left + (n + 1) else n + 1

/-- A request fits the ring (R393). -/
def reqFits (x : Slice) (n : Nat) : Bool := decide ((x.rpost - x.rfree).toNat + reqUnits x n ≤ Config.ringUnits)

/-- A reply word that a service core can write (R339). -/
def replyWordOk (w : Nat) : Bool := decide (w % 8 = 0) && decide (addrClass w = 0) && addrZeros w

/-- A request is posted to the ring of its slice (R137, R393). -/
def postReq (s : State) (t : Team) (role : Nat) (num : Nat) (nowait : Bool) (replyW : DWord) (blocks : List (List Byte)) (id : Nat) : State :=
  let x := s.sliceAt t.die (svcSlice t)
  let n := reqUnits x blocks.length
  let r : SvcReq := { seq := x.seq, tid := t.tid, role := role, ctx := t.ctx, num := num, nowait := nowait, replyW := if nowait then replyW else 0
                      blocks := reqHeader x.seq num blocks.length t role nowait (if nowait then replyW.toNat else 0) :: blocks
                      unit := (x.rpost.toNat + (n - (blocks.length + 1))) % Config.ringUnits, units := n
                      served := false, order := 0, delivered := false, id := id }
  s.modSlice t.die (svcSlice t) (fun x => { x with rpost := x.rpost + BitVec.ofNat 32 n, seq := x.seq + 1, reqs := x.reqs ++ [r] })

/-- A request that waits for room: its header, whose number is that of its counted operation, and its blocks. -/
def waitingReq (num : Nat) (t : Team) (role : Nat) (nowait : Bool) (replyW : DWord) (blocks : List (List Byte)) (id : Nat) : List (List Byte) :=
  reqHeader id num blocks.length t role nowait replyW.toNat :: blocks

/-- A request is posted, its header and blocks given (R138): a nowait one is complete on its counter. -/
def postWaiting (s : State) (t : Team) (role : Nat) (l : List (List Byte)) : State :=
  match l with
  | [] => s
  | h :: blocks =>
    let v := ofBytes h
    let id := bits v 0 64
    let nowait := bits v 168 1 == 1
    let s := postReq s t role (bits v 64 32) nowait (BitVec.ofNat 64 (bits v 192 64)) blocks id
    if nowait then s.opDone t.tid role id else s

/-- A section's oldest request to be posted is posted once its release is complete and its ring has room (R138, R329). -/
def State.tryPost (s : State) (tid role : Nat) : State :=
  match s.team? tid, s.sec? tid role with
  | some t, some c => match c.svcPending with
    | [] => s
    | w :: r =>
      if s.olderPerformed t c none w.before 4 && reqFits (s.sliceAt t.die (svcSlice t)) (w.req.length - 1) then
        postWaiting (s.modSec tid role (fun c => { c with svcPending := r })) t role w.req
      else s
  | _, _ => s

/-- svc (R138, R339): the request of the active lanes is posted under a release at device scope, which holds back no younger instruction
(R329). A parking section leaves issue at once, and its team the core when nothing of it stays (R391). -/
def execSvc (w : Bool) (h l : BitVec 8) (s : State) : Res :=
  guardedForm (.svc w h l) s (fun _ => true) (fun k => usesUnlatched k ⟨true, [], []⟩) (fun k => k.th) (fun k =>
    let num := 256 * h.toNat + l.toNat
    match k.rec? with
    | some _ => recallQuiet k s
    | none =>
      if w && counter k.sec 4 = 63 then waitOn k s .copyEntry (.counter 4 62)
      else
        let ls := k.th.lanes k.act
        let blocks := ls.map (fun x => (List.range 8).flatMap (fun n => toBytes 4 (k.th.vreg x n).toNat))
        let t := k.team
        let role := k.sec.role
        let id := s.nextOp
        let req : SvcWait := ⟨id, waitingReq num t role w (if w then k.th.kpair 46 else 0) blocks id⟩
        let s : State := { pass k s with nextOp := id + 1 }
        let s := modOwn k s (fun c => { c with svcPending := c.svcPending ++ [req], lastRel := id })
        if w then (modOwn k s (outAdd 4 id)).tryPost t.tid role
        else
          let s := s.tryPost t.tid role
          let s := modOwn k s (fun c => parkSec 1 { c with svcLanes := some ls, svcReply := none })
          s.modTeam t.tid (fun u => if mayLeave u then { u with draining := true } else u))

/-- SVC_DEFERRED_POST: a request that waited for its release or for room is posted (R138, R329). -/
def execSvcDeferredPost (tid role : Nat) (s : State) : Res := .next (s.tryPost tid role)

/-! ## Replies -/

/-- The 16 reply bytes of a lane block: value, status (R340). -/
def replyBytes (v st : Nat) : List Byte := toBytes 8 v ++ toBytes 4 st ++ toBytes 4 0

/-- The name under which a non-parking reply waits for the page of its word. -/
abbrev replyTid (die slice : Nat) : Nat := 2 ^ 41 + 16 * die + slice

/-- The word of a non-parking call is written with bit 63 set (R339), in the turn of its delivery (R138 to R140); it waits for a page that
the page home can map (R154). A request without a word has no reply. -/
def State.replyOut (s : State) (die slice : Nat) (r : SvcReq) (v : Nat) : State :=
  let w := r.replyW.toNat
  let who := (replyTid die slice, r.seq)
  if !replyWordOk w then s.reqDone die slice r.seq
  else if s.translateNow r.ctx .store w = .resolvable ∧ s.homeFailed r.ctx w who.1 who.2 = false then s.askHome r.ctx w [who]
  else
    let turn : Turn := match s.team? r.tid with
      | some t => s.replyTurn t die slice r
      | none => .go s
    match turn with
    | .wait va => s.waitTurn r.ctx va
    | .diverged => replayDiverged s r.ctx
    | .go s => ((s.homesServed who.1 who.2).reqDone die slice r.seq).sysWrite r.ctx w (toBytes 8 (2 ^ 63 + v % 2 ^ 63))

/-- The reply of a request is written into its blocks and posted (R138, R339): the section resumes in place, or its team becomes
resumable; a non-parking call has its word written with bit 63 set. -/
def postReply (s : State) (die slice : Nat) (r : SvcReq) (reply : List (List Byte)) : State :=
  let mark (q : SvcReq) : SvcReq := if q.seq = r.seq then
      { q with served := true, order := s.nextOp
               blocks := q.blocks.take 1 ++ ((q.blocks.drop 1).zip reply).map (fun x => x.2 ++ x.1.drop 16) } else q
  let s : State := { s.modSlice die slice (fun x => { x with reqs := x.reqs.map mark }) with nextOp := s.nextOp + 1 }
  if r.nowait then s.replyOut die slice r (ofBytes ((reply.headD []).take 8))
  else
    match s.team? r.tid, s.sec? r.tid r.role with
    | some t, some c =>
      if c.svcLanes.isNone then s.reqDone die slice r.seq
      else
        let s := s.modSec r.tid r.role (fun c => { c with svcReply := some reply })
        if !parkedInPlace t then s
        else match s.team? r.tid with
          | some t => match resumeInPlace s t r.role with
            | .go s => s
            | .wait va => s.waitTurn t.ctx va
            | .diverged => replayDiverged s t.ctx
          | none => s
    | _, _ => s.reqDone die slice r.seq

/-! ## Allocation -/

/-- Where the leaf entry of a 4 KiB page stands, whatever it holds (R145 to R148). -/
def leafSlot (m : List Host.Cell) (root va : Nat) : Option Nat :=
  match dirNext (readEntry m (root + 8 * bits va 41 8)) 3 with
  | none => none
  | some t2 => match dirNext (readEntry m (t2 + 8 * bits va 29 12)) 3 with
    | none => none
    | some t1 =>
      let e1 := readEntry m (t1 + 8 * bits va 23 6)
      match dirNext e1 4 with
      | none => none
      | some t0 => if bits e1 3 1 = 0 then some (t0 + 8 * bits va 12 11) else none

/-- The lowest run of free pages in a window: its first page (R392). -/
def freeRun (used : Table Bool) (base n need : Nat) : Option Nat :=
  if need = 0 ∨ n < need then none
  else ((List.range (n + 1 - need)).map (fun i => base + i)).find? (fun p => (List.range need).all (fun j => !tget false used (p + j)))

/-- The pages that each lane block of an allocation takes, and what is then used (R392). -/
def takePages (x : Context) (sizes : List Nat) : List (Option (List DWord)) × Context :=
  sizes.foldl (fun acc sz =>
    let y := acc.2
    if sz = 0 ∨ sz % 4096 ≠ 0 then (acc.1 ++ [none], y)
    else match freeRun y.used (y.allocbase.toNat / 4096) (y.alloclen.toNat / 4096) (sz / 4096) with
      | none => (acc.1 ++ [none], y)
      | some p =>
        let ps := (List.range (sz / 4096)).map (fun i => p + i)
        (acc.1 ++ [some (ps.map (fun q => BitVec.ofNat 64 (4096 * q)))], { y with used := tsets false y.used (ps.map (fun q => (q, true))) }))
    ([], x)

/-- The block arguments of a request: v0 to v7 of each lane. -/
def SvcReq.args (r : SvcReq) : List (List Byte) := r.blocks.drop 1
def argWord (b : List Byte) (n : Nat) : Nat := ofBytes ((b.drop (4 * n)).take 4)
def argPair (b : List Byte) (n : Nat) : Nat := ofBytes ((b.drop (4 * n)).take 8)

/-- The leaf entry of an allocated page (R392): PA, WR 1, RD 1, KIND 1, V 1. -/
def allocLeaf (pa : Nat) : Nat := pa / 4096 % 2 ^ 40 * 4096 + 2 ^ 4 + 2 ^ 3 + 2 + 1

/-- A page of an allocation is zero-filled and mapped, and its range invalidated (R392). -/
def mapPage (s : State) (ctx : Nat) (va pa slot : Nat) : State :=
  let s : State := { s with mem := s.mem.filter (fun c => !decide (pa ≤ c.1 ∧ c.1 < pa + 4096)) }
  ((s.dropRange pa 4096).physWrite slot (toBytes 8 (allocLeaf pa))).dropTlb ctx va 4096

/-- A frame that can be mapped: bonded DRAM of a die, 4 KiB aligned. -/
def frameOk (pa : Nat) : Bool := decide (pa % 4096 = 0) && decide (pa / 2 ^ 48 < 4) && paOk 0 pa

/-- One block of an allocation with the frames granted for its pages: mapped, or refused with its pages free again (R392). -/
def allocBlock (s : State) (ctx : Nat) (ps : Option (List DWord)) (frames : List (Option Nat)) : State × List Byte :=
  match ps with
  | none => (s, replyBytes 0 2)
  | some [] => (s, replyBytes 0 2)
  | some (v :: r) =>
    let vas := (v :: r).map BitVec.toNat
    let root := (s.ctxAt ctx).ptroot.toNat
    let all := (vas.zip frames).filterMap (fun x => match x.2, leafSlot s.mem root x.1 with
      | some pa, some slot => if frameOk pa then some (x.1, pa, slot) else none
      | _, _ => none)
    if all.length = vas.length then
      let s := all.foldl (fun s x => mapPage s ctx x.1 x.2.1 x.2.2) s
      (s.modCtx ctx (fun y => { y with allocs := tset 0 y.allocs (v.toNat / 4096) vas.length }), replyBytes v.toNat 0)
    else (s.modCtx ctx (fun y => { y with used := tsets false y.used (vas.map (fun a => (a / 4096, false))) }), replyBytes 0 2)

/-- All blocks of an allocation. -/
def allocAll (s : State) (ctx : Nat) : List (Option (List DWord)) → List (Option Nat) → State × List (List Byte)
  | [], _ => (s, [])
  | p :: r, fs =>
    let n := (p.map List.length).getD 0
    let x := allocBlock s ctx p (fs.take n)
    let y := allocAll x.1 ctx r (fs.drop n)
    (y.1, x.2 :: y.2)

/-- One block of a free (R392): an address that an allocation returned and that stands. -/
def freeBlock (s : State) (ctx a : Nat) : State × List Byte :=
  let n := tget 0 (s.ctxAt ctx).allocs (a / 4096)
  if a % 4096 ≠ 0 ∨ n = 0 then (s, replyBytes 0 2)
  else
    let vas := (List.range n).map (fun i => a + 4096 * i)
    let clear (s : State) (va : Nat) : State :=
      match leafSlot s.mem (s.ctxAt ctx).ptroot.toNat va with
      | some slot => ((s.dropRange (leafPA (readEntry s.mem slot)) 4096).physWrite slot (toBytes 8 0)).dropTlb ctx va 4096
      | none => s
    let s := vas.foldl clear s
    (s.modCtx ctx (fun y => { y with allocs := tset 0 y.allocs (a / 4096) 0, used := tsets false y.used (vas.map (fun v => (v / 4096, false))) }),
     replyBytes 0 0)

/-! ## The host atomic -/

/-- The operation of a code (R340). -/
def svcOp (c : Nat) : Option OpKind :=
  match c with
  | 0 => some .add
  | 1 => some .min
  | 2 => some .max
  | 3 => some .and
  | 4 => some .or
  | 5 => some .xor
  | 6 => some .xchg
  | 7 => some .cas
  | _ => none

/-- The TYPE codes that the atom of an operation accepts (R261, R340). -/
def svcTy (kind : OpKind) (ty : Nat) : Bool :=
  decide (ty < 32) && (match ty with
    | 2 | 3 | 6 | 7 => true
    | 10 | 11 => kind == .add || kind == .xchg || kind == .cas
    | _ => false)

/-- One lane block of a host atomic (R340): where the page lies; `old` is the value that a step at the host finds there. Of a host-owned page
the bytes of its frame stand for the host's copy (log entry 77). -/
def hostAtomic (s : State) (ctx : Nat) (b : List Byte) (old : Nat) : State × List Byte :=
  let ty := argWord b 1
  let a := argPair b 2
  match svcOp (argWord b 0) with
  | none => (s, replyBytes 0 2)
  | some kind =>
    let size := (tyBytes (BitVec.ofNat 5 ty)).getD 4
    let x : LaneOp := { lane := 0, addr := BitVec.ofNat 64 a, vas := [(a, size)], spot := none
                        data := BitVec.ofNat 64 (argPair b 4), data2 := BitVec.ofNat 64 (argPair b 6) }
    let op : MemOp := { kind := kind, ty := BitVec.ofNat 5 ty, size := size, scope := 5, rd := 0, lanes := [], atomic := true }
    if !svcTy kind ty || decide (a % size ≠ 0) || decide (addrClass a ≠ 0) || !addrZeros a then (s, replyBytes 0 2)
    else match s.pageBase ctx a with
      | none => (s, replyBytes 0 2)
      | some (l, base) =>
        if !leafV l.e || !leafRD l.e || !leafWR l.e then (s, replyBytes 0 2)
        else
          let pa := leafPA l.e + (a - base)
          if leafOWN l.e = 0 then
            let sp : Spot := .phys [(pa, size)]
            let r := s.stepAt ctx op x sp
            (sp.linesOf.foldl (fun s l => s.dropLineAll l) r.2, replyBytes r.1 0)
          else
            let old := old % 2 ^ (8 * size)
            if leafOWN l.e = 2 then
              let line := pa / 128 * 128
              let s := ((s.writeBack line).dropSlice line).dropLineAll line
              let v := (op.new old x).getD old
              (s.physWrite pa (toBytes size v), replyBytes old 0)
            else (s.physWrite pa (toBytes size ((op.new old x).getD old)), replyBytes old 0)

/-- The lane blocks of a host atomic, in ring order. -/
def hostAtomics (s : State) (ctx : Nat) : List (List Byte) → List (BitVec 64) → State × List (List Byte)
  | [], _ => (s, [])
  | b :: r, os =>
    let x := hostAtomic s ctx b (os.headD 0).toNat
    let y := hostAtomics x.1 ctx r (os.drop 1)
    (y.1, x.2 :: y.2)

/-! ## Serving -/

/-- The slice whose instance holds a context's allocation window (R150, R392). -/
def State.allocHome (s : State) (ctx : Nat) : Nat × Nat := s.pageHome ctx (s.ctxAt ctx).allocbase.toNat

/-- In deterministic mode requests to the window are served in the order of their records, which a replay's log gives (R140, R392). -/
def State.allocTurn (s : State) (die slice : Nat) (r : SvcReq) : Bool :=
  match s.sec? r.tid r.role with
  | none => true
  | some c =>
    if !(c.det && c.replay) then true
    else
      -- the first record whose request may still have to be served at the window
      let open_ (b : Nat) : Bool :=
        match (s.sliceAt (bits b 26 2) (bits b 28 4)).reqs.find? (fun q => q.seq == b / 2 ^ 32) with
        | some q => allocNum q && !q.served && q.ctx == r.ctx
        | none => decide ((s.sliceAt (bits b 26 2) (bits b 28 4)).seq ≤ b / 2 ^ 32)
      match s.logNext r.ctx 3 open_ with
      | some (_, b) => b == replyBody die slice r.seq
      | none => true

/-- Serving an allocation (R392): its pages are taken and the host driver is asked once for all their frames; when the frames have
been granted it is completed. -/
def serveAlloc (s : State) (die slice : Nat) (r : SvcReq) : State :=
  let home := s.allocHome r.ctx
  let x := s.sliceAt home.1 home.2
  match x.frames.find? (fun f => f.svc == some (die, slice, r.seq)) with
  | some f => match f.answer with
    | none => s
    | some ans =>
      let s := s.modSlice home.1 home.2 (fun x => { x with frames := x.frames.filter (fun g => g.svc != some (die, slice, r.seq)) })
      let y := allocAll s r.ctx f.perBlock ans
      postReply y.1 die slice r y.2
  | none =>
    if x.frames.any (fun f => f.svc.isSome) || !s.allocTurn die slice r then s
    else
      let p := takePages (s.ctxAt r.ctx) (r.args.map (fun b => argWord b 0))
      let pages := p.1.flatMap (fun b => (b.getD []).map (fun v => (v, 12)))
      let s := s.modCtx r.ctx (fun _ => p.2)
      let f : FrameReq := { ctx := r.ctx, pages := pages, demand := false, svc := some (die, slice, r.seq), perBlock := p.1
                            answer := if pages.isEmpty then some [] else none }
      s.modSlice home.1 home.2 (fun x => { x with frames := x.frames ++ [f] })

/-- Serving a free (R392), after what the window's instance has in hand. -/
def serveFree (s : State) (die slice : Nat) (r : SvcReq) : State :=
  let home := s.allocHome r.ctx
  if (s.sliceAt home.1 home.2).frames.any (fun f => f.svc.isSome) || !s.allocTurn die slice r then s
  else
    let step (acc : State × List (List Byte)) (b : List Byte) : State × List (List Byte) :=
      let y := freeBlock acc.1 r.ctx (argPair b 0)
      (y.1, acc.2 ++ [y.2])
    let y := r.args.foldl step (s, [])
    postReply y.1 die slice r y.2

/-- SERVICE_REQUEST_SERVE: the instance of a slice serves one whole request of its ring and posts its reply (R340, R392). A number of
the host runtime that defines nothing gets status 1. A served non-parking request whose word has waited is tried again. `host` holds what the steps of a host atomic find in host memory. -/
def execServiceRequestServe (die slice seq : Nat) (host : List (BitVec 64)) (s : State) : Res :=
  .next (match (s.sliceAt die slice).reqs.find? (fun r => r.seq == seq && (!r.served || (r.nowait && !r.delivered))) with
    | none => s
    | some r =>
      if (s.ctxAt r.ctx).ended then s.reqDone die slice seq
      else if r.served then s.replyOut die slice r (ofBytes (((r.blocks.drop 1).headD []).take 8))
      else if r.num = 1 then serveAlloc s die slice r
      else if r.num = 2 then serveFree s die slice r
      else if r.num = 3 then
        let y := hostAtomics s r.ctx r.args host
        postReply y.1 die slice r y.2
      else postReply s die slice r (r.args.map (fun _ => replyBytes 0 1)))

/-- HOST_RUNTIME_SERVICE_REPLY: the host driver writes the reply of a number that the host runtime defines (R340): a value and a status
for each lane block. -/
def execHostRuntimeServiceReply (die slice : Nat) (seq : Nat) (reply : List (BitVec 64 × BitVec 32)) (s : State) : Res :=
  .next (match (s.sliceAt die slice).reqs.find? (fun r => r.seq == seq && !r.served) with
    | some r =>
      if r.num < 0x8000 ∨ 0xFFFF < r.num ∨ reply.length ≠ r.args.length then s
      else if (s.ctxAt r.ctx).ended then s.reqDone die slice seq
      else postReply s die slice r (reply.map (fun x => replyBytes x.1.toNat x.2.toNat))
    | none => s)

/-! ## Failure -/

/-- The virtual ranges that a context maps, at the size of a region (R150): one address of each 8 MiB region with a page entry that is mapped,
or to be mapped on demand (R148, R151). -/
def mappedRegions (m : List Host.Cell) (cxl root : Nat) : List Nat :=
  (List.range 256).flatMap (fun i => match dirNext (readEntry m (root + 8 * i)) 3 with
    | none => []
    | some t2 => (List.range 4096).flatMap (fun j =>
      let e2 := readEntry m (t2 + 8 * j)
      let va := i * 2 ^ 41 + j * 2 ^ 29
      if bits e2 1 2 = 1 then (if leafOk cxl e2 29 then (List.range 64).map (fun k => va + k * 2 ^ 23) else [])
      else match dirNext e2 3 with
        | none => []
        | some t1 => (List.range 64).filterMap (fun k =>
          let e1 := readEntry m (t1 + 8 * k)
          match dirNext e1 4 with
          | none => none
          | some t0 =>
            let n := if bits e1 3 1 = 0 then 2048 else 128
            let lg := if bits e1 3 1 = 0 then 12 else 16
            if (List.range n).any (fun x => leafOk cxl (readEntry m (t0 + 8 * x)) lg) then some (va + k * 2 ^ 23) else none)))

/-- Every existing context that a test picks ends, with its own record (R75). -/
def endAll (s : State) (code : Nat) (pick : State → Nat → Bool) : State :=
  ((s.contexts.map Prod.fst).filter (fun c => (s.ctxAt c).enabled && !(s.ctxAt c).ended && pick s c)).foldl
    (fun s c => endContext s c code 0 (recOf 0x10 c)) s

/-- SERVICE_INSTANCE_FAILURE: every context with a request outstanding in the slice's ring, or with a page homed in the slice, ends; a
device error record is written and the instance restarts (R379). -/
def execServiceInstanceFailure (die slice : Nat) (s : State) : Res :=
  .next (
    if s.stage ≠ .s2 then s
    else
      let asks (c : Nat) : Bool := (s.sliceAt die slice).reqs.any (fun r => r.ctx == c && !r.delivered)
      let homed (s : State) (c : Nat) : Bool :=
        (mappedRegions s.mem s.cxlBytes (s.ctxAt c).ptroot.toNat).any (fun va => s.pageHome c va == (die, slice))
      let s := endAll s 0 (fun s c => asks c || homed s c)
      let s := s.modSlice die slice (fun x => { x with frames := x.frames.filter (fun f => !(s.ctxAt f.ctx).ended) })
      s.postDev { recOf 0x10 0 with die := die })

end Sys2Proof.Machine
end

