-- ==== Sys2Proof/Machine/HostLink.lean ====
section
/-!
DEFINITION. The host link (R369 to R374): BARs, registers, context descriptors, queues, doorbells; peers (R376); start-up, firmware,
recovery (R380, R381); power and heat (R382); partitions (R378); failures and counts (R194, R377).
-/

namespace Sys2Proof.Machine

/-! ## Management registers (R371) -/

/-- The value of BOOTSTAT.STAGE (R371, R380). -/
def stageCode : Stage → Nat
  | .off | .s0 => 0
  | .s1 => 1
  | .s2 => 2
  | .failed => 0xF

/-- The halts of a die (R371): bit n for core n's copy engine, bit 63 for the cupola. -/
def State.chaltWord (s : State) (d : Nat) : Nat :=
  ((List.range 63).filter (fun c => (s.coreAt d c).halted)).foldl (fun a c => a + 2 ^ c) 0 + b2n (s.dieAt d).cupolaHalt * 2 ^ 63

/-- An 8-byte word of a context descriptor (R373). -/
def Context.word (x : Context) (o : Nat) : Nat :=
  match o / 8 with
  | 0 => x.ptroot.toNat
  | 1 => x.permbase.toNat
  | 2 => x.permcnt
  | 3 => x.logbase.toNat
  | 4 => x.logsize + x.loghead.toNat * 2 ^ 32
  | 5 => x.logtail.toNat
  | 6 => x.eqbase.toNat
  | 7 => x.eqlog2
  | 8 => x.moves.toNat + x.pins.toNat * 2 ^ 32
  | 9 => x.endCode.toNat + b2n x.ended * 2 ^ 63
  | 10 => x.endAddr.toNat
  | 11 => x.irqaddr.toNat
  | 12 => x.irqdata.toNat
  | 13 => x.routebase.toNat
  | 14 => x.routecnt
  | 15 => b2n x.enabled + x.homeDie * 2 ^ 4 + x.part * 2 ^ 8
  | 16 => x.trapent.toNat
  | 17 => x.allocbase.toNat
  | 18 => x.alloclen.toNat
  | _ => 0

/-- QCTL as it reads (R121). -/
def Queue.ctl (x : Queue) : Nat :=
  b2n x.en * 2 ^ 63 + b2n x.err * 2 ^ 62 + x.prio.toNat * 2 ^ 56 + x.log2.toNat * 2 ^ 52 + x.ctx.toNat * 2 ^ 36

/-- A launch queue, and a doorbell page, at reset (R121, R374). -/
def queue0 : Queue := ⟨0, false, false, 0, 0, 0, 0, 0⟩
def bell0 : Doorbell := ⟨none, 0, 0, 0xFF⟩

/-- An 8-byte word of BAR 0 as a read returns it (R371, R373, R393); unlisted offsets read as 0 (R370). -/
def State.bar0Read8 (s : State) (off : Nat) : Nat :=
  if off = 0x00 then stageCode s.stage + (if s.stage = .failed then s.cause.toNat * 2 ^ 8 else 0)
  else if off = 0x08 then b2n s.aopen
  else if off = 0x10 then s.invbase.toNat
  else if off = 0x18 then s.invlen.toNat
  else if off = 0x20 then s.invgo.toNat + s.invctx.toNat * 2 ^ 48
  else if off = 0x28 then s.invdone.toNat + b2n s.inverr * 2 ^ 32
  else if 0x40 ≤ off ∧ off < 0x60 then s.chaltWord ((off - 0x40) / 8)
  else if off = 0x80 then s.plimit.toNat
  else if off = 0x100 then s.devErrHead.toNat + s.devErrTail.toNat * 2 ^ 32
  else if off = 0x108 then s.devErrLost.toNat
  else if 0x200 ≤ off ∧ off < 0x600 then
    let x := s.sliceAt ((off - 0x200) / 256) ((off - 0x200) / 16 % 16)
    if off % 16 = 0 then x.rpost.toNat else x.rfree.toNat
  else if 0x1000 ≤ off ∧ off < 0x11000 then ofBytes (((tget [] s.devErrs ((off - 0x1000) / 64)).drop (off % 64)).take 8)
  else if 0x100000 ≤ off ∧ off < 0x200000 then (s.ctxAt ((off - 0x100000) / 256)).word (off % 256)
  else if 0x4000000 ≤ off ∧ off < 0x8000000 then readNat s.staged (off - 0x4000000) 8
  else 0

/-- An 8-byte word of BAR 2 as a read returns it (R372, R374). -/
def State.bar2Read8 (s : State) (off : Nat) : Nat :=
  if off < 0x800000 then
    let x := tget queue0 s.queues (off / 4096)
    match off % 4096 with
    | 0x00 => x.base.toNat
    | 0x08 => x.ctl
    | 0x10 => x.head.toNat
    | 0x18 => x.tail.toNat
    | _ => 0
  else if off < 0xC00000 then
    let x := tget bell0 s.doorbells ((off - 0x800000) / 4096)
    match off % 4096 with
    | 0x00 => x.pay.toNat
    | 0x08 => x.target.toNat
    | 0x10 => x.status.toNat
    | _ => 0
  else 0

/-- An 8-byte word of a BAR as a host read returns it (R370). -/
def State.hostRead8 (s : State) (bar off : Nat) : Nat :=
  match bar with
  | 0 => s.bar0Read8 off
  | 2 => s.bar2Read8 off
  | 4 => if off < 4096 * 524288 then s.dbgRead8 (off / 524288) (off % 524288) else 0
  | _ => 0

/-! ## Contexts -/

/-- A context is enabled as its descriptor stands (R373): it exists, has not ended, and its receiver and allocation state and its counts of
moves and pins start afresh (R178). Its home die is the lowest of its partition, the model's choice (R142, log entry 109). -/
def enableCtx (s : State) (c part : Nat) : State :=
  { s with broken := s.broken.filter (fun b => b.1 != c) : State }.modCtx c (fun x => { x with
    exists_ := true, enabled := true, part := part, homeDie := (s.partDies part).headD 0
    ended := false, endCode := 0, endAddr := 0
    uimask := 0, uipend := 0, uivec := 0, uipay := 0, uientry := 0, uilaunch := none, uivpay := [], uicount := [], uiwake := []
    moves := 0, pins := 0, history := [], pinned := [], used := [], allocs := [], wakeKept := false, replayed := [] })

/-- EN is cleared (R373): a context that has not ended ends; then it exists no more. -/
def disableCtx (s : State) (c : Nat) : State :=
  (endContext s c 0 0 (recOf 0x10 c)).modCtx c (fun x => { x with exists_ := false, enabled := false })

/-- A write of CTL (R373): reserved bits are 0; while EN is 1 only EN may change. -/
def writeCtl (s : State) (c new : Nat) : State :=
  let x := s.ctxAt c
  let en := bits new 0 1 == 1
  if bits new 1 3 ≠ 0 ∨ 2 ^ 12 ≤ new ∨ bits new 6 2 ≠ 0 then s
  else if x.enabled then (if !en && bits new 8 4 == x.part then disableCtx s c else s)
  else if en then enableCtx s c (bits new 8 4)
  else s.modCtx c (fun x => { x with part := bits new 8 4 })

/-- Allocation windows do not cross an 8 MiB boundary (R392). -/
def windowOk (base len : Nat) : Bool := decide (len = 0) || decide (base / 2 ^ 23 = (base + len - 1) / 2 ^ 23)

/-- A write of a descriptor word while EN is 0 (R373); a value that a field cannot take discards it (R370). -/
def writeField (s : State) (c o new : Nat) : State :=
  let v := BitVec.ofNat 64 new
  let w := BitVec.ofNat 32 new
  let x := s.ctxAt c
  let put (ok : Bool) (f : Context → Context) : State := if ok then s.modCtx c f else s
  match o / 8 with
  | 0 => put (decide (new % 4096 = 0)) (fun x => { x with ptroot := v })
  | 1 => put true (fun x => { x with permbase := v })
  | 2 => put (decide (new ≤ 256)) (fun x => { x with permcnt := new })
  | 3 => put true (fun x => { x with logbase := v })
  | 4 =>
    let n := bits new 0 32
    put ((List.range 17).any (fun i => n == 2 ^ (8 + i))) (fun x => { x with logsize := n, loghead := BitVec.ofNat 32 (bits new 32 32) })
  | 6 => put (decide (new % 64 = 0)) (fun x => { x with eqbase := v })
  | 7 => put (decide (6 ≤ new ∧ new ≤ 16)) (fun x => { x with eqlog2 := new })
  | 11 => put (decide (new % 4 = 0)) (fun x => { x with irqaddr := v })
  | 12 => put (decide (new < 2 ^ 32)) (fun x => { x with irqdata := w })
  | 13 => put true (fun x => { x with routebase := v })
  | 14 => put (decide (new ≤ 256)) (fun x => { x with routecnt := new })
  | 15 => writeCtl s c new
  | 16 => put (decide (new < 2 ^ 47)) (fun x => { x with trapent := v })
  | 17 => put (decide (new % 4096 = 0 ∧ bits new 49 15 = 0) && windowOk new x.alloclen.toNat) (fun x => { x with allocbase := v })
  | 18 => put (decide (new % 4096 = 0) && windowOk x.allocbase.toNat new) (fun x => { x with alloclen := v })
  | _ => s

/-- A write into a descriptor: LOGHEAD at any time; while EN is 1 nothing else but the end (R373). -/
def writeDescriptor (s : State) (c o size v : Nat) : State :=
  let x := s.ctxAt c
  if o = 36 ∧ size = 4 then s.modCtx c (fun x => { x with loghead := BitVec.ofNat 32 v })
  else
    let new := mergeWord (x.word (o / 8 * 8)) o size v
    if x.enabled then (if o / 8 = 15 then writeCtl s c new else s) else writeField s c (o / 8 * 8) new

/-! ## Recovery and failure of the module -/

/-- Every context ends, with one record in the device's queue (R380, R382). -/
def endEvery (s : State) : State := (endAll s 0 (fun _ _ => true)).postDev (recOf 0x10 0)

/-- The image length is written (R380): every context ends, and stages 1 and 2 run again from the staged image. -/
def recoverFrom (s : State) (len : Nat) : State := { endEvery s with stage := .s0, cause := 0, recover := some len }

/-! ## Writes of BAR 0 and BAR 2 -/

/-- Halts that a write of ones clears (R371, R135, R327). -/
def clearHalts (s : State) (d v : Nat) : State :=
  let s := ((List.range 63).filter (fun c => v.testBit c && (s.coreAt d c).halted)).foldl (fun s c => s.modCore d c (fun x => { x with halted := false })) s
  if v.testBit 63 then s.modDie d (fun x => { x with cupolaHalt := false }) else s

/-- A write of INVCTX and INVGO (R371): an INVGO while an invalidation runs sets INVERR and is ignored. -/
def writeInv (s : State) (off size new : Nat) : State :=
  if bits new 32 16 ≠ 0 then s
  else
    let go := size = 8 ∨ off = 0x20
    if go then
      if s.invJob.isSome then { s with inverr := true }
      else { s with invctx := BitVec.ofNat 16 (bits new 48 16), invgo := BitVec.ofNat 32 new
                    invJob := some (bits new 48 16, s.invbase.toNat, s.invlen.toNat) }
    else { s with invctx := BitVec.ofNat 16 (bits new 48 16) }

/-- An aligned write of 4 or 8 bytes to BAR 0 (R371). -/
def bar0Write (s : State) (off size v : Nat) : State :=
  let base := off / 8 * 8
  let new := mergeWord (s.bar0Read8 base) off size v
  let ones := mergeWord 0 off size v
  if base = 0x08 then (if new < 2 then { s with aopen := new == 1 } else s)
  else if base = 0x10 then (if new % 4096 = 0 then { s with invbase := BitVec.ofNat 64 new } else s)
  else if base = 0x18 then (if new % 4096 = 0 then { s with invlen := BitVec.ofNat 64 new } else s)
  else if base = 0x20 then writeInv s off size new
  else if base = 0x28 then (if 2 ^ 33 ≤ ones then s else if bits ones 32 1 = 1 then { s with inverr := false } else s)
  else if off = 0x30 then recoverFrom s v
  else if 0x40 ≤ base ∧ base < 0x60 then clearHalts s ((base - 0x40) / 8) ones
  else if base = 0x80 then (if 1800 ≤ new ∧ new ≤ 2800 then { s with plimit := BitVec.ofNat 64 new } else s)
  else if off = 0x100 then { s with devErrHead := BitVec.ofNat 32 v }
  else if 0x100000 ≤ off ∧ off < 0x200000 then writeDescriptor s ((off - 0x100000) / 256) (off % 256) size v
  else if 0x4000000 ≤ off ∧ off < 0x8000000 then { s with staged := writeBytes s.staged (off - 0x4000000) (toBytes size v) }
  else s

/-- A write of QCTL (R121): its refusals leave the register unchanged. -/
def writeQctl (s : State) (q v : Nat) : State :=
  let x := tget queue0 s.queues q
  let en := bits v 63 1 == 1
  let err := x.err && bits v 62 1 == 0
  let log2 := bits v 52 4
  let ctx := bits v 36 16
  if bits v 58 4 ≠ 0 ∨ bits v 0 36 ≠ 0 ∨ 12 < log2 then s
  else if x.en && (log2 != x.log2.toNat || ctx != x.ctx.toNat) then s
  else if en && err then s
  else
    let y : Queue := { x with en := en, err := err, prio := BitVec.ofNat 2 (bits v 56 2), log2 := BitVec.ofNat 4 log2, ctx := BitVec.ofNat 16 ctx }
    { s with queues := tset queue0 s.queues q y }

/-- The doorbell of a queue (R123, R372): a tail beyond the capacity is a queue error. -/
def writeQtail (s : State) (q v : Nat) : State :=
  let x := tget queue0 s.queues q
  let s : State := { s with queues := tset queue0 s.queues q { x with tail := BitVec.ofNat 32 v } }
  if 2 ^ (x.log2.toNat + 4) < (BitVec.ofNat 32 v - x.head).toNat then queueError s q else s

/-- A write of a queue page (R372): QBASE and QCTL 8 bytes, QTAIL 4. -/
def writeQueue (s : State) (q o size v : Nat) : State :=
  let x := tget queue0 s.queues q
  if o = 0x00 ∧ size = 8 then
    if x.en || decide (v % 64 ≠ 0) then s else { s with queues := tset queue0 s.queues q { x with base := BitVec.ofNat 64 v } }
  else if o = 0x08 ∧ size = 8 then writeQctl s q v
  else if o = 0x18 ∧ size = 4 then writeQtail s q v
  else s

/-- A send from a doorbell page (R374): under the release of R364, with the page's token as its identity. -/
def bellSend (s : State) (page v : Nat) : State :=
  let x := tget bell0 s.doorbells page
  let ctx := bits v 0 16
  let vec := bits v 16 6
  let r := s.accept ctx vec x.pay (s.permits ctx 1 vec (x.token.map BitVec.toNat))
  { r.2 with doorbells := tset bell0 r.2.doorbells page { x with target := BitVec.ofNat 32 v, status := BitVec.ofNat 32 r.1 } }

/-- A write of a doorbell page (R374). -/
def writeBell (s : State) (page o size v : Nat) : State :=
  let x := tget bell0 s.doorbells page
  if o / 8 * 8 = 0x00 then
    { s with doorbells := tset bell0 s.doorbells page { x with pay := BitVec.ofNat 64 (mergeWord x.pay.toNat o size v) } }
  else if o = 0x08 ∧ size = 4 ∧ v < 2 ^ 22 then bellSend s page v
  else s

/-- A host write arriving over the link (R370): aligned, of 4 or 8 bytes, applied whole or discarded whole. No write arrives before
the function can be configured (R380); until stage 2 those outside BAR 0 are discarded. -/
def hostWrite (s : State) (bar off size : Nat) (v : BitVec 64) : State :=
  let v := v.toNat % 2 ^ (8 * size)
  if !s.cfgReady || decide ((size ≠ 4 ∧ size ≠ 8) ∨ off % size ≠ 0) then s
  else if bar = 0 then bar0Write s off size v
  else if s.stage ≠ .s2 then s
  else if bar = 2 then
    if off < 0x800000 then writeQueue s (off / 4096) (off % 4096) size v
    else if off < 0xC00000 then writeBell s ((off - 0x800000) / 4096) (off % 4096) size v
    else s
  else if bar = 4 then (if off < 4096 * 524288 then dbgWrite s (off / 524288) (off % 524288) size v else s)
  else s

/-! ## Host writes by their names -/

/-- REGISTER_WRITE: any host write (R370). -/
def execRegisterWrite (bar off size : Nat) (v : BitVec 64) (s : State) : Res := .next (hostWrite s bar off size v)

/-- LAUNCH_QUEUE_DOORBELL (R372). -/
def execLaunchQueueDoorbell (q : Nat) (v : BitVec 32) (s : State) : Res :=
  .next (if q < 2048 then hostWrite s 2 (4096 * q + 0x18) 4 (v.setWidth 64) else s)

/-- QCTL_WRITE (R121). -/
def execQctlWrite (q : Nat) (v : BitVec 64) (s : State) : Res := .next (if q < 2048 then hostWrite s 2 (4096 * q + 0x08) 8 v else s)

/-- INVGO (R371). -/
def execInvgo (v : BitVec 64) (s : State) : Res := .next (hostWrite s 0 0x20 8 v)

/-- CHALT (R371). -/
def execChalt (die : Nat) (v : BitVec 64) (s : State) : Res := .next (if die < 4 then hostWrite s 0 (0x40 + 8 * die) 8 v else s)

/-- CTL of a context with EN as given and its other bits as they stand. -/
def ctlWith (s : State) (ctx en : Nat) : BitVec 64 := BitVec.ofNat 64 ((s.ctxAt ctx).word 120 / 2 * 2 + en)

/-- CONTEXT_ENABLE (R373). -/
def execContextEnable (ctx : Nat) (s : State) : Res :=
  .next (if ctx < 4096 then hostWrite s 0 (0x100000 + 256 * ctx + 120) 8 (ctlWith s ctx 1) else s)

/-- CONTEXT_END_REQUEST (R373). -/
def execContextEndRequest (ctx : Nat) (s : State) : Res :=
  .next (if ctx < 4096 then hostWrite s 0 (0x100000 + 256 * ctx + 120) 8 (ctlWith s ctx 0) else s)

/-- LOGHEAD (R139). -/
def execLoghead (ctx : Nat) (v : BitVec 32) (s : State) : Res :=
  .next (if ctx < 4096 then hostWrite s 0 (0x100000 + 256 * ctx + 36) 4 (v.setWidth 64) else s)

/-- DOORBELL_SEND (R374). -/
def execDoorbellSend (page : Nat) (v : BitVec 32) (s : State) : Res :=
  .next (if page < 1024 then hostWrite s 2 (0x800000 + 4096 * page + 8) 4 (v.setWidth 64) else s)

/-- FIRMWARE_RECOVERY (R380). -/
def execFirmwareRecovery (len : BitVec 64) (s : State) : Res := .next (hostWrite s 0 0x30 8 len)

/-! ## Translation, AtomicOps, peers -/

/-- INVALIDATION_COMPLETE: the invalidation that runs is over, and INVDONE takes its tag (R153, R371). -/
def execInvalidationComplete (s : State) : Res :=
  .next (match s.invJob with
    | some (ctx, base, len) => { s.dropTlb ctx base len with invJob := none, invdone := s.invgo }
    | none => s)

/-- ATS_INVALIDATION_REQUEST: the host withdraws its translation of a host page, once no access that used it is under way (R369). The
device asks for the page again before its next access. -/
def execAtsInvalidationRequest (page : Nat) (s : State) : Res :=
  .next (if page / 2 ^ 36 ≠ 8 ∨ s.quiet (4096 * page) 4096 = false ∨ s.ats.contains page then s
    else { s.dropRange (4096 * page) 4096 with ats := s.ats ++ [page] })

/-- PAGE_REQUEST_RESPONSE: a success lets the page home retry, a failure makes the page one that it cannot map (R369). -/
def execPageRequestResponse (ctx : Nat) (va : BitVec 64) (ok : Bool) (s : State) : Res :=
  .next (match s.pageBase ctx va.toNat with
    | none => s
    | some (l, base) =>
      if s.homes.any (fun h => h.ctx == ctx && h.va == BitVec.ofNat 64 base && !h.toHost && !h.failed) = false ∨ leafOWN l.e ≠ 2 then s
      else if ok then
        let lo := leafPA l.e / 4096
        { s with
          ats := s.ats.filter (fun p => !decide (lo ≤ p ∧ p < lo + 2 ^ (l.lg - 12)))
          homes := s.homes.filter (fun h => !(h.ctx == ctx && h.va == BitVec.ofNat 64 base && !h.failed && !h.toHost)) }
      else s.homeFails ctx base l.lg)

/-- INBOUND_ATOMICOP: the device is no completer; the requester receives Unsupported Request, and nothing changes here (R369). -/
def execInboundAtomicop (s : State) : Res := .next s

/-- PEER_SEND_RECEIVE: a peer's send is checked under KIND 2, and its status returned over the link (R376). -/
def execPeerSendReceive (peer : BitVec 16) (ctx vec : Nat) (pay : BitVec 64) (s : State) : Res :=
  .next (if s.stage = .s2 ∧ ctx < 4096 ∧ vec < 64 then
      let r := s.accept ctx vec pay (s.permits ctx 2 vec (some peer.toNat))
      { r.2 with peerReplies := r.2.peerReplies ++ [(peer.toNat, r.1)] }
    else s)

/-! ## Start-up and firmware -/

/-- POWER_GOOD: stage 0 starts, and CYCLE counts from 0 (R380). -/
def execPowerGood (s : State) : Res := .next (if s.stage = .off then { s with stage := .s0, cycle := 0 } else s)

/-- STAGE0_COMPLETE: configuration requests are answered (R380). -/
def execStage0Complete (s : State) : Res := .next (if s.stage = .s0 then { s with cfgReady := true } else s)

/-- Why an image is refused, or its version (R381). -/
def checkImage (fused : Nat) (header body : List Byte) : Except Nat Nat :=
  let v := ofBytes header
  let len := bits v 64 64
  let key := (header.drop 32).take 32
  let sig := (header.drop 64).take 64
  let digest := Config.sha512 (header.take 32 ++ body.take len)
  if header.length ≠ 128 ∨ body.length < len ∨ bits v 32 32 ≠ 0 ∨ bits v 128 128 ≠ 0 ∨ Config.sha512 key ≠ Config.fusedKeyDigest
      ∨ Config.ed25519Verify key digest sig = false then .error 1
  else if bits v 0 32 < fused then .error 2
  else .ok (bits v 0 32)

/-- The module fails (R380). -/
def bootFail (s : State) (cause : Nat) : State := { s with stage := .failed, cause := BitVec.ofNat 8 cause, recover := none }

/-- STAGE1_COMPLETE: the firmware is verified and the memory trained (R380, R381). The image is that of the module's flash, as given, or
the staged one in a recovery. -/
def execStage1Complete (header body : List (BitVec 8)) (trained : Bool) (s : State) : Res :=
  .next (
    if s.stage ≠ .s0 ∨ s.cfgReady = false then s
    else
      let img := match s.recover with
        | some len => readBytes s.staged 0 (Nat.min len 0x4000000)
        | none => header ++ body
      match checkImage s.fusedMin.toNat (img.take 128) (img.drop 128) with
      | .error c => bootFail s c
      | .ok v =>
        let s : State := { s with fusedMin := BitVec.ofNat 32 v }
        if trained then { s with stage := .s1, recover := none } else bootFail s 3)

/-- STAGE2_COMPLETE: every unit is up (R380): expansion memory of so many bytes on its ports, links to these peers, and the service rings
empty (R393). -/
def execStage2Complete (cxl : Nat) (ports peers : List Nat) (s : State) : Res :=
  .next (
    if s.stage ≠ .s1 ∨ 2 ^ 43 < cxl then s
    else
      let fresh (x : Nat × Slice) : Nat × Slice := (x.1, { slice0 with lines := x.2.lines })
      { s with
        stage := .s2, cxlBytes := cxl, cxlPorts := (List.range 8).filter (fun p => ports.contains p), peers := peers
        slices := (s.slices.map fresh).filter (fun x => x.2 ≠ slice0) })

/-! ## Power and heat -/

/-- CLOCK_STEP: the clock changes by 50 MHz within its range, at most once in a millisecond (R382). -/
def execClockStep (up : Bool) (s : State) : Res :=
  let new := if up then s.clockMHz + 50 else s.clockMHz - 50
  let due := match s.clockAt with
    | some t => decide (1000000 ≤ (s.wall - t).toNat)
    | none => true
  .next (if s.stage ≠ .off ∧ due = true ∧ 500 ≤ new ∧ new ≤ 1700 then { s with clockMHz := new, clockAt := some s.wall } else s)

/-- HOT_SPOT_105: the lowest clock (R382). -/
def execHotSpot105 (s : State) : Res := .next (if s.stage = .off then s else { s with clockMHz := 500, clockAt := some s.wall })

/-- HOT_SPOT_115: every context ends, and the module returns to stage 0 (R382). -/
def execHotSpot115 (s : State) : Res := .next (if s.stage = .off then s else bootFail (endEvery s) 4)

/-! ## Partitions, doorbell pages, die scratchpad -/

/-- PARTITION_CHANGE: a partition takes whole cells that no other has, while no context exists on its cells (R378). -/
def execPartitionChange (part : Nat) (cells : List Nat) (s : State) : Res :=
  .next (
    let others := (s.parts.filter (fun x => x.1 != part)).flatMap Prod.snd
    let busy := s.contexts.any (fun x => x.2.exists_ && x.2.part == part)
    let perDie := (List.range 4).all (fun d => decide (((others ++ cells).filter (fun c => c / 16 == d)).length ≤ 15))
    if s.stage ≠ .s2 ∨ 16 ≤ part ∨ busy = true ∨ ¬ cells.Nodup ∨ cells.any (fun c => decide (64 ≤ c) || others.contains c) = true ∨ perDie = false then s
    else { s with parts := tset [] s.parts part cells, turn := tsets 0 s.turn ((List.range 5).map (fun i => (5 * part + i, 0))) })

/-- DOORBELL_PAGE_BIND (R374). -/
def execDoorbellPageBind (page : Nat) (token : Option (BitVec 48)) (s : State) : Res :=
  .next (if page < 1024 then
      let x := tget bell0 s.doorbells page
      { s with doorbells := tset bell0 s.doorbells page { x with token := token } }
    else s)

/-- DIE_SCRATCHPAD_BLOCK_GIVE: a block of 64 KiB goes to a context, every byte 0 (R94). The last block stays the cupola's (R326). -/
def execDieScratchpadBlockGive (die block ctx : Nat) (s : State) : Res :=
  .next (
    if 4 ≤ die ∨ 511 ≤ block ∨ (s.ctxAt ctx).exists_ = false then s
    else s.modDie die (fun d => { d with
      owners := tset none d.owners block (some ctx)
      scratch := d.scratch.filter (fun c => !decide (65536 * block ≤ c.1 ∧ c.1 < 65536 * (block + 1))) }))

/-! ## Failures and counts -/

/-- The pages that a context maps: entry and log2 of the page size (R145 to R148). -/
def mappedLeaves (m : List Host.Cell) (cxl root : Nat) : List (Nat × Nat) :=
  let leaf (pa lg : Nat) : List (Nat × Nat) :=
    let e := readEntry m pa
    if leafV e && leafOk cxl e lg then [(e, lg)] else []
  (List.range 256).flatMap (fun i => match dirNext (readEntry m (root + 8 * i)) 3 with
    | none => []
    | some t2 => (List.range 4096).flatMap (fun j =>
      let e2 := readEntry m (t2 + 8 * j)
      if bits e2 1 2 = 1 then leaf (t2 + 8 * j) 29
      else match dirNext e2 3 with
        | none => []
        | some t1 => (List.range 64).flatMap (fun k =>
          let e1 := readEntry m (t1 + 8 * k)
          match dirNext e1 4 with
          | none => []
          | some t0 => if bits e1 3 1 = 0 then (List.range 2048).flatMap (fun x => leaf (t0 + 8 * x) 12)
            else (List.range 128).flatMap (fun x => leaf (t0 + 8 * x) 16))))

/-- A page of expansion memory has a granule on a port (R377). -/
def onPort (ports : List Nat) (port e lg : Nat) : Bool :=
  let pa := leafPA e
  decide (pa / 2 ^ 48 = 4) && decide (leafOWN e = 0)
    && (List.range (Nat.min (2 ^ (lg - 12)) ports.length)).any (fun i => ports[(bits pa 0 48 / 4096 + i) % ports.length]? == some port)

/-- CXL_PORT_FAILURE: a port fails after stage 2 and ends every context with a page mapped on it (R377). -/
def execCxlPortFailure (port : Nat) (s : State) : Res :=
  .next (
    if s.stage ≠ .s2 then s
    else endAll s 0 (fun s c => (mappedLeaves s.mem s.cxlBytes (s.ctxAt c).ptroot.toNat).any (fun x => onPort s.cxlPorts port x.1 x.2)))

/-- The arrays whose corrected errors are counted (R194). -/
inductive EccArray where
  | registers (die core : Nat)
  | scratchpad (die core : Nat)
  | cache (die slice : Nat)
  | dieScratchpad (die : Nat)
  | bondedDram (die : Nat)
  deriving DecidableEq, Repr

/-- The numbers of the arrays, the model's own (log entry 106): register banks by 64 × die + core, scratchpad banks from 256 on, slices' caches
by 16 × die + slice from 512 on, die scratchpads from 576 on, bonded DRAM from 580 on. -/
def eccArray (n : Nat) : Option EccArray :=
  if n < 256 then some (.registers (n / 64) (n % 64))
  else if n < 512 then some (.scratchpad ((n - 256) / 64) (n % 64))
  else if n < 576 then some (.cache ((n - 512) / 16) (n % 16))
  else if n < 580 then some (.dieScratchpad (n - 576))
  else if n < 584 then some (.bondedDram (n - 580))
  else none

/-- ECC_CORRECTED: a corrected error changes no data and is counted for its array, saturating (R94, R194). -/
def execEccCorrected (array : Nat) (s : State) : Res :=
  let n := tget 0 s.eccCounts array
  .next (match eccArray array with
    | some _ => { s with eccCounts := tset 0 s.eccCounts array (if n = 0xFFFFFFFF then n else n + 1) }
    | none => s)

/-- ECC_IMAGE_ERROR: an uncorrected error in state that no instruction reads ends the context with ECC (R78). -/
def execEccImageError (ctx : Nat) (s : State) : Res :=
  .next (if (s.ctxAt ctx).enabled then endContext s ctx cECC 0 (recOf 0x10 ctx) else s)

end Sys2Proof.Machine
end

