-- ==== Sys2Proof/Machine/Integer.lean ====
section
/-!
DEFINITION. Integer arithmetic, logic, shifts, moves, lane exchange and votes (R223 to R238), SETMODE and GETMODE (R239, R240).
-/

namespace Sys2Proof.Machine

/-- TYPE and pairs of an integer form (R223). -/
def intDyn (d : Sel) (srcs : List Sel) (g : Word) : Bool :=
  tyInt (gType g) && pairDst (tyInt64 (gType g)) d && srcs.all (pairSrc (tyInt64 (gType g)))

/-- An integer form that writes fin(t) (R223, R224). -/
def intForm (i : Instr) (n : Bool) (d : Sel) (srcs : List Sel) (t : Thread → Nat → Int) (s : State) : Res :=
  laneForm i s (intDyn d srcs) n d (fun g => tyInt64 (gType g)) (fun g => srcs.map (wsel (tyInt64 (gType g))))
    (fun th l => th.ifin (t th l))

/-- iadd (R224). -/
def execIadd (n : Bool) (d a b : Sel) (s : State) : Res :=
  intForm (.iadd n d a b) n d [a, b] (fun th l => th.iopnd l a + th.iopnd l b) s
/-- isub (R224). -/
def execIsub (n : Bool) (d a b : Sel) (s : State) : Res :=
  intForm (.isub n d a b) n d [a, b] (fun th l => th.iopnd l a - th.iopnd l b) s
/-- imul (R224). -/
def execImul (n : Bool) (d a b : Sel) (s : State) : Res :=
  intForm (.imul n d a b) n d [a, b] (fun th l => th.iopnd l a * th.iopnd l b) s
/-- imulh (R224). -/
def execImulh (n : Bool) (d a b : Sel) (s : State) : Res :=
  intForm (.imulh n d a b) n d [a, b] (fun th l => (th.iopnd l a * th.iopnd l b) / (2 ^ tyBits (gType th.gmode) : Nat)) s
/-- imad: d is read before the write (R224). -/
def execImad (n : Bool) (d a b : Sel) (s : State) : Res :=
  intForm (.imad n d a b) n d [a, b, d] (fun th l => th.iopnd l d + th.iopnd l a * th.iopnd l b) s
/-- imin (R224). -/
def execImin (n : Bool) (d a b : Sel) (s : State) : Res :=
  intForm (.imin n d a b) n d [a, b] (fun th l => min (th.iopnd l a) (th.iopnd l b)) s
/-- imax (R224). -/
def execImax (n : Bool) (d a b : Sel) (s : State) : Res :=
  intForm (.imax n d a b) n d [a, b] (fun th l => max (th.iopnd l a) (th.iopnd l b)) s
/-- iabs (R224). -/
def execIabs (n : Bool) (d a : Sel) (s : State) : Res :=
  intForm (.iabs n d a) n d [a] (fun th l => ((th.iopnd l a).natAbs : Int)) s
/-- addi: D is read, then written (R224). -/
def execAddi (n : Bool) (d : Sel) (imm : BitVec 16) (s : State) : Res :=
  intForm (.addi n d imm) n d [d] (fun th l => th.iopnd l d + imm.toInt) s

/-- A condition of R208 on two integers. -/
def intCond (c : BitVec 3) (a b : Int) : Bool :=
  match c.toNat with
  | 0 => decide (a = b)
  | 1 => decide (a ≠ b)
  | 2 => decide (a < b)
  | 3 => decide (a ≤ b)
  | 4 => decide (b < a)
  | 5 => decide (b ≤ a)
  | _ => false

/-- icmp (R225). -/
def execIcmp (c p : BitVec 3) (a b : Sel) (s : State) : Res :=
  predForm (.icmp c p a b) s
    (fun g => tyInt (gType g) && pairSrc (tyInt64 (gType g)) a && pairSrc (tyInt64 (gType g)) b) p.toNat
    (fun g => [wsel (tyInt64 (gType g)) a, wsel (tyInt64 (gType g)) b])
    (fun th l => (intCond c (th.iopnd l a) (th.iopnd l b), 0))

/-- lea (R226). -/
def execLea (n : Bool) (d a b : Sel) (s : State) : Res :=
  laneForm (.lea n d a b) s (fun g => tyInt (gType g)) n d (fun _ => true) (fun _ => [(a, 2), (b, 1)])
    (fun th l =>
      let t := gType th.gmode
      let off : Int := if tySigned t then (th.src32 l b).toInt else (th.src32 l b).toNat
      (ofInt64 ((th.src64 l a).toNat + off * (tyBits t / 8 : Nat)), 0))

/-- A form of R227 to R231 that writes 32 bits and ignores TYPE. -/
def moveForm (i : Instr) (n : Bool) (d : Sel) (srcs : List Sel) (f : Thread → Nat → Word) (s : State) : Res :=
  laneForm i s (fun _ => true) n d (fun _ => false) (fun _ => srcs.map (fun x => (x, 1))) (fun th l => ((f th l).setWidth 64, 0))

/-- movi (R227). -/
def execMovi (n : Bool) (d : Sel) (imm : BitVec 16) (s : State) : Res :=
  moveForm (.movi n d imm) n d [] (fun _ _ => imm.signExtend 32) s
/-- movhi (R227). -/
def execMovhi (n : Bool) (d : Sel) (imm : BitVec 16) (s : State) : Res :=
  moveForm (.movhi n d imm) n d [d] (fun th l => imm ++ (th.src32 l d).extractLsb' 0 16) s
/-- and (R228). -/
def execAnd (n : Bool) (d a b : Sel) (s : State) : Res :=
  moveForm (.and n d a b) n d [a, b] (fun th l => th.src32 l a &&& th.src32 l b) s
/-- or (R228). -/
def execOr (n : Bool) (d a b : Sel) (s : State) : Res :=
  moveForm (.or n d a b) n d [a, b] (fun th l => th.src32 l a ||| th.src32 l b) s
/-- xor (R228). -/
def execXor (n : Bool) (d a b : Sel) (s : State) : Res :=
  moveForm (.xor n d a b) n d [a, b] (fun th l => th.src32 l a ^^^ th.src32 l b) s
/-- not (R228). -/
def execNot (n : Bool) (d a : Sel) (s : State) : Res :=
  moveForm (.not n d a) n d [a] (fun th l => ~~~ (th.src32 l a)) s

/-- TYPE and pairs of a shift, whose count is 32 bits under every TYPE (R229). -/
def shiftForm (i : Instr) (n : Bool) (d a b : Sel) (t : Int → Nat → Int) (s : State) : Res :=
  laneForm i s (intDyn d [a]) n d (fun g => tyInt64 (gType g)) (fun g => [wsel (tyInt64 (gType g)) a, (b, 1)])
    -- a count of 64 or more acts as 64 does: the result is 0, or beyond every range
    (fun th l => th.ifin (t (th.iopnd l a) (min (th.src32 l b).toNat 64)))

/-- shl (R229). -/
def execShl (n : Bool) (d a b : Sel) (s : State) : Res := shiftForm (.shl n d a b) n d a b (fun x c => x * (2 ^ c : Nat)) s
/-- shr (R229). -/
def execShr (n : Bool) (d a b : Sel) (s : State) : Res := shiftForm (.shr n d a b) n d a b (fun x c => x / (2 ^ c : Nat)) s

/-- The number of 1 bits among the low `n`. -/
def popCount (v n : Nat) : Nat := (List.range n).foldl (fun a i => a + bits v i 1) 0
/-- The number of 0 bits above the highest 1 of an n-bit pattern (R230). -/
def leadZeros (v n : Nat) : Nat := if v % 2 ^ n = 0 then n else n - 1 - Nat.log2 (v % 2 ^ n)

/-- A count over the n-bit pattern of A, written as 32 bits (R230). -/
def countForm (i : Instr) (n : Bool) (d a : Sel) (f : Nat → Nat → Nat) (s : State) : Res :=
  laneForm i s (fun g => tyInt (gType g) && pairSrc (tyInt64 (gType g)) a) n d (fun _ => false)
    (fun g => [wsel (tyInt64 (gType g)) a])
    (fun th l => (BitVec.ofNat 64 (f (th.src (tyInt64 (gType th.gmode)) l a) (tyBits (gType th.gmode))), 0))

/-- popc (R230). -/
def execPopc (n : Bool) (d a : Sel) (s : State) : Res := countForm (.popc n d a) n d a popCount s
/-- clz (R230). -/
def execClz (n : Bool) (d a : Sel) (s : State) : Res := countForm (.clz n d a) n d a leadZeros s
/-- mov (R231). -/
def execMov (n : Bool) (d a : Sel) (s : State) : Res := moveForm (.mov n d a) n d [a] (fun th l => th.src32 l a) s

/-- The lane that rdlane reads (R232); an ejected lane reads its own (R238). -/
def rdLaneOf (k : Iss) (b : Sel) : Nat :=
  let l := (k.th.lowest k.act).getD 0
  if k.th.ejected then l else (k.th.src32 l b).toNat % (32 * k.th.groups)

/-- rdlane (R232). -/
def execRdlane (n : Bool) (d a b : Sel) (s : State) : Res :=
  let put (k : Iss) : Thread :=
    let i := rdLaneOf k b
    let v : Word := if k.th.freed.getLsbD (i / 32) then 0 else k.th.src32 i a
    k.th.putResult n false k.path k.act d (fun _ => v.setWidth 64)
  guardedForm (.rdlane n d a b) s (fun _ => true) (fun _ => ⟨n, [(d, 1)], [(a, 1), (b, 1)]⟩) put
    (fun k =>
      if 0xF0 ≤ a.toNat ∧ a.toNat < 0xF4 ∧ k.th.latchReadable (rdLaneOf k b / 32) (a.toNat - 0xF0) = false then
        raise k s ⟨cLATCH, k.act, 0, a.setWidth 32⟩
      else retireWith k s (put k).advance)

/-- An exchange within a group (R233): the source lane of lane `l` by its B[4:0]. -/
def shflForm (i : Instr) (n : Bool) (d a b : Sel) (from_ : Nat → Nat → Nat) (s : State) : Res :=
  regForm i s (fun _ => true) (fun _ => ⟨n, [(d, 1)], [(a, 1), (b, 1)]⟩)
    (fun k => k.th.putResult n false k.path k.act d (fun l =>
      let m := laneIdx (l / 32) (from_ (l % 32) ((k.th.src32 l b).toNat % 32))
      (k.th.src32 (if k.act.getLsbD m then m else l) a).setWidth 64))

/-- shfl (R233). -/
def execShfl (n : Bool) (d a b : Sel) (s : State) : Res := shflForm (.shfl n d a b) n d a b (fun _ x => x) s
/-- shflx (R233). -/
def execShflx (n : Bool) (d a b : Sel) (s : State) : Res := shflForm (.shflx n d a b) n d a b (fun l x => l ^^^ x) s

/-- The lanes of a mask whose predicate operand reads 1. -/
def Thread.holds (th : Thread) (m : Mask) (x : Sel) : Mask := maskOf ((th.lanes m).filter (fun l => th.predOp l x))

/-- ballot (R234). -/
def execBallot (n : Bool) (d a : Sel) (s : State) : Res :=
  regForm (.ballot n d a) s (fun _ => true) (fun _ => ⟨n, [(d, 1)], []⟩)
    (fun k =>
      let w := k.th.holds k.act a
      k.th.putResult n false k.path k.act d (fun l =>
        (if isUni d then maskSummary w else maskWord w (l / 32)).setWidth 64))

/-- vote (R235). -/
def execVote (o : BitVec 2) (p : BitVec 3) (a : Sel) (s : State) : Res :=
  regForm (.vote o p a) s (fun _ => true) (fun _ => ⟨true, [], []⟩)
    (fun k =>
      let w := k.th.holds k.act a
      let r : Bool := match o.toNat with
        | 0 => w != 0
        | 1 => w == k.act
        | _ => w == 0 || w == k.act
      k.th.putPred k.act p.toNat (fun _ => r))

/-- plop (R236). -/
def execPlop (o : BitVec 2) (p : BitVec 3) (a b : Sel) (s : State) : Res :=
  predForm (.plop o p a b) s (fun _ => true) p.toNat (fun _ => [])
    (fun th l =>
      let x := th.predOp l a
      let y := th.predOp l b
      (match o.toNat with
       | 0 => x && y
       | 1 => x || y
       | _ => x != y, 0))

/-- p7 to p0 in bits 7:0 (R237). -/
def Thread.predWord (th : Thread) (l : Nat) : Word :=
  BitVec.ofNat 32 ((List.range 8).foldl (fun a p => a + b2n (th.pred l p) * 2 ^ p) 0)

/-- movp (R237). -/
def execMovp (n : Bool) (d : Sel) (s : State) : Res := moveForm (.movp n d) n d [] (fun th l => th.predWord l) s

/-- The GMODE image of a setmode word (R209). -/
def setmodeImage (e : BitVec 4) (g : BitVec 16) : Word := (e ++ g).setWidth 32

/-- setmode (R239). -/
def execSetmode (e : BitVec 4) (g : BitVec 16) (s : State) : Res :=
  sectionForm (.setmode e g) s (fun _ => gmodeOk (setmodeImage e g)) (fun _ => ⟨true, [], []⟩)
    (fun k => retireWith k s { k.th with gmode := setmodeImage e g }.advance)

/-- getmode (R240). -/
def execGetmode (n : Bool) (d : Sel) (s : State) : Res := moveForm (.getmode n d) n d [] (fun th _ => th.gmode) s

end Sys2Proof.Machine
end

