-- ==== Sys2Proof/Machine/Matrix.lean ====
section
/-!
DEFINITION. Matrix and dendritic contraction (R288 to R303): the format record (R49 to R52), the stationary tiles (R289 to R291),
the four majors, curves and branch maps (R54, R170 to R172, R300), emulation (R53), the write of the taps (R294).
-/

namespace Sys2Proof.Machine

/-! ## Formats and the record -/

/-- Width of an element of a format code (R50), in bits of its register. -/
def matWidth (c : Nat) : Nat := if c ≤ 1 then 16 else if c = 4 ∨ c = 7 ∨ c = 8 then 4 else if c = 9 then 32 else 8
/-- K of a format code (R50, R288). -/
def matK (c : Nat) : Nat := if matWidth c = 32 then 4 else 256 / matWidth c
/-- The integer formats s8, z8, s4, z4. -/
def matInt (c : Nat) : Bool := decide (5 ≤ c ∧ c ≤ 8)
/-- Formats that may be scaled (R50). -/
def matScaled (c : Nat) : Bool := decide (c ≤ 4)
/-- The value of an element of an integer format. -/
def matIntVal (c v : Nat) : Int := intOpnd (decide (c = 5 ∨ c = 7)) (matWidth c) v
/-- The value of an element of a float format. -/
def matVal (c v : Nat) : FVal :=
  match c with
  | 0 => Fmt.h16.value v
  | 1 => Fmt.w16.value v
  | 2 => Fmt.q8.value v
  | 3 => Fmt.q6.value v
  | 4 => Fmt.q4.value v
  | _ => Fmt.f32.value v

/-- A format record (R49). -/
structure MatRec where
  afmt : Nat
  bfmt : Nat
  blk  : Nat
  asc  : Bool
  bsc  : Bool
  asoff : Nat
  bsoff : Nat
  tap  : Nat

/-- The fields of 16 bytes; none where the record is ill-formed, its regions aside (R51). -/
def MatRec.of (v : Nat) : Option MatRec :=
  let r : MatRec := ⟨bits v 0 4, bits v 4 4, 16 * 2 ^ bits v 10 2, bits v 14 1 == 1, bits v 15 1 == 1, bits v 32 32, bits v 64 32, bits v 96 32⟩
  if bits v 16 16 = 0 ∧ bits v 12 2 = 0 ∧ bits v 8 2 = 0 ∧ bits v 10 2 ≠ 3 ∧ r.afmt ≤ 9 ∧ r.bfmt ≤ 9
      ∧ matWidth r.afmt = matWidth r.bfmt ∧ matInt r.afmt = matInt r.bfmt
      ∧ (r.asc = false ∨ matScaled r.afmt = true) ∧ (r.bsc = false ∨ matScaled r.bfmt = true) then some r else none

/-- Scales of one row or column (R52). -/
def MatRec.nb (r : MatRec) : Nat := Nat.max 1 (matK r.afmt / r.blk)

/-- The four majors (R292). -/
inductive MatKind where
  | mma | mmad | mmadg | mmadw
  deriving DecidableEq

/-- Registers of D and of A that a major names (R292). -/
def MatKind.runs (m : MatKind) (r : MatRec) : Nat × Nat :=
  match m with
  | .mma => (32, if r.afmt = 9 then 4 else 8)
  | .mmad => (32, 8)
  | .mmadg => (matK r.afmt, 32)
  | .mmadw => (matK r.afmt, 40)

/-- The branch of a K index (R172). -/
def branchOf (c : Section) (k : Nat) : Nat := (tget 0 c.bmap k).toNat % 8
/-- The branches that hold a K index below K, ascending. -/
def branches (c : Section) (n : Nat) : List Nat := (List.range 8).filter (fun b => (List.range n).any (fun k => branchOf c k == b))
/-- The highest of them (R111). -/
def topBranch (c : Section) (n : Nat) : Nat := (List.range n).foldl (fun a k => Nat.max a (branchOf c k)) 0

/-- The regions of the scales that a major reads: offset and bytes (R51, R52). -/
def MatKind.scales (m : MatKind) (r : MatRec) : List (Nat × Nat) :=
  (if r.asc ∧ m ≠ .mmadg then [(r.asoff, 64 * r.nb)] else []) ++ (if r.bsc ∧ m ≠ .mmadw then [(r.bsoff, 64 * r.nb)] else [])

/-- The region of the taps (R111). -/
def MatKind.tapRegion (m : MatKind) (c : Section) (r : MatRec) : List (Nat × Nat) :=
  if m = .mma then [] else [(r.tap, 1024 * (topBranch c (matK r.afmt) + 1))]

/-- The taps that a pass writes, or those of the branches that it reads (R297 to R299). -/
def MatKind.tapsUsed (m : MatKind) (c : Section) (r : MatRec) : List (Nat × Nat) :=
  match m with
  | .mma => []
  | .mmad => m.tapRegion c r
  | _ => (branches c (matK r.afmt)).map (fun b => (r.tap + 1024 * b, 1024))

/-- The scratchpad regions of a major beside its record, by whose extent it is checked (R51). -/
def MatKind.regions (m : MatKind) (c : Section) (r : MatRec) : List (Nat × Nat) := m.scales r ++ m.tapRegion c r

/-! ## Tiles -/

/-- A tile at reset (R289). -/
def tile0 : Tile := ⟨[], 0, 0⟩
/-- The port of a group (R15). -/
def portOf (c : Section) (g : Nat) : Nat := (c.group0 + g) % 4
/-- The tile of a group's port. -/
def tileOf (c : Section) (g : Nat) : Tile := tget tile0 c.tiles (portOf c g)

/-- A column loaded from registers (R291). -/
def loadCol (th : Thread) (a n l : Nat) (t : Tile) : Tile :=
  let col := (List.range 8).flatMap (fun i => if i < n then toBytes 4 (th.vreg l (a + i)).toNat else toBytes 4 0)
  { t with bits := writeBytes t.bits (32 * (l % 32)) col }

/-! ## One pass -/

/-- The pass of one group: its record and lanes, and where its record lies. -/
structure MatPass where
  g     : Nat
  lanes : List Nat
  off   : Nat
  r     : MatRec

/-- Element `k` of a row held in registers from `v` (R288). -/
def rowEl (th : Thread) (c v l k : Nat) : Nat := bits (th.vreg l (v + k * matWidth c / 32)).toNat (k * matWidth c % 32) (matWidth c)
/-- Element `k` of a tile column. -/
def colEl (t : Tile) (c j k : Nat) : Nat := bits (readNat t.bits (32 * j) 32) (matWidth c * k) (matWidth c)
/-- The scale of element `k` of row or column `i`; 1 for a side that is not scaled (R52). -/
def scaleOf (t : Team) (on : Bool) (r : MatRec) (off i k : Nat) : FVal :=
  if on then Fmt.w16.value (readNat t.scratch (off + 2 * (i * r.nb + k / r.blk)) 2) else .fin false Q.one
/-- The tap of a branch, row and column (R111). -/
def tapOf (t : Team) (off b i j : Nat) : FVal := Fmt.q8.value (tget 0 t.scratch (off + 1024 * b + 32 * i + j)).toNat

/-- The product of R296 at (i, j, k), scales included. -/
def matProd (k : Iss) (p : MatPass) (a l j x : Nat) : FVal :=
  prodF [matVal p.r.afmt (rowEl k.th p.r.afmt a l x), scaleOf k.team p.r.asc p.r p.r.asoff (l % 32) x,
    matVal p.r.bfmt (colEl (tileOf k.sec p.g) p.r.bfmt j x), scaleOf k.team p.r.bsc p.r p.r.bsoff j x]

/-- An element of MMA (R296). -/
def mmaElem (k : Iss) (p : MatPass) (d a l j : Nat) : Word × Word :=
  let c := (k.th.vreg l (d + j)).toNat
  if matInt p.r.afmt then
    let t := (List.range (matK p.r.afmt)).foldl (fun s x =>
      s + matIntVal p.r.afmt (rowEl k.th p.r.afmt a l x) * matIntVal p.r.bfmt (colEl (tileOf k.sec p.g) p.r.bfmt j x)) (sext c 32)
    let r := finInt true 32 (gSat k.th.gmode) t
    (BitVec.ofInt 32 r.1, r.2)
  else
    let r := roundSum .f32 (gRM k.th.gmode) (gSatF k.th.gmode)
      (Fmt.f32.value c :: (List.range (matK p.r.afmt)).map (fun x => matProd k p a l j x))
    (BitVec.ofNat 32 r.bits, r.flags)

/-! ## Curves -/

/-- A word of a curve table (R170). -/
def CurveSlot.word (s : CurveSlot) (i : Nat) : Nat := ofBytes ((s.bytes.drop i).take 4)
def CurveSlot.lo (s : CurveSlot) : Nat := s.word 0
def CurveSlot.hi (s : CurveSlot) : Nat := s.word 4
def CurveSlot.extend (s : CurveSlot) : Bool := s.word 8 % 2 == 1
def CurveSlot.knot (s : CurveSlot) (n : Nat) : Nat := s.word (12 + 4 * n)

/-- An f32 pattern is finite. -/
def f32Finite (v : Nat) : Bool :=
  match Fmt.f32.value v with
  | .fin _ _ => true
  | _ => false

/-- A well-formed slot (R171). -/
def CurveSlot.ok (s : CurveSlot) : Bool :=
  f32Finite s.lo && f32Finite s.hi && (Fmt.f32.value s.lo).toQ.lt (Fmt.f32.value s.hi).toQ
    && f32Finite (subF32 .rne .narrow s.hi s.lo).bits && (List.range 33).all (fun n => f32Finite (s.knot n)) && s.word 8 / 2 == 0

/-- x ÷ y rounded (R54). -/
def divF32 (a b : Nat) : FRes := putF .f32 .rne .narrow false (divF (f32Val a) (f32Val b)).1

/-- The segment of x (R54): −1 and 32 stand for everything below and above. -/
def segment (x : Nat) : Int :=
  match Fmt.f32.value x with
  | .inf true => -1
  | .fin n q => Min.min 32 (Max.max (-1) (FVal.fin n q).toQ.floor)
  | _ => 32

/-- One curve at a branch sum (R54): its value, its tap and the flags of its steps. The steps keep their infinities; GMODE's
saturation acts on the value (R297). The tap's conversion saturates and sets no flag. -/
def curveAt (c : CurveSlot) (sat : Sat) (s : Nat) : Nat × Byte × Word :=
  if (Fmt.f32.value s).isNan then (Fmt.f32.nan, 0x80, 0)
  else
    let h := subF32 .rne .narrow c.hi c.lo
    let d := subF32 .rne .narrow s c.lo
    let d32 := mulF32 .rne .narrow d.bits 0x42000000
    let x := divF32 d32.bits h.bits
    let fl := h.flags ||| d.flags ||| d32.flags ||| x.flags
    let g := segment x.bits
    if (g < 0 ∨ 31 < g) ∧ c.extend = false then (c.knot (if g < 0 then 0 else 32), 0, fl)
    else
      let g : Nat := if g < 0 then 0 else if 31 < g then 31 else g.toNat
      let t := roundSum .f32 .rne .narrow [f32Val x.bits, FVal.ofQ true (Q.ofInt (-g))]
      let dk := subF32 .rne .narrow (c.knot (g + 1)) (c.knot g)
      let m := mulF32 .rne .narrow t.bits dk.bits
      let y := addF32 .rne sat (c.knot g) m.bits
      let k32 := mulF32 .rne .narrow dk.bits 0x42000000
      let slope := divF32 k32.bits h.bits
      (y.bits, BitVec.ofNat 8 (putF .q8 .rne .narrow false (f32Val slope.bits)).bits,
       fl ||| t.flags ||| dk.flags ||| m.flags ||| y.flags ||| k32.flags ||| slope.flags)

/-- The slot of a branch. -/
def slotOf (c : Section) (b : Nat) : CurveSlot := (tget none c.slots b).getD ⟨0, []⟩

/-- An element of MMAD (R297, R54): the value, the tap of each branch it meets, and the flags. -/
def mmadElem (k : Iss) (p : MatPass) (d a l j : Nat) : Nat × List (Nat × Byte) × Word :=
  let n := matK p.r.afmt
  let sat := gSatF k.th.gmode
  (branches k.sec n).foldl (fun (acc : Nat × List (Nat × Byte) × Word) b =>
    let s := roundSum .f32 .rne sat
      (Fmt.f32.value 0 :: ((List.range n).filter (fun x => branchOf k.sec x == b)).map (fun x => matProd k p a l j x))
    let y := curveAt (slotOf k.sec b) sat s.bits
    let r := addF32 .rne sat acc.1 y.1
    (r.bits, acc.2.1 ++ [(b, y.2.1)], acc.2.2 ||| s.flags ||| y.2.2 ||| r.flags)) ((k.th.vreg l (d + j)).toNat, [], 0)

/-- An element of MMADG (R298). -/
def mmadgElem (k : Iss) (p : MatPass) (d a l x : Nat) : Word × Word :=
  let b := branchOf k.sec x
  let term (j : Nat) : FVal := prodF [Fmt.f32.value (k.th.vreg l (a + j)).toNat, tapOf k.team p.r.tap b (l % 32) j,
    matVal p.r.bfmt (colEl (tileOf k.sec p.g) p.r.bfmt j x), scaleOf k.team p.r.bsc p.r p.r.bsoff j x]
  let r := roundSum .f32 (gRM k.th.gmode) (gSatF k.th.gmode) (Fmt.f32.value (k.th.vreg l (d + x)).toNat :: (List.range 32).map term)
  (BitVec.ofNat 32 r.bits, r.flags)

/-- An element of MMADW (R299): lane `l` receives its own column. -/
def mmadwElem (k : Iss) (p : MatPass) (d a l x : Nat) : Word × Word :=
  let b := branchOf k.sec x
  let j := l % 32
  let term (i : Nat) : FVal := prodF [matVal p.r.afmt (rowEl k.th p.r.afmt a i x), scaleOf k.team p.r.asc p.r p.r.asoff (i % 32) x,
    tapOf k.team p.r.tap b (i % 32) j, Fmt.f32.value (k.th.vreg i (a + 8 + j)).toNat]
  let r := roundSum .f32 (gRM k.th.gmode) (gSatF k.th.gmode) (Fmt.f32.value (k.th.vreg l (d + x)).toNat :: p.lanes.map term)
  (BitVec.ofNat 32 r.bits, r.flags)

/-! ## A whole instruction -/

/-- What a pass computes: its registers, flags and taps. -/
def MatPass.result (m : MatKind) (k : Iss) (d a : Nat) (p : MatPass) : List (Nat × Nat × Word) × Word × List (Nat × Byte) :=
  let cells := p.lanes.flatMap (fun l => (List.range (m.runs p.r).1).map (fun j => (l, j)))
  let top := topBranch k.sec (matK p.r.afmt)
  cells.foldl (fun acc x =>
    let one (v : Word × Word) : List (Nat × Nat × Word) × Word × List (Nat × Byte) := (acc.1 ++ [(x.1, d + x.2, v.1)], acc.2.1 ||| v.2, acc.2.2)
    match m with
    | .mma => one (mmaElem k p d a x.1 x.2)
    | .mmadg => one (mmadgElem k p d a x.1 x.2)
    | .mmadw => one (mmadwElem k p d a x.1 x.2)
    | .mmad =>
      let v := mmadElem k p d a x.1 x.2
      let tap (b : Nat) : Nat × Byte := (p.r.tap + 1024 * b + 32 * (x.1 % 32) + x.2, ((v.2.1.find? (fun y => y.1 == b)).map Prod.snd).getD 0)
      (acc.1 ++ [(x.1, d + x.2, BitVec.ofNat 32 v.1)], acc.2.1 ||| v.2.2, acc.2.2 ++ (List.range (top + 1)).map tap)) ([], 0, [])

/-- What an instruction computes, all its passes together. -/
def matRes (m : MatKind) (k : Iss) (n : Bool) (d a : Sel) (ps : List MatPass) : MatRes :=
  let rs := ps.map (fun p => p.result m k d.toNat a.toNat)
  let regs := rs.flatMap Prod.fst
  { n := n, d := d, regs := regs
    runs := ps.map (fun p => (p.g, (m.runs p.r).1))
    first := tsets 0 [] ((regs.filter (fun x => x.2.1 == d.toNat)).map (fun x => (x.1, x.2.2)))
    flags := rs.foldl (fun f r => f ||| r.2.1) 0
    taps := rs.flatMap (fun r => r.2.2) }

/-- The registers, latches and flags of a matrix instruction (R295, R215). -/
def Thread.putMat (th : Thread) (path act : Mask) (r : MatRes) : Thread :=
  let w := if r.n then th else r.regs.foldl (fun t x => t.setV x.1 x.2.1 x.2.2) th
  let w := if r.n then w else r.runs.foldl (fun t x => t.unrec x.1 r.d x.2) w
  (w.latchPass r.n false path act r.d (fun l => (tget 0 r.first l).setWidth 64)).orFlags r.flags

/-- The scratchpad offset that B names for a group (R292). -/
def matOff (k : Iss) (b : Sel) (lanes : List Nat) : Nat := (k.th.src32 (lanes.head?.getD 0) b).toNat

/-- A record that lies where one may lie (R169). -/
def recPlaced (t : Team) (off : Nat) : Bool := decide (off % 16 = 0) && t.inScratch off 16

/-- Lines of the team's scratchpad that a matrix pass touches must be present (R105, R293). -/
def matTouch (k : Iss) (s : State) (rs : List (Nat × Nat)) (go : Unit → State) : State :=
  whenPresent k s k.act (rs.flatMap (fun r => rangeLines r.1 r.2)) go

/-- The active branch map names a branch that is none (R172). -/
def bmapBad (c : Section) : Bool := (List.range 64).any (fun i => decide (8 ≤ (tget 0 c.bmap i).toNat))

/-- BMAP of the majors that use the map (R172, R293). -/
def bmapFault (m : MatKind) (k : Iss) : Option Trap :=
  if m ≠ .mma ∧ bmapBad k.sec then some ⟨cBMAP, k.act, coreAddr k.team k.sec.bmapOff, 0⟩ else none

/-- The registers that a major names whatever its record holds (R292). -/
def MatKind.least (m : MatKind) : Nat × Nat :=
  match m with
  | .mma => (32, 4)
  | .mmad => (32, 8)
  | .mmadg => (16, 32)
  | .mmadw => (16, 40)

/-- What a major raises before its records can be read (R59, R206, R293): a record that is misplaced, the registers it names in any
case, and BMAP. -/
def matEarly (m : MatKind) (k : Iss) (d a b : Sel) (misplaced : Option Nat) : Option Trap :=
  match misplaced with
  | some off => some ⟨cOPND, k.act, coreAddr k.team off, 0⟩
  | none =>
    let u : Uses := ⟨true, [], [(d, m.least.1), (a, m.least.2), (b, 1)]⟩
    if 192 < d.toNat + m.least.1 ∨ 192 < a.toNat + m.least.2 then some ⟨cOPND, k.act, 0, 0⟩
    else (regFault k.th k.act u).orElse (fun _ => bmapFault m k)

/-- What the passes of a major read from scratchpad: records, scales, and the taps that mmadg and mmadw read (R293, R294, R298). -/
def MatKind.reads (m : MatKind) (c : Section) (ps : List MatPass) : List (Nat × Nat) :=
  ps.flatMap (fun p => (p.off, 16) :: (m.scales p.r ++ (if m = .mmad then [] else m.tapsUsed c p.r)))

/-- OPND of one pass with its TRAPADDR (R292), none when it may run. -/
def matOpnd (m : MatKind) (k : Iss) (d a : Nat) (g off : Nat) (r : Option MatRec) : Option DWord :=
  match r with
  | none => some (coreAddr k.team off)
  | some r =>
    if (m.regions k.sec r).any (fun x => decide (x.1 % 4 ≠ 0) || !k.team.inScratch x.1 x.2) then some (coreAddr k.team off)
    else
      let t := tileOf k.sec g
      let edge : BitVec 2 := if m = .mmadg then 2 else 1
      if (m ≠ .mma ∧ (matInt r.afmt = true ∨ r.afmt = 9)) ∨ (m ≠ .mmadw ∧ (t.edge ≠ edge ∨ t.tfmt.toNat ≠ r.bfmt))
          ∨ 192 < d + (m.runs r).1 ∨ 192 < a + (m.runs r).2 then some 0
      else none

/-- The lowest branch of a pass whose slot is empty or ill-formed (R171). -/
def badSlot (c : Section) (p : MatPass) : Option Nat := (branches c (matK p.r.afmt)).find? (fun b => !(slotOf c b).ok)

/-- A matrix major (R292 to R297, R53). -/
def matForm (m : MatKind) (ins : Instr) (n : Bool) (d a b : Sel) (s : State) : Res :=
  issued s (fun k =>
    if !staticOk ins then raise k s ⟨cOPND, if k.act = 0 then k.path else k.act, 0, wordOf ins⟩
    else if k.act = 0 then retireWith k s (k.th.latchPass n false k.path k.act d (fun _ => 0)).advance
    else
      let gs := groupsOf k.act k.th.groups
      let lanesIn (g : Nat) : List Nat := (k.th.lanes k.act).filter (fun l => l / 32 == g)
      let off (g : Nat) : Nat := matOff k b (lanesIn g)
      let placed := gs.filter (fun g => recPlaced k.team (off g))
      let early := (matEarly m k d a b ((gs.find? (fun g => !recPlaced k.team (off g))).map off)).map (fun x =>
        if x.code = cOPND then { x with aux := wordOf ins } else x)
      whenRecord k s k.act early (placed.map (fun g => (off g, 16))) (fun _ =>
        let rec? (g : Nat) : Option MatRec := if recPlaced k.team (off g) then MatRec.of (readNat k.team.scratch (off g) 16) else none
        match gs.findSome? (fun g => matOpnd m k d.toNat a.toNat g (off g) (rec? g)) with
        | some ad => raise k s ⟨cOPND, k.act, ad, wordOf ins⟩
        | none =>
          let ps := gs.filterMap (fun g => (rec? g).map (fun r => (⟨g, lanesIn g, off g, r⟩ : MatPass)))
          let runsOf (p : MatPass) : List (Sel × Nat) := [(d, (m.runs p.r).1), (a, (m.runs p.r).2)]
          match regFault k.th k.act ⟨true, [], ps.flatMap runsOf ++ [(b, 1)]⟩ with
          | some x => raise k s x
          | none =>
            match bmapFault m k with
            | some x => raise k s x
            | none => match (if m = .mma then none else ps.findSome? (badSlot k.sec)) with
            | some i => raise k s ⟨cCURVE, k.act, coreAddr k.team (slotOf k.sec i).off, BitVec.ofNat 32 i⟩
            | none =>
              matTouch k s (ps.flatMap (fun p => m.scales p.r ++ m.tapsUsed k.sec p.r)) (fun _ => unlessFailed k s k.act (m.reads k.sec ps) (fun _ =>
                if m = .mmad && ps.any (fun p => s.copyReads k p.r.tap (1024 * (topBranch k.sec (matK p.r.afmt) + 1))) then s
                else
                  let r := matRes m k n d a ps
                  let emulated := ps.any (fun p => p.r.afmt == 3 || p.r.bfmt == 3)
                  match k.rec? with
                  | none =>
                    if emulated then waitOn k (modOwn k s (fun c => { c with emu := some r, th := c.th.killLatches })) .fmtEmu .event
                    else modOwn k (retireWith k s (k.th.putMat k.path k.act r).advance) (fun c => { c with taps := r.taps })
                  | some _ =>
                    -- the lantern takes its time: the taps are written with the row (R303)
                    let th := k.th.putMat k.path k.act r
                    let s := s.modTeam k.team.tid (fun t => { t with scratch := tsets 0 t.scratch r.taps })
                    retireWith k s (if emulated then th.killLatches else th).advance))))

/-- mma (R296). -/
def execMma (n : Bool) (d a b : Sel) (s : State) : Res := matForm .mma (.mma n d a b) n d a b s
/-- mmad (R297). -/
def execMmad (n : Bool) (d a b : Sel) (s : State) : Res := matForm .mmad (.mmad n d a b) n d a b s
/-- mmadg (R298). -/
def execMmadg (n : Bool) (d a b : Sel) (s : State) : Res := matForm .mmadg (.mmadg n d a b) n d a b s
/-- mmadw (R299). -/
def execMmadw (n : Bool) (d a b : Sel) (s : State) : Res := matForm .mmadw (.mmadw n d a b) n d a b s

/-- MATRIX_WRITEBACK: the taps of a section's mmad are written, after its occupancy (R294, R301). Its registers have been written at
issue: nothing reads them before (R213). -/
def execMatrixWriteback (tid role : Nat) (s : State) : Res :=
  .next (match s.sec? tid role with
    | some c => (s.modTeam tid (fun t => { t with scratch := tsets 0 t.scratch c.taps })).modSec tid role (fun c => { c with taps := [] })
    | none => s)

/-- FMT_EMU_COMPLETE: an emulation ends (R53): registers, taps and flags as a native execution leaves them, the latches invalid. -/
def execFmtEmuComplete (tid role : Nat) (s : State) : Res :=
  .next (match { s with sel := some (.sect tid role) : State }.iss? with
    | some k => match k.sec.emu with
      | some r =>
        if k.sec.waitOn = .fmtEmu then
          let s := retireWith k s (k.th.putMat k.path k.act r).killLatches.advance
          let s := s.modTeam tid (fun t => { t with scratch := tsets 0 t.scratch r.taps })
          s.modSec tid role (fun c => { c with emu := none, state := readyState c })
        else s
      | none => s
    | none => s)

/-! ## Tiles, curves and maps -/

/-- BUDGET and LATCH of a form that an ejected lane may not run, and UNIFORM for such a lane between them (R206). -/
def sectionFault (k : Iss) (u : Uses) : Option Trap :=
  (regFault k.th k.act (usesUnlatched k u)).orElse (fun _ => if k.rec?.isSome then some ⟨cUNIFORM, k.act, 0, 0⟩ else none)

/-- mldn and mldw (R291): each pass loads its port's tile from its active lanes, in ascending group order. -/
def mldForm (ins : Instr) (edge : BitVec 2) (a b : Sel) (s : State) : Res :=
  issued s (fun k =>
    let off := (k.th.kreg (uniNo b)).toNat
    if !staticOk ins then raise k s ⟨cOPND, if k.act = 0 then k.path else k.act, 0, wordOf ins⟩
    else if k.act = 0 then pass k s
    else if !recPlaced k.team off then raise k s ⟨cOPND, k.act, coreAddr k.team off, wordOf ins⟩
    else whenRecord k s k.act (sectionFault k ⟨true, [], [(a, 4), (b, 1)]⟩) [(off, 16)] (fun _ =>
      match MatRec.of (readNat k.team.scratch off 16) with
      | none => raise k s ⟨cOPND, k.act, coreAddr k.team off, wordOf ins⟩
      | some r =>
        let n := if r.bfmt = 9 then 4 else 8
        if 192 < a.toNat + n then raise k s ⟨cOPND, k.act, 0, wordOf ins⟩
        else match sectionFault k ⟨true, [], [(a, n), (b, 1)]⟩ with
        | some x => raise k s x
        | none =>
          let load (ts : Table Tile) (g : Nat) : Table Tile :=
            let t := ((k.th.lanes k.act).filter (fun l => l / 32 == g)).foldl (fun t l => loadCol k.th a.toNat n l t) (tget tile0 ts (portOf k.sec g))
            tset tile0 ts (portOf k.sec g) { t with edge := edge, tfmt := BitVec.ofNat 4 r.bfmt }
          modOwn k (pass k s) (fun c => { c with tiles := (groupsOf k.path k.th.groups).foldl load c.tiles })))

/-- mldn (R291). -/
def execMldn (a b : Sel) (s : State) : Res := mldForm (.mldn a b) 1 a b s
/-- mldw (R291). -/
def execMldw (a b : Sel) (s : State) : Res := mldForm (.mldw a b) 2 a b s

/-- curve and bmap (R300): a table of `n` bytes read once for the section, whatever the guard. -/
def tableForm (ins : Instr) (n al : Nat) (b : Sel) (s : State) (put : Section → Nat → List Byte → Section) : Res :=
  issued s (fun k =>
    let off := (k.th.kreg (uniNo b)).toNat
    if !staticOk ins then raise k s ⟨cOPND, if k.act = 0 then k.path else k.act, 0, wordOf ins⟩
    else if k.path = 0 then pass k s
    else if off % al ≠ 0 ∨ k.team.inScratch off n = false then raise k s ⟨cOPND, k.path, coreAddr k.team off, wordOf ins⟩
    else match k.rec? with
    | some _ => raise k s ⟨cUNIFORM, k.path, 0, 0⟩
    | none =>
      whenRead k s k.path [(off, n)] (fun _ => modOwn k (pass k s) (fun c => put c off (readBytes k.team.scratch off n))))

/-- curve (R300, R171). -/
def execCurve (i : BitVec 3) (b : Sel) (s : State) : Res :=
  tableForm (.curve i b) 144 16 b s (fun c off bs => { c with slots := tset none c.slots i.toNat (some ⟨off, bs⟩) })

/-- bmap (R300, R172). -/
def execBmap (b : Sel) (s : State) : Res :=
  tableForm (.bmap b) 64 64 b s (fun c off bs => { c with bmap := writeBytes [] 0 bs, bmapOff := off })

end Sys2Proof.Machine
end

