-- ==== Sys2Proof/Machine/Render.lean ====
section
/-!
DEFINITION. The render-compare loop: raster (R304 to R309), building a tile (R109, R310 to R313), residuals and event rings (R110,
R112, R141, R192, R319 to R321), latent updates (R322, R323).
-/

namespace Sys2Proof.Machine

/-! ## RAST -/

/-- A point of the tile plane, and a depth. -/
structure Vert where
  x : Q
  y : Q
  z : Q

/-- An f32 pattern as a rational, none when it is not finite. -/
def finQ (v : Nat) : Option Q :=
  match Fmt.f32.value v with
  | .fin n q => some (FVal.fin n q).toQ
  | _ => none

/-- A vertex from three patterns. -/
def Vert.of (x y z : Nat) : Option Vert :=
  match finQ x, finQ y, finQ z with
  | some x, some y, some z => some ⟨x, y, z⟩
  | _, _, _ => none

/-- Twice the signed area of a triangle (R306). -/
def area2 (p q r : Vert) : Q :=
  ((q.x.sub p.x).mul (r.y.sub p.y)).sub ((r.x.sub p.x).mul (q.y.sub p.y))

/-- An edge of the triangle (R305, R306): from a vertex by (dx, dy), its outward normal, its SIL bit. -/
structure RastEdge where
  p  : Vert
  dx : Q
  dy : Q
  nx : Q
  ny : Q
  sil : Bool

/-- A triangle: vertices, area, edges, primitive identifier. -/
structure Tri where
  v : List Vert
  a : Q
  e : List RastEdge
  prim : Nat

def vert0 : Vert := ⟨Q.zero, Q.zero, Q.zero⟩

/-- The triangle of a vertex block (R305), none when it emits no sample (R306). -/
def Tri.of (b : List Nat) : Option Tri :=
  let w (i : Nat) : Nat := b.getD i 0
  match Vert.of (w 0) (w 1) (w 2), Vert.of (w 3) (w 4) (w 5), Vert.of (w 6) (w 7) (w 8) with
  | some v0, some v1, some v2 =>
    let a := area2 v0 v1 v2
    if a.isZero then none
    else
      let vs := [v0, v1, v2]
      let edge (i : Nat) : RastEdge :=
        let p := vs.getD i vert0
        let q := vs.getD ((i + 1) % 3) vert0
        let dx := q.x.sub p.x
        let dy := q.y.sub p.y
        -- with a positive area the interior lies on the side of (−dy, dx)
        let flip := a.isNeg
        ⟨p, dx, dy, if flip then dy.neg else dy, if flip then dx else dx.neg, bits (w 10) i 1 == 1⟩
      some ⟨vs, a, [edge 0, edge 1, edge 2], w 9⟩
  | _, _, _ => none

/-- Ek(c) ÷ A: the barycentric of vertex `k` at a point (R306). -/
def Tri.bary (t : Tri) (k : Nat) (c : Vert) : Q :=
  (area2 c (t.v.getD ((k + 1) % 3) vert0) (t.v.getD ((k + 2) % 3) vert0)).div t.a

/-- The condition of an edge on whose line a centre lies (R306). -/
def RastEdge.topLeft (e : RastEdge) : Bool := e.nx.isNeg || (e.nx.isZero && e.ny.isNeg)

/-- The part of a segment within a closed pixel square, as a share of its length (R307). -/
def RastEdge.clip (e : RastEdge) (x y : Nat) : Q :=
  let lim : List (Q × Q) := [(e.dx.neg, e.p.x.sub (Q.ofInt x)), (e.dx, (Q.ofInt (x + 1)).sub e.p.x),
    (e.dy.neg, e.p.y.sub (Q.ofInt y)), (e.dy, (Q.ofInt (y + 1)).sub e.p.y)]
  let out := lim.any (fun l => l.1.isZero && l.2.isNeg)
  let lo := lim.foldl (fun t l => if l.1.isNeg then t.max (l.2.div l.1) else t) Q.zero
  let hi := lim.foldl (fun t l => if l.1.isZero || l.1.isNeg then t else t.min (l.2.div l.1)) Q.one
  if out || hi.lt lo then Q.zero else hi.sub lo

/-- The square of L_i (R307). -/
def RastEdge.len2 (e : RastEdge) (x y : Nat) : Q :=
  let t := e.clip x y
  (t.mul t).mul ((e.dx.mul e.dx).add (e.dy.mul e.dy))

/-- round(127 × a unit component, s8, RNE), as a byte (R307). -/
def unit127 (a b : Q) : Nat :=
  let q := ((Q.ofInt 16129).mul (a.mul a)).div ((a.mul a).add (b.mul b))
  let m := roundMag .rne false (Q.sqrt 40 q)
  if a.isNeg then (256 - m) % 256 else m

/-- The exact value rounded once to f32 under RNE (R306). -/
def rnd32 (q : Q) : Nat := (putF .f32 .rne .narrow false (FVal.ofQ false q)).bits

/-- The sample of a pixel: position word, provenance, z and barycentrics (R304 to R307); none when the pixel emits none. -/
def Tri.sample (t : Tri) (x y : Nat) : Option (List Word) :=
  let c : Vert := ⟨(Q.ofInt x).add Q.half, (Q.ofInt y).add Q.half, Q.zero⟩
  let lam := (List.range 3).map (fun k => t.bary k c)
  let lamOf (i : Nat) : Q := lam.getD ((i + 2) % 3) Q.zero  -- edge i lies opposite vertex i + 2
  let inside (i : Nat) : Bool := !(lamOf i).isNeg
  let edge (i : Nat) : RastEdge := t.e.getD i ⟨vert0, Q.zero, Q.zero, Q.zero, Q.zero, false⟩
  let cov := (List.range 3).all (fun i => inside i && (!(lamOf i).isZero || (edge i).topLeft))
  let best := (List.range 3).foldl (fun (b : Option (Nat × Q)) i =>
    let l := if (edge i).sil then (edge i).len2 x y else Q.zero
    match b with
    | none => if l.isZero then none else some (i, l)
    | some (j, m) => if m.lt l then some (i, l) else some (j, m)) none
  if !cov && best.isNone then none
  else
    let z := Q.sum ((List.range 3).map (fun k => (lam.getD k Q.zero).mul (t.v.getD k vert0).z))
    let rec? := best.map (fun b =>
      let e := edge b.1
      let l := (putF .h16 .rne .narrow false (.fin false (Q.sqrt 40 b.2))).bits
      let cls := if inside b.1 then 1 else 2
      (b.1, cls, l + (if cls = 2 then 0x8000 else 0) + unit127 e.nx e.ny * 2 ^ 16 + unit127 e.ny e.nx * 2 ^ 24))
    let r := rec?.getD (0, 0, 0)
    some ([b2n cov * 2 ^ 30 + r.1 * 2 ^ 28 + r.2.1 * 2 ^ 26 + y * 2 ^ 12 + x, t.prim % 2 ^ 30 + r.1 * 2 ^ 30, r.2.2, rnd32 z,
      rnd32 (lam.getD 0 Q.zero), rnd32 (lam.getD 1 Q.zero), rnd32 (lam.getD 2 Q.zero)].map (BitVec.ofNat 32))

/-- Candidates from `i` on, as many as `n`, handed to lanes in order; what each lane received, and the first candidate not
examined (R309). -/
def rastScan (f : Nat → Option (List Word)) : Nat → Nat → List Nat → List (Nat × List Word) × Nat
  | 0, i, _ => ([], i)
  | _ + 1, i, [] => ([], i)
  | n + 1, i, l :: r =>
    match f i with
    | none => rastScan f n (i + 1) (l :: r)
    | some v => ((l, v) :: (rastScan f n (i + 1) r).1, (rastScan f n (i + 1) r).2)

/-- Width and height of a render-tile descriptor (R109). -/
def tileW (d : Nat) : Nat := 4 * 2 ^ bits d 1 2
def tileH (d : Nat) : Nat := 4 * 2 ^ bits d 3 2

/-- What rast hands to each active lane, and the new token (R309). -/
def rastAll (th : Thread) (act : Mask) (blk : List Nat) (token : Nat) : List (Nat × List Word) × Nat :=
  let w := tileW (blk.getD 11 0)
  let wh := w * tileH (blk.getD 11 0)
  match Tri.of blk with
  | none => ([], 0)
  | some t =>
    if token = 0 then ([], 0)
    else
      let r := rastScan (fun i => t.sample (i % w) (i / w)) (wh - (token - 1)) (token - 1) (th.lanes act)
      (r.1, if r.2 < wh then r.2 + 1 else 0)

/-- rast (R305, R309): N suppresses the run alone; the token is written for the section. -/
def execRast (n : Bool) (d a b : Sel) (s : State) : Res :=
  let blk (k : Iss) : List Nat := (List.range 12).map (fun i => (k.th.kreg (uniNo a + i)).toNat)
  let tok (k : Iss) : Nat := (k.th.kreg (uniNo b)).toNat
  let ok (k : Iss) : Bool :=
    let w (i : Nat) : Nat := (blk k).getD i 0
    decide (w 9 / 2 ^ 30 = 0) && decide (w 10 / 8 = 0) && decide (w 11 % 2 = 0) && decide (tok k ≤ tileW (w 11) * tileH (w 11))
  guardedForm (.rast n d a b) s ok (fun _ => ⟨n, [(d, 7)], [(a, 12), (b, 1)]⟩)
    (fun k => k.th.latchPass n false k.path k.act d (fun _ => 0)) (fun k =>
    match k.rec? with
    | some _ => raise k s ⟨cUNIFORM, k.act, 0, b.setWidth 32⟩
    | none =>
      let r := rastAll k.th k.act (blk k) (tok k)
      let val (l i : Nat) : Word := match r.1.find? (fun x => x.1 == l) with
        | some x => x.2.getD i 0
        | none => if i = 0 then 0xFFFFFFFF else 0
      let th := k.th.putRun n k.path k.act d 7 val
      let th := (List.range th.groups).foldl (fun t g => t.unrec g b 1) (th.setK (uniNo b) (BitVec.ofNat 32 r.2))
      retireWith k s th.advance)

/-! ## Building the tile -/

/-- A render tile (R109). -/
structure RTile where
  base : Nat
  w : Nat
  h : Nat
  layers : Nat

def RTile.size (t : RTile) : Nat := 20 * t.w * t.h
/-- Offsets of a pixel's colour, depth and provenance in a layer (R109). -/
def RTile.colour (t : RTile) (h i : Nat) : Nat := t.base + h * t.size + 8 * i
def RTile.depth (t : RTile) (h i : Nat) : Nat := t.base + h * t.size + 8 * t.w * t.h + 4 * i
def RTile.prov (t : RTile) (h i : Nat) : Nat := t.base + h * t.size + 12 * t.w * t.h + 8 * i

/-- The tile of a descriptor, none for one that breaks R109. -/
def RTile.of (t : Team) (d : Nat) : Option RTile :=
  let r : RTile := ⟨d / 128 * 128, tileW d, tileH d, bits d 5 2 + 1⟩
  if d % 2 = 0 ∧ t.inScratch r.base (r.layers * r.size) = true then some r else none

/-- A lane's pixel: none without a sample (R304). -/
structure Pixel where
  lane : Nat
  word : Nat
  layer : Nat
  i : Nat
  /-- x, y or layer lies outside the tile (R310). -/
  bad : Option Nat

/-- The pixels of the active lanes that hold a sample; the layer of the position word or of the instruction. -/
def pixelsOf (k : Iss) (t : RTile) (a : Sel) (layer : Option Nat) : List Pixel :=
  (k.th.lanes k.act).filterMap (fun l =>
    let w := (k.th.vreg l a.toNat).toNat
    if bits w 31 1 = 1 then none
    else
      let x := bits w 0 12
      let y := bits w 12 12
      let h := layer.getD (bits w 24 2)
      some ⟨l, w, h, y * t.w + x, if t.w ≤ x then some 0 else if t.h ≤ y then some 1 else if t.layers ≤ h then some 2 else none⟩)

def Pixel.cov (p : Pixel) : Bool := bits p.word 30 1 == 1

/-- A per-pixel step of one lane on the team's scratchpad: the new state and flags. -/
abbrev PixStep := State → Pixel → State × Word

/-- What dtest, blend and pstore share (R310): the descriptor, SHAPE, absent lines, ECC where the step reads, then each lane's step
in the order of R257. -/
def tileForm (ins : Instr) (s : State) (a b : Sel) (run : Nat) (layer : Option Nat) (touches : Pixel → Bool) (size : Nat)
    (reads : Bool) (off : RTile → Pixel → Nat) (step : Iss → RTile → PixStep) (fin : Iss → List Nat → State → State → Thread → Thread) : Res :=
  let tile (k : Iss) : Option RTile := RTile.of k.team (k.th.kreg (uniNo b)).toNat
  guardedForm ins s (fun k => (tile k).isSome) (fun _ => ⟨true, [], [(a, run), (b, 1)]⟩) (fun k => k.th) (fun k =>
    match tile k with
    | none => s
    | some t =>
      let px := pixelsOf k t a layer
      let elem (p : Pixel) (o : Nat) : Elem := { lane := p.lane, a := (coreAddr k.team o).toNat, bad := false, data := 0, data2 := 0 }
      let bad := px.filterMap (fun p => p.bad.map (fun d => (elem p t.base, Ready.fault cSHAPE (coreAddr k.team t.base) (BitVec.ofNat 32 d))))
      let use := px.filter (fun p => p.bad.isNone && touches p)
      let rs := use.map (fun p => (elem p (off t p), s.eccOf reads size (elem p (off t p)) (s.readyAt k .atom none size (elem p (off t p)))))
      let op : MemOp := { kind := .store, ty := 0, size := size, scope := 0, rd := 0, lanes := [], atomic := false }
      match waitsFor k s op .load rs bad with
      | some s' => s'
      | none =>
        let fault (l : Nat) : Bool := (rs ++ bad).any (fun x => x.1.lane == l && (match x.2 with
          | .fault .. => true
          | _ => false))
        let r := (use.filter (fun p => !fault p.lane)).foldl (fun (acc : State × Word) p =>
          let x := step k t acc.1 p
          (x.1, acc.2 ||| x.2)) (s, 0)
        let done := (k.th.lanes k.act).filter (fun l => !fault l)
        accessEnd k r.1 ((fin k done s r.1 k.th).orFlags r.2) (rs ++ bad))

/-- A write of a tile's bytes by the issuing lane. -/
def tilePut (k : Iss) (s : State) (off : Nat) (bs : List Byte) : State := s.spotWrite k.team.ctx (.team k.team.tid off) bs

/-- The stored depth of a pixel. -/
def depthOf (k : Iss) (s : State) (t : RTile) (p : Pixel) : Nat := ofBytes (s.spotRead (.team k.team.tid (t.depth p.layer p.i)) 4)

/-- The depth test of a lane (R311): z at or above the stored depth, no NaN on either side. -/
def nearer (z d : Nat) : Bool := fCond 5 (Fmt.f32.value z) (Fmt.f32.value d)

/-- dtest (R311). The predicates are those that the lanes' own steps, in order, saw. -/
def execDtest (p : BitVec 3) (a b : Sel) (s : State) : Res :=
  let z (k : Iss) (x : Pixel) : Nat := (k.th.vreg x.lane (a.toNat + 3)).toNat
  let step (k : Iss) (t : RTile) : PixStep := fun s x =>
    if x.cov && nearer (z k x) (depthOf k s t x) then (tilePut k s (t.depth x.layer x.i) (toBytes 4 (z k x)), 0) else (s, 0)
  tileForm (.dtest p a b) s a b 4 none (fun _ => true) 4 true (fun t x => t.depth x.layer x.i) step
    (fun k done s0 _ th =>
      match RTile.of k.team (k.th.kreg (uniNo b)).toNat with
      | none => th
      | some t =>
        let px := (pixelsOf k t a none).filter (fun x => x.bad.isNone && done.contains x.lane)
        let seen := px.foldl (fun (acc : State × List (Nat × Bool)) x =>
          ((step k t acc.1 x).1, acc.2 ++ [(x.lane, nearer (z k x) (depthOf k acc.1 t x))])) (s0, [])
        done.foldl (fun th l => th.setP l p.toNat (((seen.2.find? (fun y => y.1 == l)).map Prod.snd).getD false)) th)

/-- One channel of blend (R312). -/
def blendChan (g : Word) (op : Nat) (sb db ab : Nat) : Nat × Word :=
  let v (x : Nat) : FVal := Fmt.h16.value x
  let out (t : List FVal) : Nat × Word :=
    let r := roundSum .h16 (gRM g) (gSatF g) t
    (r.bits, r.flags)
  match op with
  | 0 => (sb, 0)
  | 1 => out [v sb, (mulF (v db) (sumF .rne [.fin false Q.one, (v ab).neg])).1]
  | 2 => out [v sb, v db]
  | _ => let r := fPick .h16 sb db false; (r.1.toNat, r.2)

/-- blend (R312). -/
def execBlend (o : BitVec 3) (a b : Sel) (s : State) : Res :=
  let step (k : Iss) (t : RTile) : PixStep := fun s x =>
    let src := (k.th.vreg x.lane (a.toNat + 1)).toNat + (k.th.vreg x.lane (a.toNat + 2)).toNat * 2 ^ 32
    let old := ofBytes (s.spotRead (.team k.team.tid (t.colour x.layer x.i)) 8)
    let rs := (List.range 4).map (fun c => blendChan k.th.gmode o.toNat (bits src (16 * c) 16) (bits old (16 * c) 16) (bits src 48 16))
    (tilePut k s (t.colour x.layer x.i) (rs.flatMap (fun r => toBytes 2 r.1)), rs.foldl (fun f r => f ||| r.2) 0)
  tileForm (.blend o a b) s a b 3 none Pixel.cov 8 true (fun t x => t.colour x.layer x.i) step (fun _ _ _ _ th => th)

/-- pstore (R313). -/
def execPstore (l : BitVec 3) (a b : Sel) (s : State) : Res :=
  let step (k : Iss) (t : RTile) : PixStep := fun s x =>
    (tilePut k s (t.prov x.layer x.i) (toBytes 4 (k.th.vreg x.lane (a.toNat + 1)).toNat ++ toBytes 4 (k.th.vreg x.lane (a.toNat + 2)).toNat), 0)
  tileForm (.pstore l a b) s a b 3 (some l.toNat) (fun _ => true) 8 false (fun t x => t.prov x.layer x.i) step (fun _ _ _ _ th => th)

/-! ## Event rings -/

/-- Base and capacity of a ring descriptor (R112), none for an ill-formed one. The header's bits 95:64 must be 0, but the spec states no
consequence of other values there: the model ignores them (R5, log entry 101). -/
def ringOf (t : Team) (d : Nat) : Option (Nat × Nat) :=
  let cap := 2 ^ (d % 16)
  if d % 16 ≤ 12 ∧ t.inScratch (d / 16 * 16) (16 + 16 * cap) = true then some (d / 16 * 16, cap) else none

/-- Offset of a record's slot (R112). -/
def slotOff (base cap n : Nat) : Nat := base + 16 + 16 * (n % cap)

/-- A record appended, or dropped when the ring is full (R112, R141). -/
def Team.append (t : Team) (base cap : Nat) (rec : Nat) : Team :=
  let tail := readNat t.scratch base 4
  let head := readNat t.scratch (base + 4) 4
  if (tail + 2 ^ 32 - head) % 2 ^ 32 = cap then
    let drop := readNat t.scratch (base + 12) 4
    { t with scratch := writeNat t.scratch (base + 12) 4 (Nat.min (drop + 1) (2 ^ 32 - 1)) }
  else
    let sc := writeNat t.scratch (slotOff base cap tail) 16 rec
    { t with scratch := writeNat sc base 4 ((tail + 1) % 2 ^ 32) }

/-- The operands of resid (R319): tile, sensor base and channels, ring, threshold; none where one is ill-formed. -/
structure ResidOps where
  tile : RTile
  sensor : Nat
  chans : Nat
  ring : Nat
  cap : Nat
  thr : Nat

def ResidOps.of (t : Team) (d sd rd thr : Nat) : Option ResidOps :=
  match RTile.of t d, ringOf t rd with
  | some tl, some (rb, cap) =>
    let ch := sd % 8 + 1
    if bits sd 3 4 = 0 ∧ t.inScratch (sd / 128 * 128) (2 * tl.w * tl.h * ch) = true ∧ t.inScratch (rb + 16 + 16 * cap) 32 = true then
      some ⟨tl, sd / 128 * 128, ch, rb, cap, thr⟩
    else none
  | _, _ => none

/-- Channels compared (R319). -/
def ResidOps.seen (r : ResidOps) : Nat := Nat.min r.chans 4

/-- The event record of a residual (R320). -/
def eventRec (h x y c prov r : Nat) : Nat :=
  let p0 := prov % 2 ^ 32
  let p1 := prov / 2 ^ 32
  let cls := if p1 = 0 then 0 else if bits p1 15 1 = 1 then 2 else 1
  let edge := if cls = 0 then 0 else bits p0 30 2
  x + y * 2 ^ 12 + h * 2 ^ 24 + cls * 2 ^ 26 + edge * 2 ^ 28 + r * 2 ^ 32 + (p0 % 2 ^ 30) * 2 ^ 64 + c * 2 ^ 94
    + bits p1 0 15 * 2 ^ 96 + bits p1 16 16 * 2 ^ 112

/-- One sample and channel (R319, R192): residual, score, event; the flags of the subtraction and of the addition. -/
def residStep (o : ResidOps) (acc : Team × Word × Nat) (h i c : Nat) : Team × Word × Nat :=
  let t := acc.1
  let a := Fmt.h16.value (readNat t.scratch (o.tile.colour h i + 2 * c) 2)
  let b := Fmt.h16.value (readNat t.scratch (o.sensor + 2 * o.tile.w * o.tile.h * c + 2 * i) 2)
  let r := roundSum .f32 .rne .narrow [a, b.neg]
  let rv := Fmt.f32.value r.bits
  let score := o.ring + 16 + 16 * o.cap + 8 * h
  let sum := roundSum .f32 .rne .narrow [Fmt.f32.value (readNat t.scratch score 4), (mulF rv rv).1]
  let t := { t with scratch := writeNat t.scratch score 4 sum.bits }
  let fl := acc.2.1 ||| r.flags ||| sum.flags
  if fCond 4 (Fmt.f32.value (r.bits % 2 ^ 31)) (Fmt.f32.value o.thr) then
    let t := { t with scratch := writeNat t.scratch (score + 4) 4 ((readNat t.scratch (score + 4) 4 + 1) % 2 ^ 32) }
    (t.append o.ring o.cap (eventRec h (i % o.tile.w) (i / o.tile.w) c (readNat t.scratch (o.tile.prov h i) 8) r.bits), fl, acc.2.2 + 1)
  else (t, fl, acc.2.2)

/-- The whole comparison, in ascending layer, y, x and channel; the team, the flags, the events. -/
def residAll (o : ResidOps) (t : Team) : Team × Word × Nat :=
  let cells := (List.range o.tile.layers).flatMap (fun h => (List.range (o.tile.w * o.tile.h)).flatMap (fun i =>
    (List.range o.seen).map (fun c => (h, i, c))))
  cells.foldl (fun acc x => residStep o acc x.1 x.2.1 x.2.2) (t, 0, 0)

/-- The block of resid. -/
def residOps (k : Iss) (a : Sel) : Option ResidOps :=
  let w (i : Nat) : Nat := (k.th.kreg (uniNo a + i)).toNat
  ResidOps.of k.team (w 0) (w 1) (w 2) (w 3)

/-- The lines that resid waits for: those of the tile, the region, the ring's header and the scores (R319). -/
def ResidOps.lines (o : ResidOps) : List Nat :=
  rangeLines o.tile.base (o.tile.layers * o.tile.size) ++ rangeLines o.sensor (2 * o.tile.w * o.tile.h * o.chans)
    ++ rangeLines o.ring 16 ++ rangeLines (o.ring + 16 + 16 * o.cap) 32

/-- The lines of the records that a comparison has appended to a ring. -/
def ResidOps.added (o : ResidOps) (before after : Team) : List Nat :=
  let tail := readNat before.scratch o.ring 4
  (List.range ((readNat after.scratch o.ring 4 + 2 ^ 32 - tail) % 2 ^ 32)).flatMap (fun i => rangeLines (slotOff o.ring o.cap (tail + i)) 16)

/-- What the oculus reads of them: colours and provenance of the tile, the channels compared, the ring's header, the scores. -/
def ResidOps.reads (o : ResidOps) : List (Nat × Nat) :=
  (List.range o.tile.layers).flatMap (fun h => [(o.tile.colour h 0, 8 * o.tile.w * o.tile.h), (o.tile.prov h 0, 8 * o.tile.w * o.tile.h)])
    ++ [(o.sensor, 2 * o.tile.w * o.tile.h * o.seen), (o.ring, 16), (o.ring + 16 + 16 * o.cap, 8 * o.tile.layers)]

/-- resid (R319): handed to the core's oculus in issue order; it retires at OCULUS_COMPARE. -/
def execResid (a : Sel) (s : State) : Res :=
  sectionForm (.resid a) s (fun k => (residOps k a).isSome) (fun _ => ⟨true, [], [(a, 4)]⟩) (fun k =>
    match residOps k a with
    | none => s
    | some o =>
      if o.lines.any (fun l => s.copyReads k (128 * l) 128) then s
      else whenPresent k s k.path o.lines (fun _ =>
        let s := modOwn k s (fun c => { c with oculus := some a })
        s.modCore k.team.die k.team.core (fun x => { x with oculus := x.oculus ++ [(k.team.tid, k.sec.role)] })))

/-- OCULUS_COMPARE: the oldest resid of a core is carried out and retires (R319, R141), or takes ECC or CMD. It waits for every line it
touches, also one that a later copy has made absent (R105). -/
def execOculusCompare (die core : Nat) (s : State) : Res :=
  .next (match (s.coreAt die core).oculus with
    | [] => s
    | (tid, role) :: r =>
      let ending (s : State) : State := s.modCore die core (fun x => { x with oculus := r })
      match { s with sel := some (.sect tid role) : State }.iss? with
      | none => ending s
      | some k =>
        let ending (s : State) : State := modOwn k (ending s) (fun c => { c with oculus := none })
        match k.sec.oculus.bind (residOps k) with
        | none => ending s
        | some o =>
          let x := residAll o k.team
          match touch s tid (o.lines ++ o.added k.team x.1) with
          | .wait s' _ => s'
          | .cmd ad c => raise k (ending s) ⟨cCMD, k.path, ad, BitVec.ofNat 32 c⟩
          | .ok =>
            unlessFailed k (ending s) k.path o.reads (fun _ =>
              let s := s.modTeam tid (fun t => { t with scratch := x.1.scratch })
              let added := (o.added k.team x.1).length
              let s := (s.pmAdd die core 7 added).pmAdd die core 8 (x.2.2 - added)
              ending (retireWith k s (k.th.orFlags x.2.1).advance)))

/-- evpop (R321, R395): the active lanes take records in order, and HEAD rises once. -/
def execEvpop (d b : Sel) (s : State) : Res :=
  let ring (k : Iss) : Option (Nat × Nat) := ringOf k.team (k.th.kreg (uniNo b)).toNat
  guardedForm (.evpop d b) s (fun k => (ring k).isSome) (fun _ => ⟨false, [(d, 4)], [(b, 1)]⟩)
    (fun k => k.th.latchPass false false k.path k.act d (fun _ => 0)) (fun k =>
    match ring k with
    | none => s
    | some (base, cap) =>
      let sc := k.team.scratch
      let head := readNat sc (base + 4) 4
      let ls := k.th.lanes k.act
      let got := Nat.min ls.length ((readNat sc base 4 + 2 ^ 32 - head) % 2 ^ 32)
      let slots := (List.range got).map (fun i => (slotOff base cap (head + i), 16))
      if s.copyReads k base 16 then s
      -- the header must be present before its counts are read
      else whenRead k s k.act [(base, 16)] (fun _ => whenRead k s k.act slots (fun _ =>
          let val (l j : Nat) : Word := match ls.findIdx? (fun x => x == l) with
            | some i => if i < got then BitVec.ofNat 32 (readNat sc (slotOff base cap (head + i) + 4 * j) 4) else if j = 0 then 0xFFFFFFFF else 0
            | none => 0
          let s := if got = 0 then s
            else s.modTeam k.team.tid (fun t => { t with scratch := writeNat t.scratch (base + 4) 4 ((head + got) % 2 ^ 32) })
          retireWith k s (k.th.putRun false k.path k.act d 4 val).advance)))

/-! ## Latent updates -/

/-- lupd (R322, R323): a step at the reducer of the record's slice, counted and side-logged as a RED. -/
def execLupd (d a b : Sel) (s : State) : Res :=
  guardedForm (.lupd d a b) s (fun _ => true) (fun _ => ⟨true, [], [(d, 1), (a, 2), (b, 1)]⟩) (fun k => k.th) (fun k =>
    let base := (k.th.kpair (uniNo a)).toNat
    let elem (l : Nat) : Elem :=
      let i := (k.th.src32 l b).toNat
      let ad := (base + 16 * (i % 2 ^ 30)) % 2 ^ 64
      { lane := l, a := ad, bad := decide (addrClass ad ≠ 0), data := (k.th.src32 l d).setWidth 64, data2 := BitVec.ofNat 64 (i / 2 ^ 30) }
    storeForm k s { kind := .lupd, ty := 0, size := 16, scope := 0, rd := 0, lanes := [], atomic := false } ((k.th.lanes k.act).map elem) [])

end Sys2Proof.Machine
end

