-- ==== Sys2Proof/Machine/Sample.lean ====
section
/-!
DEFINITION. Sampling textures and scenes: tex and texg (R314 to R316), the nodes and records of a scene (R175 to R177), rayq (R317)
and trace (R318).
-/

namespace Sys2Proof.Machine

/-! ## Several loads by one lane -/

/-- Why a lane's loads stop: an element that waits or faults. -/
inductive Stop where
  | at_ (e : Elem) (r : Ready)

/-- A lane's reads so far. The host's answers are told apart by lane and address. -/
abbrev Walk (α : Type) := Except Stop (α × State)

/-- One load of a lane; a fault names `node` where it is given (R177). -/
def readEl (k : Iss) (l size a : Nat) (node : Option Nat) (s : State) : Walk Nat :=
  let e : Elem := { lane := l + 1024 * a, a := a, bad := false, data := 0, data2 := 0 }
  let back : Elem := { e with lane := l }
  match (s.readyAll k .load none size [e]).head? with
  | none => .ok (0, s)
  | some (_, r) => match r with
    | .fault c ad w => .error (.at_ back (.fault c (if c = cWATCH ∨ c = cECC then ad else ((node.map (BitVec.ofNat 64)).getD ad)) w))
    | .spot .. | .val _ | .got _ =>
      let v := s.loadAt k size r
      .ok (v.1 % 2 ^ (8 * size), v.2)
    | r => .error (.at_ e r)

/-- Several loads in order, as a list. -/
def readEls (k : Iss) (l size : Nat) (node : Option Nat) : List Nat → State → Walk (List Nat)
  | [], s => .ok ([], s)
  | a :: r, s =>
    match readEl k l size a node s with
    | .error e => .error e
    | .ok (v, s) => match readEls k l size node r s with
      | .error e => .error e
      | .ok (vs, s) => .ok (v :: vs, s)

/-- `n` 8-byte words from an address on, as one number (R177). -/
def readWords (k : Iss) (l a n : Nat) (s : State) : Walk Nat :=
  match readEls k l 8 (some a) ((List.range n).map (fun i => a + 8 * i)) s with
  | .error e => .error e
  | .ok (vs, s) => .ok (ofBytes (vs.flatMap (toBytes 8)), s)

/-- The lanes of the instruction, each with its reads, in order. -/
def walkLanes {α : Type} (ls : List Nat) (f : Nat → State → Walk α) (s : State) : List (Nat × Except Stop α) × State :=
  ls.foldl (fun acc l => match f l acc.2 with
    | .ok (v, s) => (acc.1 ++ [(l, .ok v)], s)
    | .error e => (acc.1 ++ [(l, .error e)], acc.2)) ([], s)

/-- The loads of an instruction: a wait, or what each lane has, with the faults of those that faulted. -/
def settleWalk {α : Type} (k : Iss) (s : State) (size : Nat) (r : List (Nat × Except Stop α) × State)
    (go : State → List (Nat × α) → List (Elem × Ready) → State) : State :=
  let stops := r.1.filterMap (fun x => match x.2 with
    | .error (.at_ e y) => some (e, y)
    | .ok _ => none)
  let fault (x : Elem × Ready) : Bool := match x.2 with
    | .fault .. => true
    | _ => false
  let op : MemOp := { kind := .store, ty := 0, size := size, scope := 0, rd := 0, lanes := [], atomic := false }
  match waitsFor k s op .load (stops.filter (fun x => !fault x)) (stops.filter fault) with
  | some s' => s'
  | none => go r.2 (r.1.filterMap (fun x => match x.2 with
      | .ok v => some (x.1, v)
      | _ => none)) (stops.filter fault)

/-- The instruction's loads are over: what the host and page homes answered has been used. -/
def memOver (k : Iss) (s : State) : State := hostOver k (s.homesServed k.team.tid k.homeKey)

/-- The end of a form that writes a run of registers in the lanes that completed (R77, R215). -/
def runEnd (k : Iss) (s : State) (n : Bool) (d : Sel) (c : Nat) (oks : List (Nat × List Nat)) (bad : List (Elem × Ready)) : State :=
  let val (l i : Nat) : Word := BitVec.ofNat 32 (((oks.find? (fun x => x.1 == l)).map (fun x => x.2.getD i 0)).getD 0)
  let m := maskOf (oks.map Prod.fst)
  let th := if bad.isEmpty then k.th.putRun n k.path k.act d c val
    else (List.range c).foldl (fun t i => t.writeBack n false m (BitVec.ofNat 8 (d.toNat + i)) (fun l => (val l i).setWidth 64)) k.th
  accessEnd k s th bad

/-! ## Textures -/

/-- A texture descriptor (R314). -/
structure Texture where
  base : Nat
  aniso : Nat
  filter : Nat
  clampEdge : Bool
  fmt : Nat
  levels : Nat
  lh : Nat
  lw : Nat

/-- The fields of 16 bytes, none where ill-formed (R314). -/
def Texture.of (v : Nat) : Option Texture :=
  let t : Texture := ⟨bits v 64 64, bits v 17 5, bits v 15 2, bits v 14 1 == 1, bits v 12 2, bits v 8 4, bits v 4 4, bits v 0 4⟩
  if bits v 22 42 = 0 ∧ 1 ≤ t.aniso ∧ t.aniso ≤ 16 ∧ t.fmt ≠ 3 ∧ t.lh ≤ 12 ∧ t.lw ≤ 12 ∧ 1 ≤ t.levels
      ∧ t.levels ≤ 1 + Nat.max t.lw t.lh ∧ t.base % 8 = 0 ∧ (addrClass t.base = 0 ∨ addrClass t.base = 1 ∨ addrClass t.base = 3)
  then some t else none

def Texture.w (t : Texture) (m : Nat) : Nat := 2 ^ (t.lw - m)
def Texture.h (t : Texture) (m : Nat) : Nat := 2 ^ (t.lh - m)
/-- Bytes of a texel. -/
def Texture.bytes (t : Texture) : Nat := if t.fmt = 0 then 8 else if t.fmt = 1 then 2 else 4
/-- An index wrapped or clamped to a level's size. -/
def Texture.wrap (t : Texture) (n : Nat) (i : Int) : Nat :=
  if t.clampEdge then (Min.min (Max.max i 0) ((n : Int) - 1)).toNat else (i % (n : Int)).toNat
/-- The generic address of a texel (R314). -/
def Texture.addr (t : Texture) (m : Nat) (i j : Int) : Nat :=
  let lower := (List.range m).foldl (fun a x => a + t.w x * t.h x * t.bytes) 0
  (t.base + lower + (t.wrap (t.h m) j * t.w m + t.wrap (t.w m) i) * t.bytes) % 2 ^ 64

/-- The value of a channel of a texel (R314, R315): absent colours read 0, absent alpha 1. -/
def Texture.chan (t : Texture) (v c : Nat) : FVal :=
  if t.fmt = 0 then Fmt.h16.value (bits v (16 * c) 16)
  else if c = 0 then (if t.fmt = 1 then Fmt.h16.value v else Fmt.f32.value v)
  else if c = 3 then .fin false Q.one else .fin false Q.zero

/-- A texel that a filter reads: weight, level, column, row. -/
structure Tap where
  wt : Q
  m  : Nat
  i  : Int
  j  : Int

/-- A rational rounded down to a multiple of 2^−8 (R315). -/
def q8f (x : Q) : Q := Q.make (x.mul (Q.ofInt 256)).floor 256

/-- The four texels of bilerp, scaled (R315). -/
def Texture.bilerp (t : Texture) (sc : Q) (m : Nat) (u v : Q) : List Tap :=
  let x := (u.mul (Q.ofInt (t.w m))).sub Q.half
  let y := (v.mul (Q.ofInt (t.h m))).sub Q.half
  let a := q8f (x.sub (Q.ofInt x.floor))
  let b := q8f (y.sub (Q.ofInt y.floor))
  let na := Q.one.sub a
  let nb := Q.one.sub b
  [⟨sc.mul (na.mul nb), m, x.floor, y.floor⟩, ⟨sc.mul (a.mul nb), m, x.floor + 1, y.floor⟩,
   ⟨sc.mul (na.mul b), m, x.floor, y.floor + 1⟩, ⟨sc.mul (a.mul b), m, x.floor + 1, y.floor + 1⟩]

/-- 256 × q(log2 r), for the square `r2` of a positive r (R315); none for r = 0. -/
def log256 (r2 : Q) : Option Int := if r2.isZero then none else some (Q.log2 ⟨r2.num ^ 128, r2.den ^ 128⟩)

/-- lvl of R315 on a level in 256ths; −∞ gives 0. -/
def Texture.lvl (t : Texture) (x : Option Int) : Nat :=
  match x with
  | none => 0
  | some n => (Min.min (Max.max ((n + 128) / 256) 0) ((t.levels : Int) - 1)).toNat

/-- The texels of a sample with their weights (R315): coordinates, x derivatives, y derivatives. -/
def Texture.taps (t : Texture) (u v ux vx uy vy : Q) : List Tap :=
  let sq (a b : Q) : Q :=
    let p := a.mul (Q.ofInt (t.w 0))
    let q := b.mul (Q.ofInt (t.h 0))
    (p.mul p).add (q.mul q)
  let rx := sq ux vx
  let ry := sq uy vy
  let big := rx.max ry
  let small := rx.min ry
  match t.filter with
  | 0 =>
    let m := t.lvl (log256 big)
    [⟨Q.one, m, (u.mul (Q.ofInt (t.w m))).floor, (v.mul (Q.ofInt (t.h m))).floor⟩]
  | 1 => t.bilerp Q.one (t.lvl (log256 big)) u v
  | 2 =>
    let lam := log256 big
    let m := match lam with
      | none => 0
      | some n => (Min.min (Max.max (n / 256) 0) ((t.levels : Int) - 1)).toNat
    let f : Q := match lam with
      | none => Q.zero
      | some n => if 0 ≤ n ∧ m + 1 < t.levels then Q.make (n % 256) 256 else Q.zero
    t.bilerp (Q.one.sub f) m u v ++ (if f.isZero then [] else t.bilerp f (m + 1) u v)
  | _ =>
    let n := if small.isZero then t.aniso
      else ((List.range t.aniso).find? (fun i => big.le ((Q.ofInt ((i + 1) * (i + 1) : Nat)).mul small))).elim t.aniso (· + 1)
    let m := t.lvl (log256 (big.div (Q.ofInt (n * n : Nat))))
    let du := if rx.lt ry then uy else ux
    let dv := if rx.lt ry then vy else vx
    (List.range n).flatMap (fun (i : Nat) =>
      let c := (Q.make ((2 * i + 1 : Nat) : Int) (2 * n)).sub Q.half
      t.bilerp (Q.make 1 n) m (u.add (c.mul du)) (v.add (c.mul dv)))

/-- An f32 pattern of a lane as a rational. -/
def laneQ (k : Iss) (l : Nat) (a : Sel) (i : Nat) : Option Q :=
  match Fmt.f32.value (k.th.vreg l (a.toNat + i)).toNat with
  | .fin n q => some (FVal.fin n q).toQ
  | _ => none

/-- All of a list, or none. -/
def allSome {α : Type} : List (Option α) → Option (List α)
  | [] => some []
  | none :: _ => none
  | some x :: r => (allSome r).map (x :: ·)

/-- Rounding a channel to f32 under RNE, without flags (R315). -/
def chanOut (v : FVal) : Nat := (putF .f32 .rne .narrow false v).bits

/-- A filtered channel: texels of weight 0 count for nothing (R315). -/
def Texture.filtered (t : Texture) (c : Nat) (xs : List (Tap × Nat)) : Nat :=
  chanOut (sumF .rne ((xs.filter (fun x => !x.1.wt.isZero)).map (fun x => (mulF (.fin false x.1.wt) (t.chan x.2 c)).1)))

/-- What a sample gives when a coordinate or derivative is not finite (R315): the canonical NaN in the channels of the format. -/
def Texture.nans (t : Texture) : List Nat :=
  if t.fmt = 0 then List.replicate 4 Fmt.f32.nan else [Fmt.f32.nan, 0, 0, 0x3F800000]

/-- What tex and texg share (R314 to R316): the descriptor, then each lane's texels. -/
def texForm (ins : Instr) (n : Bool) (d a b : Sel) (c : Nat) (s : State) (lane : Iss → Texture → Nat → State → Walk (List Nat)) : Res :=
  issued s (fun k =>
    let off := (k.th.kreg (uniNo b)).toNat
    if !staticOk ins then raise k s ⟨cOPND, if k.act = 0 then k.path else k.act, 0, wordOf ins⟩
    else if k.act = 0 then retireWith k s (k.th.latchPass n false k.path k.act d (fun _ => 0)).advance
    else if off % 16 ≠ 0 ∨ k.team.inScratch off 16 = false then raise k s ⟨cOPND, k.act, coreAddr k.team off, wordOf ins⟩
    else whenRecord k s k.act (regFault k.th k.act ⟨n, [(d, 4)], [(a, c), (b, 1)]⟩) [(off, 16)] (fun _ =>
      match Texture.of (readNat k.team.scratch off 16) with
      | none => raise k s ⟨cOPND, k.act, coreAddr k.team off, wordOf ins⟩
      | some t =>
        match regFault k.th k.act ⟨n, [(d, 4)], [(a, c), (b, 1)]⟩ with
        | some x => raise k s x
        | none => settleWalk k s t.bytes (walkLanes (k.th.lanes k.act) (lane k t) s) (fun s oks bad => runEnd k s n d 4 oks bad)))

/-- tex (R315). -/
def execTex (n : Bool) (d a b : Sel) (s : State) : Res :=
  texForm (.tex n d a b) n d a b 6 s (fun k t l s =>
    match allSome ((List.range 6).map (laneQ k l a)) with
    | some [u, v, ux, vx, uy, vy] =>
      let taps := t.taps u v ux vx uy vy
      match readEls k l t.bytes none (taps.map (fun p => t.addr p.m p.i p.j)) s with
      | .error e => .error e
      | .ok (vs, s) =>
        let one (c : Nat) : Nat := if t.fmt = 0 ∨ c = 0 then t.filtered c (taps.zip vs) else if c = 3 then 0x3F800000 else 0
        .ok ((List.range 4).map one, s)
    | _ => .ok (t.nans, s))

/-- texg (R316): each texel's channel exactly as f32. -/
def execTexg (n : Bool) (d a b : Sel) (s : State) : Res :=
  texForm (.texg n d a b) n d a b 4 s (fun k t l s =>
    let m := Nat.min (k.th.vreg l (a.toNat + 2)).toNat (t.levels - 1)
    let c := (k.th.vreg l (a.toNat + 3)).toNat % 4
    match laneQ k l a 0, laneQ k l a 1 with
    | some u, some v =>
      match readEls k l t.bytes none ((t.bilerp Q.one m u v).map (fun p => t.addr p.m p.i p.j)) s with
      | .error e => .error e
      | .ok (vs, s) => .ok (vs.map (fun x => if t.fmt = 2 ∧ c = 0 then x else chanOut (t.chan x c)), s)
    | _, _ => .ok (List.replicate 4 (t.nans.getD c 0), s))

/-! ## Rays and scenes -/

/-- A ray (R317). -/
structure Ray where
  o : List Q
  d : List Q
  tmin : Q
  tmax : Q

/-- The ray of eight registers; none for one that misses as a whole (R317). -/
def Ray.of (k : Iss) (l : Nat) (a : Sel) : Option Ray :=
  match allSome ((List.range 8).map (laneQ k l a)) with
  | some [x, y, z, dx, dy, dz, t0, t1] =>
    if (dx.isZero && dy.isZero && dz.isZero) || t1.lt t0 then none else some ⟨[x, y, z], [dx, dy, dz], t0, t1⟩
  | _ => none

/-- A node (R175). -/
structure Node where
  v : Nat
  deriving DecidableEq

def Node.origin (n : Node) (x : Nat) : Nat := bits n.v (32 * x) 32
def Node.exp (n : Node) (x : Nat) : Int := sext (bits n.v (96 + 8 * x) 8) 8
def Node.qlo (n : Node) (c x : Nat) : Nat := bits n.v (128 + 48 * c + 8 * x) 8
def Node.qhi (n : Node) (c x : Nat) : Nat := bits n.v (128 + 48 * c + 24 + 8 * x) 8
def Node.childBase (n : Node) : Nat := bits n.v 320 64
def Node.child (n : Node) (c : Nat) : Nat := bits n.v (384 + 32 * c) 32
def Node.kind (n : Node) (c : Nat) : Nat := bits (n.child c) 30 2
def Node.count (n : Node) (c : Nat) : Nat := bits (n.child c) 24 6
def Node.addr (n : Node) (c : Nat) : Nat := n.childBase + 64 * bits (n.child c) 0 24

/-- A well-formed node (R175, R177). -/
def Node.ok (n : Node) : Bool :=
  bits n.v 120 8 == 0 && bits n.childBase 0 6 == 0 && bits n.childBase 49 15 == 0
    && (List.range 3).all (fun x => (laneFinite (n.origin x)))
    && (List.range 4).all (fun c => n.kind c == 0 ||
      ((List.range 3).all (fun x => decide (n.qlo c x ≤ n.qhi c x)) && (if n.kind c = 1 then n.count c == 0 else n.count c != 0)))
where
  laneFinite (v : Nat) : Bool := match Fmt.f32.value v with
    | .fin _ _ => true
    | _ => false

/-- An end of a decoded box on an axis (R175): rounded down or up to f32, none where that is an infinity. -/
def Node.edge (n : Node) (x q : Nat) (up : Bool) : Option Q :=
  let v := (Fmt.f32.value (n.origin x)).toQ.add ((Q.ofInt q).mul (Q.pow2 (n.exp x)))
  match Fmt.f32.value (putF .f32 (if up then .rup else .rdn) .narrow false (FVal.ofQ false v)).bits with
  | .fin s m => some (FVal.fin s m).toQ
  | _ => none

/-- The ray's closed interval within a child's box: none when it does not meet it (R317). -/
def Node.meets (n : Node) (c : Nat) (r : Ray) : Option (Q × Q) :=
  (List.range 3).foldl (fun (acc : Option (Q × Q)) x =>
    let o := r.o.getD x Q.zero
    let d := r.d.getD x Q.zero
    let lo := n.edge x (n.qlo c x) false
    let hi := n.edge x (n.qhi c x) true
    match acc with
    | none => none
    | some (a, b) =>
      if d.isZero then
        if (lo.elim false (fun l => o.lt l)) || (hi.elim false (fun h => h.lt o)) then none else some (a, b)
      else
        let near := if d.isNeg then hi else lo
        let far := if d.isNeg then lo else hi
        let a' := near.elim a (fun e => a.max ((e.sub o).div d))
        let b' := far.elim b (fun e => b.min ((e.sub o).div d))
        if b'.lt a' then none else some (a', b')) (some (r.tmin, r.tmax))

/-- Vectors of three. -/
def vsub (a b : List Q) : List Q := List.zipWith Q.sub a b
def vdot (a b : List Q) : Q := Q.sum (List.zipWith Q.mul a b)
def vcross (a b : List Q) : List Q :=
  let g (l : List Q) (i : Nat) : Q := l.getD i Q.zero
  let m (i j : Nat) : Q := ((g a i).mul (g b j)).sub ((g a j).mul (g b i))
  [m 1 2, m 2 0, m 0 1]

/-- The hit of a triangle (R317): t, u, v. -/
def Ray.hits (r : Ray) (v0 v1 v2 : List Q) : Option (Q × Q × Q) :=
  let e1 := vsub v1 v0
  let e2 := vsub v2 v0
  let p := vcross r.d e2
  let det := vdot e1 p
  if det.isZero then none
  else
    let w := vsub r.o v0
    let q := vcross w e1
    let u := (vdot w p).div det
    let v := (vdot r.d q).div det
    let t := (vdot e2 q).div det
    if u.isNeg || v.isNeg || Q.one.lt (u.add v) || t.lt r.tmin || r.tmax.lt t then none else some (t, u, v)

/-- The best hit so far: its key (R317, R318), barycentrics, opacity, and a procedural record's routine and user word. -/
structure Win where
  t : Q
  prim : Nat
  key : Nat
  u : Q
  v : Q
  opaque_ : Bool
  proc : Option (Nat × Nat)

/-- The closer of two: least t, then lowest primitive identifier, then lowest address (R317, R318). -/
def Win.best (a : Option Win) (b : Win) : Option Win :=
  match a with
  | none => some b
  | some x => if b.t.lt x.t || (b.t.eq x.t && (decide (b.prim < x.prim) || (b.prim == x.prim && decide (b.key < x.key)))) then some b else some x

/-- A node or record at an address is ill-formed (R177). -/
def illNode (ins : Instr) (l a : Nat) : Stop :=
  .at_ { lane := l, a := a, bad := false, data := 0, data2 := 0 } (.fault cOPND (BitVec.ofNat 64 a) (wordOf ins))

/-- The alignment and window of a node or record (R175, R94). -/
def nodePlace (l a al : Nat) : Option Stop :=
  let e : Elem := { lane := l, a := a, bad := false, data := 0, data2 := 0 }
  if addrClass a ≠ 0 ∨ addrZeros a = false then some (.at_ e (.fault cSPACE (BitVec.ofNat 64 a) (memAux .load 8)))
  else if a % al ≠ 0 then some (.at_ e (.fault cALIGN (BitVec.ofNat 64 a) (memAux .load 8)))
  else none

/-- The triangle records of a leaf (R176): `n` left from an address on. -/
def triLeaf (k : Iss) (ins : Instr) (l : Nat) (r : Ray) : Nat → Nat → Option Win → State → Walk (Option Win)
  | 0, _, w, s => .ok (w, s)
  | n + 1, a, w, s =>
    match nodePlace l a 64 with
    | some e => .error e
    | none =>
      match readWords k l a 8 s with
      | .error e => .error e
      | .ok (v, s) =>
        if bits v 318 2 ≠ 0 ∨ bits v 321 31 ≠ 0 ∨ bits v 352 160 ≠ 0 then .error (illNode ins l a)
        else
          let vert (i : Nat) : Option (List Q) := allSome ((List.range 3).map (fun x =>
            match Fmt.f32.value (bits v (96 * i + 32 * x) 32) with
            | .fin sg q => some (FVal.fin sg q).toQ
            | _ => none))
          let w' := match vert 0, vert 1, vert 2 with
            | some v0, some v1, some v2 => match r.hits v0 v1 v2 with
              | some (t, x, y) => Win.best w ⟨t, bits v 288 30, a, x, y, bits v 320 1 == 1, none⟩
              | none => w
            | _, _, _ => w
          triLeaf k ins l r n (a + 64) w' s

/-- The procedural records of a leaf whose box the ray enters at `t` (R176, R318). -/
def procLeaf (k : Iss) (ins : Instr) (l : Nat) (t : Q) : Nat → Nat → Option Win → State → Walk (Option Win)
  | 0, _, w, s => .ok (w, s)
  | n + 1, a, w, s =>
    match nodePlace l a 16 with
    | some e => .error e
    | none =>
      match readWords k l a 2 s with
      | .error e => .error e
      | .ok (v, s) =>
        if bits v 30 2 ≠ 0 then .error (illNode ins l a)
        else procLeaf k ins l t n (a + 16) (Win.best w ⟨t, bits v 0 30, a + 8, Q.zero, Q.zero, false, some (bits v 32 32, bits v 64 64)⟩) s

/-- The leaves and inner children of a node that the ray meets: the winner and the nodes to visit (R317). -/
def nodeKids (k : Iss) (ins : Instr) (l : Nat) (r : Ray) (proc : Bool) (n : Node) : List Nat → Option Win → List Nat → State → Walk (Option Win × List Nat)
  | [], w, todo, s => .ok ((w, todo), s)
  | c :: cs, w, todo, s =>
    match n.kind c, n.meets c r with
    | 0, _ | _, none => nodeKids k ins l r proc n cs w todo s
    | 1, some _ => nodeKids k ins l r proc n cs w (todo ++ [n.addr c]) s
    | 2, some _ => match triLeaf k ins l r (n.count c) (n.addr c) w s with
      | .error e => .error e
      | .ok (w, s) => nodeKids k ins l r proc n cs w todo s
    | _, some (t, _) =>
      if !proc then nodeKids k ins l r proc n cs w todo s
      else match procLeaf k ins l t (n.count c) (n.addr c) w s with
        | .error e => .error e
        | .ok (w, s) => nodeKids k ins l r proc n cs w todo s

/-- The traversal of one lane (R317): at most `fuel` nodes, `last` the one read last. -/
def traverse (k : Iss) (ins : Instr) (l : Nat) (r : Ray) (proc : Bool) : Nat → Nat → List Nat → Option Win → State → Walk (Option Win)
  | _, _, [], w, s => .ok (w, s)
  | 0, last, _ :: _, _, _ => .error (illNode ins l last)
  | fuel + 1, _, a :: todo, w, s =>
    match nodePlace l a 64 with
    | some e => .error e
    | none =>
      match readWords k l a 8 s with
      | .error e => .error e
      | .ok (v, s) =>
        let n : Node := ⟨v⟩
        if !n.ok then .error (illNode ins l a)
        else match nodeKids k ins l r proc n [0, 1, 2, 3] w [] s with
          | .error e => .error e
          | .ok ((w, kids), s) => traverse k ins l r proc fuel a (kids ++ todo) w s

/-- Nodes that a lane may visit (R317). -/
abbrev maxNodes : Nat := 2 ^ 20

/-- A lane's query (R317, R318): none for a miss. -/
def rayLane (k : Iss) (ins : Instr) (a : Sel) (root : Nat) (proc : Bool) (l : Nat) (s : State) : Walk (Option Win) :=
  match Ray.of k l a with
  | none => .ok (none, s)
  | some r => traverse k ins l r proc maxNodes root [root] none s

/-- The four words of a hit or a miss (R317, R318). -/
def winWords (w : Option Win) : List Nat :=
  match w with
  | none => [0x7F800000, 0, 0, 0]
  | some x =>
    let t := chanOut (FVal.ofQ false x.t)
    match x.proc with
    | none => [t, chanOut (FVal.ofQ false x.u), chanOut (FVal.ofQ false x.v), 2 ^ 31 + b2n x.opaque_ * 2 ^ 30 + x.prim]
    | some (_, u) => [t, u % 2 ^ 32, u / 2 ^ 32, 2 ^ 31 + Nat.lor (2 ^ 29) x.prim]

/-- rayq (R317). -/
def execRayq (n : Bool) (d a b : Sel) (s : State) : Res :=
  let ins : Instr := .rayq n d a b
  guardedForm ins s (fun _ => true) (fun _ => ⟨n, [(d, 4)], [(a, 8), (b, 2)]⟩)
    (fun k => k.th.latchPass n false k.path k.act d (fun _ => 0)) (fun k =>
    let root := (k.th.kpair (uniNo b)).toNat
    settleWalk k s 8 (walkLanes (k.th.lanes k.act) (rayLane k ins a root false) s) (fun s oks bad =>
      runEnd k s n d 4 (oks.map (fun x => (x.1, winWords x.2))) bad))

/-! ## trace -/

/-- The header of a routine table (R318). -/
structure TraceHead where
  preg : Nat
  pstk : Nat
  count : Nat

/-- A well-formed header. -/
def TraceHead.of (v : Nat) : Option TraceHead :=
  let h : TraceHead := ⟨bits v 0 8, bits v 8 16, bits v 24 16⟩
  if h.preg ≤ 32 ∧ h.pstk % 16 = 0 ∧ 2 ≤ h.count ∧ bits v 40 24 = 0 then some h else none

/-- Call entries pushed by trace in which a lane is counted (R318); the entry that its own lanes execute again is not one. -/
def traceDepth (k : Iss) (l : Nat) : Nat :=
  let st := if k.rec?.isNone && reuses k .call then k.sec.stack.drop 1 else k.sec.stack
  (st.filter (fun e => e.kind == .call && e.traced && e.full.getLsbD l)).length
    + (match k.rec? with
      | some (_, _, r) => (r.calls.filter (fun c => c.2)).length
      | none => 0)

/-- The routine of a lane (R318). -/
def routineOf (w : Option Win) : Nat :=
  match w with
  | none => 1
  | some x => match x.proc with
    | none => 0
    | some (i, _) => i

/-- A fault of some lanes of trace: the others are set aside, exactly as for a transfer (R251, R318). A watchpoint with ACT 1 holds the
section before the instruction, no lane of it completed (R91). -/
def traceFault (k : Iss) (s : State) (x : Trap) : State :=
  if !mayTrap k s then s
  else if watchHolds k s x then raiseAccess k s { x with lanes := k.act }
  else match k.rec? with
  | some _ => raiseSet k s .ret x
  | none =>
    let e := callEntry k.th.pc k.th.path none true
    let push (_ : Unit) : State := raiseSet k (setAside k s e (k.act &&& ~~~x.lanes) x.lanes true) .ret x
    if reuses k .call then push () else spilled k s .store (k.sec.stack.length + 1) k.act push

/-- The call of trace (R318, R250): the lanes of the lowest target take their hit records and go; the others execute trace again. -/
def traceCall (k : Iss) (s : State) (n : Bool) (a : Sel) (wins : List (Nat × Option Win)) (targets : List (Nat × Nat)) : State :=
  let t := (least (targets.map Prod.snd)).getD 0
  let set := maskOf ((targets.filter (fun x => x.2 == t)).map Prod.fst)
  let tg := BitVec.ofNat 64 t
  match budgetWord k s tg set with
  | .error (none, s) => waitOn k s .heldLoad .again
  | .error (some f, s) => traceFault k (memOver k s) f
  | .ok s =>
    let s := memOver k s
    let val (l i : Nat) : Word := BitVec.ofNat 32 ((winWords (((wins.find? (fun x => x.1 == l)).map Prod.snd).getD none)).getD i 0)
    let th := { k.th.putRun n k.path set a 4 val with pc := tg }
    match k.rec? with
    | some _ => retireWith k (modRec k s (fun r => { r with calls := (k.th.pc + 4, true) :: r.calls })) th
    | none =>
      let e := callEntry k.th.pc k.th.path none true
      let push (_ : Unit) : State := retireWith k (setAside k s e (k.act &&& ~~~set) set false) { th with path := set }
      if reuses k .call then push () else spilled k s .store (k.sec.stack.length + 1) k.act push

/-- The lanes for which a test holds. -/
def lanesWhere (k : Iss) (f : Nat → Bool) : Mask := maskOf ((k.th.lanes k.act).filter f)

/-- trace (R318). -/
def execTrace (n : Bool) (d a b : Sel) (s : State) : Res :=
  let ins : Instr := .trace n d a b
  issued s (fun k =>
    let root := (k.th.kpair (uniNo b)).toNat
    let table := (k.th.kpair (uniNo b + 2)).toNat
    let opnd (m : Mask) (ad : DWord) : State := raise k s ⟨cOPND, m, ad, wordOf ins⟩
    let room : Bool := match k.rec? with
      | some (_, _, r) => decide (r.calls.length < 8)
      | none => reuses k .call || !stackFull k.sec
    if !staticOk ins then opnd (if k.act = 0 then k.path else k.act) 0
    else if k.act = 0 then retireWith k s (k.th.latchPass n false k.path k.act a (fun _ => 0)).advance
    else if !room then opnd k.act 0
    else if addrClass table ≠ 0 ∨ addrZeros table = false ∨ table % 8 ≠ 0 then opnd k.act 0
    else
      let low := (k.th.lowest k.act).getD 0
      let head := walkLanes [low] (fun l s => readEl k l 8 table none s) s
      let stops : Bool := head.1.any (fun x => match x.2 with
        | .ok _ => false
        | .error _ => true)
      match (if stops then regFault k.th k.act ⟨n, [(a, 4)], [(a, 9), (b, 4)]⟩ else none) with
      | some x => raise k s x
      | none =>
      settleWalk k s 8 head (fun s heads bad =>
        match trapOf bad with
        | some x => raiseAccess k (memOver k s) { x with lanes := k.act }
        | none =>
        match heads.head?.bind (fun x => TraceHead.of x.2) with
        | none => raise k (memOver k s) ⟨cOPND, k.act, 0, wordOf ins⟩
        | some h =>
          if 192 < d.toNat + h.preg then raise k (memOver k s) ⟨cOPND, k.act, 0, wordOf ins⟩
          else match regFault k.th k.act ⟨n, [(a, 4)], [(a, 9), (b, 4)] ++ (if h.preg = 0 then [] else [(d, h.preg)])⟩ with
          | some x => raise k (memOver k s) x
          | none =>
            let trd := match s.launch? k.team.lid with
              | some l => l.pkt.trdepth
              | none => 0
            let asked (l : Nat) : Nat := (k.th.vreg l (a.toNat + 8)).toNat
            let deep := lanesWhere k (fun l => decide (trd ≤ traceDepth k l))
            let beyond := lanesWhere k (fun l => decide (4 * h.preg + h.pstk < asked l) || decide (k.team.privSize < (traceDepth k l + 1) * h.pstk))
            if deep ≠ 0 then traceFault k (memOver k s) ⟨cTRACE_DEPTH, deep, 0, BitVec.ofNat 32 trd⟩
            else if beyond ≠ 0 then traceFault k (memOver k s) ⟨cTRACE_PAYLOAD, beyond, 0, BitVec.ofNat 32 (asked ((k.th.lowest beyond).getD 0))⟩
            else settleWalk k s 8 (walkLanes (k.th.lanes k.act) (rayLane k ins a root true) s) (fun s wins bad =>
              match trapOf bad with
              | some x => traceFault k (memOver k s) x
              | none =>
                let lost := maskOf ((wins.filter (fun x => decide (h.count ≤ routineOf x.2))).map Prod.fst)
                if lost ≠ 0 then traceFault k (memOver k s) ⟨cOPND, lost, 0, wordOf ins⟩
                else
                  let entry (l : Nat) (s : State) : Walk Nat := match wins.find? (fun x => x.1 == l) with
                    | some x => readEl k l 8 (table + 8 + 8 * routineOf x.2) none s
                    | none => .ok (0, s)
                  settleWalk k s 8 (walkLanes (k.th.lanes k.act) entry s) (fun s targets bad =>
                    match trapOf bad with
                    | some x => traceFault k (memOver k s) x
                    | none => traceCall k s n a wins targets))))

end Sys2Proof.Machine
end

