-- ==== Sys2Proof/Machine/Sync.lean ====
section
/-!
DEFINITION. Waiting on counters (R182, R335), transaction barriers (R183 to R187, R336), team and gang barriers (R188 to R190,
R337), backoff (R338).
-/

namespace Sys2Proof.Machine

/-- waitc (R335, R182). -/
def execWaitc (c : BitVec 3) (t : BitVec 6) (s : State) : Res :=
  sectionForm (.waitc c t) s (fun _ => true) (fun _ => ⟨true, [], []⟩) (fun k =>
    if counter k.sec c.toNat ≤ t.toNat then pass k s else waitOn k s .waitc (.counter c.toNat t.toNat))

/-! ## Transaction barriers -/

/-- A 32-bit operand of a form that acts once for the section (R328). -/
def once (k : Iss) (x : Sel) : Nat := (k.th.srcOnce k.path x).toNat

/-- The offset of the barrier that a uniform operand names. -/
def tbOff (k : Iss) (x : Sel) : Nat := (k.th.kreg (uniNo x)).toNat

/-- An older tbarrive of the section at the barrier still waits for its release (R336). -/
def tbBusy (k : Iss) (off : Nat) : Bool := k.sec.releases.any (fun r => r.step == .tbarrive off)

/-- tbinit (R336, R184). -/
def execTbinit (d a b : Sel) (s : State) : Res :=
  sectionForm (.tbinit d a b) s (fun k => k.rec?.isSome ||
      (decide (tbOff k d % 16 = 0) && k.team.inScratch (tbOff k d) 16 && decide (once k a ≠ 0) && decide (once k a < 2 ^ 20) && decide (once k b < 2 ^ 31)))
    (fun _ => ⟨true, [], [(d, 1), (a, 1), (b, 1)]⟩) (fun k =>
    if tbBusy k (tbOff k d) then s
    else whenPresent k s k.path (rangeLines (tbOff k d) 16) (fun _ =>
      let x : TBar := { phase := 0, penda := once k a, pends := once k b, expa := once k a, exps := once k b, init := true
                        cerr := false, serr := false, aerr := false, resv := 0 }
      (pass k s).modTeam k.team.tid (fun t => { t.setTbar (tbOff k d) x with cerrs := tset none t.cerrs (tbOff k d) none })))

/-- The barrier that a form names and reads: OPND where it is none, with its generic address (R187); registers; then the effect. -/
def tbForm (ins : Instr) (s : State) (a : Sel) (srcs : List (Sel × Nat)) (dst : List (Sel × Nat)) (lantern : Bool) (ok : Iss → Bool)
    (eff : Iss → Nat → TBar → State) : Res :=
  issued s (fun k =>
    let u : Uses := ⟨dst.isEmpty, dst, (a, 1) :: srcs⟩
    let off := tbOff k a
    if !staticOk ins then raise k s ⟨cOPND, if k.act = 0 then k.path else k.act, 0, wordOf ins⟩
    else if k.path = 0 then pass k s
    else if k.rec?.isSome && !lantern then raise k s ((regFault k.th k.path (usesUnlatched k u)).getD ⟨cUNIFORM, k.path, 0, 0⟩)
    else if off % 16 ≠ 0 ∨ ok k = false then raise k s ⟨cOPND, k.path, 0, wordOf ins⟩
    else if !k.team.inScratch off 16 then raise k s ⟨cOPND, k.path, coreAddr k.team off, wordOf ins⟩
    else whenRecord k s k.path (regFault k.th k.path u) [(off, 16)] (fun _ =>
      let b := k.team.tbar off
      if !b.init || decide (b.resv ≠ 0) then raise k s ⟨cOPND, k.path, coreAddr k.team off, wordOf ins⟩
      else match regFault k.th k.path u with
        | some x => raise k s x
        | none => eff k off b))

/-- tbexpect (R336, R184). -/
def execTbexpect (a b : Sel) (s : State) : Res :=
  tbForm (.tbexpect a b) s a [(b, 1)] [] false (fun k => decide (once k b < 2 ^ 31)) (fun k off x =>
    if tbBusy k off then s else (pass k s).modTeam k.team.tid (fun t => t.setTbar off (x.sectors (once k b))))

/-- tbarrive (R336, R329, R184): the arrival is applied under its release, and holds back no younger instruction. -/
def execTbarrive (a : Sel) (s : State) : Res :=
  tbForm (.tbarrive a) s a [] [] false (fun _ => true) (fun k off _ =>
    if tbBusy k off then s else release k (pass k s) 1 (.tbarrive off))

/-- tbwait (R336, R186, R187). Where a program store has set CERR, no CMD record stands behind it and the spec gives no TRAPADDR: the
model's choice is 0 for TRAPADDR and TRAPAUX (log entry 99). -/
def execTbwait (a b : Sel) (s : State) : Res :=
  tbForm (.tbwait a b) s a [(b, 1)] [] false (fun k => decide (once k b < 16)) (fun k off x =>
    if x.cerr then
      -- with no CMD record, TRAPADDR and TRAPAUX are 0 (log entry 99)
      let r := (tget none k.team.cerrs off).getD (0, 0)
      raise k s ⟨cCMD, k.path, r.1, BitVec.ofNat 32 r.2⟩
    else if x.phase ≠ once k b then pass k s
    else waitOn k s .tbwait (.barrier off (once k b)))

/-- tbtest (R336, R186): written in every lane of the path, and latched. -/
def execTbtest (n : Bool) (d a b : Sel) (s : State) : Res :=
  tbForm (.tbtest n d a b) s a [(b, 1)] (if n then [] else [(d, 1)]) true (fun k => decide (once k b < 16)) (fun k _ x =>
    let v : DWord := if x.phase ≠ once k b then 1 else 0
    retireWith k s (k.th.putResult n false k.path k.path d (fun _ => v)).advance)

/-! ## Team barriers -/

/-- The arrival that the section has made at its present instruction (R348). -/
def arrivedAt (c : Section) (pc : DWord) (gang : Bool) : Option Bool :=
  (c.arrived.find? (fun a => a.1 == pc && a.2.1 == gang)).map (fun a => a.2.2.2)

/-- The arrival is used up: the section goes on. -/
def leaveBar (k : Iss) (s : State) (gang : Bool) : State :=
  modOwn k (pass k s) (fun c => { c with arrived := c.arrived.filter (fun a => !(a.1 == k.th.pc && a.2.1 == gang)) })

/-- The section goes on when its phase is over, and waits otherwise. -/
def barGo (k : Iss) (s : State) (gang : Bool) (go : State → State) : State :=
  match (s.sec? k.team.tid k.sec.role).bind (fun c => arrivedAt c k.th.pc gang) with
  | some true => go (leaveBar k s gang)
  | _ => waitOn k s .bar (.phase k.th.pc)

/-- A mask that names roles of the launch only. -/
def rolesOk (t : Team) (m : BitVec 4) : Bool := (List.range 4).all (fun r => !m.getLsbD r || t.secs.any (fun c => c.role == r))

/-- bar (R189, R337). -/
def execBar (c : BitVec 3) (m : BitVec 4) (s : State) : Res :=
  let n := c.toNat
  sectionForm (.bar c m) s (fun k => k.rec?.isSome || (arrivedAt k.sec k.th.pc false).isSome ||
      (let b := tget bar0 k.team.bcs n
       m != 0 && rolesOk k.team m && m.getLsbD k.sec.role && (b.roles == 0 || b.roles == m)))
    (fun _ => ⟨true, [], []⟩) (fun k =>
    match arrivedAt k.sec k.th.pc false with
    | some _ => barGo k s false id
    | none =>
      let s := modOwn k s (fun c => { c with arrived := c.arrived ++ [(k.th.pc, false, n, false)] })
      barGo k (release k s 1 (.bar n m)) false id)

/-! ## Gang barriers -/

/-- A completed gang phase (R190): every team's epoch closes (R363), and the arrivals are released. -/
def gangDone (s : State) (lid key : Nat) : State :=
  let g := s.gang lid key
  let s := (s.gangTeams lid key).foldl (fun s t => closeTeamEpoch s t.tid) s
  let free (t : Team) : Team := if t.lid = lid ∧ gangKey t = key then { t with gbarCame := [], secs := t.secs.map (releaseArrivals true 0) } else t
  { s.setGang { g with open_ := false, phase := g.phase + 1, cross := 0, dieCount := [], due := [] } with teams := s.teams.map free }

/-- GANG_DIE_ARRIVAL: a die whose count is complete arrives at the cross-die count (R190). -/
def execGangDieArrival (lid gang die : Nat) (s : State) : Res :=
  .next (
    let g := s.gang lid gang
    if g.open_ ∧ g.due.contains die then
      let s := s.setGang { g with due := g.due.filter (fun d => d != die), cross := g.cross - 1 }
      if g.cross ≤ 1 then gangDone s lid gang else s
    else s)

/-- gbar (R190, R337): the acquire of its release drops the core's cached lines. -/
def execGbar (s : State) : Res :=
  sectionForm .gbar s (fun _ => true) (fun _ => ⟨true, [], []⟩) (fun k =>
    let go (s : State) : State := s.modCore k.team.die k.team.core (fun x => { x with dcache := [] })
    match arrivedAt k.sec k.th.pc true with
    | some _ => barGo k s true go
    | none =>
      let s := modOwn k s (fun c => { c with arrived := c.arrived ++ [(k.th.pc, true, 0, false)] })
      barGo k (release k s 2 .gbar) true go)

/-- backoff (R338, R130). -/
def execBackoff (s : State) : Res :=
  sectionForm .backoff s (fun _ => true) (fun _ => ⟨true, [], []⟩) (fun k =>
    modOwn k (pass k s) (fun c => { c with delayed := true, bkLevel := if c.bkLevel = 7 then 7 else c.bkLevel + 1 }))

end Sys2Proof.Machine
end

