-- ==== Sys2Proof/Machine/Dispatch.lean ====
section
/-!
DEFINITION. The one dispatch: each constructor's meaning, by one direct call.
-/

namespace Sys2Proof.Machine

/-- What one instruction or event does. -/
def exec (i : Instr) (s : State) : Host.Outcome State Fault Refusal :=
  match i with
  | .iadd n d a b => Sys2Proof.Machine.execIadd n d a b s
  | .isub n d a b => Sys2Proof.Machine.execIsub n d a b s
  | .imul n d a b => Sys2Proof.Machine.execImul n d a b s
  | .imulh n d a b => Sys2Proof.Machine.execImulh n d a b s
  | .imad n d a b => Sys2Proof.Machine.execImad n d a b s
  | .imin n d a b => Sys2Proof.Machine.execImin n d a b s
  | .imax n d a b => Sys2Proof.Machine.execImax n d a b s
  | .iabs n d a => Sys2Proof.Machine.execIabs n d a s
  | .icmp c p a b => Sys2Proof.Machine.execIcmp c p a b s
  | .lea n d a b => Sys2Proof.Machine.execLea n d a b s
  | .addi n d imm => Sys2Proof.Machine.execAddi n d imm s
  | .movi n d imm => Sys2Proof.Machine.execMovi n d imm s
  | .movhi n d imm => Sys2Proof.Machine.execMovhi n d imm s
  | .and n d a b => Sys2Proof.Machine.execAnd n d a b s
  | .or n d a b => Sys2Proof.Machine.execOr n d a b s
  | .xor n d a b => Sys2Proof.Machine.execXor n d a b s
  | .not n d a => Sys2Proof.Machine.execNot n d a s
  | .shl n d a b => Sys2Proof.Machine.execShl n d a b s
  | .shr n d a b => Sys2Proof.Machine.execShr n d a b s
  | .popc n d a => Sys2Proof.Machine.execPopc n d a s
  | .clz n d a => Sys2Proof.Machine.execClz n d a s
  | .mov n d a => Sys2Proof.Machine.execMov n d a s
  | .rdlane n d a b => Sys2Proof.Machine.execRdlane n d a b s
  | .shfl n d a b => Sys2Proof.Machine.execShfl n d a b s
  | .shflx n d a b => Sys2Proof.Machine.execShflx n d a b s
  | .ballot n d a => Sys2Proof.Machine.execBallot n d a s
  | .vote o p a => Sys2Proof.Machine.execVote o p a s
  | .plop o p a b => Sys2Proof.Machine.execPlop o p a b s
  | .movp n d => Sys2Proof.Machine.execMovp n d s
  | .fadd n d a b => Sys2Proof.Machine.execFadd n d a b s
  | .fsub n d a b => Sys2Proof.Machine.execFsub n d a b s
  | .fmul n d a b => Sys2Proof.Machine.execFmul n d a b s
  | .ffma n d a b => Sys2Proof.Machine.execFfma n d a b s
  | .fdiv n d a b => Sys2Proof.Machine.execFdiv n d a b s
  | .fsqrt n d a => Sys2Proof.Machine.execFsqrt n d a s
  | .fmin n d a b => Sys2Proof.Machine.execFmin n d a b s
  | .fmax n d a b => Sys2Proof.Machine.execFmax n d a b s
  | .fabs n d a => Sys2Proof.Machine.execFabs n d a s
  | .fneg n d a => Sys2Proof.Machine.execFneg n d a s
  | .fcmp c p a b => Sys2Proof.Machine.execFcmp c p a b s
  | .fclass n d a => Sys2Proof.Machine.execFclass n d a s
  | .frcp n d a => Sys2Proof.Machine.execFrcp n d a s
  | .frsq n d a => Sys2Proof.Machine.execFrsq n d a s
  | .fexp2 n d a => Sys2Proof.Machine.execFexp2 n d a s
  | .flog2 n d a => Sys2Proof.Machine.execFlog2 n d a s
  | .fsin n d a => Sys2Proof.Machine.execFsin n d a s
  | .fcos n d a => Sys2Proof.Machine.execFcos n d a s
  | .dot2 n d a b => Sys2Proof.Machine.execDot2 n d a b s
  | .dot4 n d a b => Sys2Proof.Machine.execDot4 n d a b s
  | .dot8 n d a b => Sys2Proof.Machine.execDot8 n d a b s
  | .setmode e g => Sys2Proof.Machine.execSetmode e g s
  | .getmode n d => Sys2Proof.Machine.execGetmode n d s
  | .mfs n d r => Sys2Proof.Machine.execMfs n d r s
  | .mts x imm => Sys2Proof.Machine.execMts x imm s
  | .bra o j => Sys2Proof.Machine.execBra o j s
  | .call o => Sys2Proof.Machine.execCall o s
  | .join => Sys2Proof.Machine.execJoin s
  | .brx x j => Sys2Proof.Machine.execBrx x j s
  | .calli a => Sys2Proof.Machine.execCalli a s
  | .ret => Sys2Proof.Machine.execRet s
  | .exit => Sys2Proof.Machine.execExit s
  | .ld n d k o imm => Sys2Proof.Machine.execLd n d k o imm s
  | .st x k o imm => Sys2Proof.Machine.execSt x k o imm s
  | .lds n d k o imm => Sys2Proof.Machine.execLds n d k o imm s
  | .sts x k o imm => Sys2Proof.Machine.execSts x k o imm s
  | .ldp n d k o imm => Sys2Proof.Machine.execLdp n d k o imm s
  | .stp x k o imm => Sys2Proof.Machine.execStp x k o imm s
  | .ldt n d k v h => Sys2Proof.Machine.execLdt n d k v h s
  | .stt x k v h => Sys2Proof.Machine.execStt x k v h s
  | .atomAdd n d k o c => Sys2Proof.Machine.execAtomAdd n d k o c s
  | .atomMin n d k o c => Sys2Proof.Machine.execAtomMin n d k o c s
  | .atomMax n d k o c => Sys2Proof.Machine.execAtomMax n d k o c s
  | .atomAnd n d k o c => Sys2Proof.Machine.execAtomAnd n d k o c s
  | .atomOr n d k o c => Sys2Proof.Machine.execAtomOr n d k o c s
  | .atomXor n d k o c => Sys2Proof.Machine.execAtomXor n d k o c s
  | .atomXchg n d k o c => Sys2Proof.Machine.execAtomXchg n d k o c s
  | .atomCas n d k o c => Sys2Proof.Machine.execAtomCas n d k o c s
  | .redAdd x k o c => Sys2Proof.Machine.execRedAdd x k o c s
  | .redMin x k o c => Sys2Proof.Machine.execRedMin x k o c s
  | .redMax x k o c => Sys2Proof.Machine.execRedMax x k o c s
  | .redAnd x k o c => Sys2Proof.Machine.execRedAnd x k o c s
  | .redOr x k o c => Sys2Proof.Machine.execRedOr x k o c s
  | .redXor x k o c => Sys2Proof.Machine.execRedXor x k o c s
  | .mma n d a b => Sys2Proof.Machine.execMma n d a b s
  | .mmad n d a b => Sys2Proof.Machine.execMmad n d a b s
  | .mmadg n d a b => Sys2Proof.Machine.execMmadg n d a b s
  | .mmadw n d a b => Sys2Proof.Machine.execMmadw n d a b s
  | .rast n d a b => Sys2Proof.Machine.execRast n d a b s
  | .tex n d a b => Sys2Proof.Machine.execTex n d a b s
  | .texg n d a b => Sys2Proof.Machine.execTexg n d a b s
  | .rayq n d a b => Sys2Proof.Machine.execRayq n d a b s
  | .trace n d a b => Sys2Proof.Machine.execTrace n d a b s
  | .lupd d a b => Sys2Proof.Machine.execLupd d a b s
  | .tbinit d a b => Sys2Proof.Machine.execTbinit d a b s
  | .tbtest n d a b => Sys2Proof.Machine.execTbtest n d a b s
  | .cvtF32F64 r a b => Sys2Proof.Machine.execCvtF32F64 r a b s
  | .cvtF64F32 r a b => Sys2Proof.Machine.execCvtF64F32 r a b s
  | .cvtF32H16 r a b => Sys2Proof.Machine.execCvtF32H16 r a b s
  | .cvtH16F32 r a b => Sys2Proof.Machine.execCvtH16F32 r a b s
  | .cvtF32W16 r a b => Sys2Proof.Machine.execCvtF32W16 r a b s
  | .cvtW16F32 r a b => Sys2Proof.Machine.execCvtW16F32 r a b s
  | .cvtF32S32 r a b => Sys2Proof.Machine.execCvtF32S32 r a b s
  | .cvtF32Z32 r a b => Sys2Proof.Machine.execCvtF32Z32 r a b s
  | .cvtS32F32 r a b => Sys2Proof.Machine.execCvtS32F32 r a b s
  | .cvtZ32F32 r a b => Sys2Proof.Machine.execCvtZ32F32 r a b s
  | .cvtF64S64 r a b => Sys2Proof.Machine.execCvtF64S64 r a b s
  | .cvtF64Z64 r a b => Sys2Proof.Machine.execCvtF64Z64 r a b s
  | .cvtS64F64 r a b => Sys2Proof.Machine.execCvtS64F64 r a b s
  | .cvtZ64F64 r a b => Sys2Proof.Machine.execCvtZ64F64 r a b s
  | .cvtF64S32 r a b => Sys2Proof.Machine.execCvtF64S32 r a b s
  | .cvtS32F64 r a b => Sys2Proof.Machine.execCvtS32F64 r a b s
  | .cvtF32S64 r a b => Sys2Proof.Machine.execCvtF32S64 r a b s
  | .cvtS64F32 r a b => Sys2Proof.Machine.execCvtS64F32 r a b s
  | .cvtQ8F32 r a b => Sys2Proof.Machine.execCvtQ8F32 r a b s
  | .cvtF32Q8 r a b => Sys2Proof.Machine.execCvtF32Q8 r a b s
  | .cvtQ6F32 r a b => Sys2Proof.Machine.execCvtQ6F32 r a b s
  | .cvtF32Q6 r a b => Sys2Proof.Machine.execCvtF32Q6 r a b s
  | .cvtQ4F32 r a b => Sys2Proof.Machine.execCvtQ4F32 r a b s
  | .cvtF32Q4 r a b => Sys2Proof.Machine.execCvtF32Q4 r a b s
  | .cvtS8S32 r a b => Sys2Proof.Machine.execCvtS8S32 r a b s
  | .cvtZ8Z32 r a b => Sys2Proof.Machine.execCvtZ8Z32 r a b s
  | .cvtS16S32 r a b => Sys2Proof.Machine.execCvtS16S32 r a b s
  | .cvtZ16Z32 r a b => Sys2Proof.Machine.execCvtZ16Z32 r a b s
  | .cvtS64S32 r a b => Sys2Proof.Machine.execCvtS64S32 r a b s
  | .cvtZ64Z32 r a b => Sys2Proof.Machine.execCvtZ64Z32 r a b s
  | .cvtS32S64 r a b => Sys2Proof.Machine.execCvtS32S64 r a b s
  | .cvtZ32Z64 r a b => Sys2Proof.Machine.execCvtZ32Z64 r a b s
  | .packH16 r a b => Sys2Proof.Machine.execPackH16 r a b s
  | .unpackH16 a b => Sys2Proof.Machine.execUnpackH16 a b s
  | .packW16 r a b => Sys2Proof.Machine.execPackW16 r a b s
  | .unpackW16 a b => Sys2Proof.Machine.execUnpackW16 a b s
  | .packQ8 r a b => Sys2Proof.Machine.execPackQ8 r a b s
  | .unpackQ8 a b => Sys2Proof.Machine.execUnpackQ8 a b s
  | .packQ6 r a b => Sys2Proof.Machine.execPackQ6 r a b s
  | .unpackQ6 a b => Sys2Proof.Machine.execUnpackQ6 a b s
  | .packQ4 r a b => Sys2Proof.Machine.execPackQ4 r a b s
  | .unpackQ4 a b => Sys2Proof.Machine.execUnpackQ4 a b s
  | .packS8 a b => Sys2Proof.Machine.execPackS8 a b s
  | .unpackS8 a b => Sys2Proof.Machine.execUnpackS8 a b s
  | .packZ8 a b => Sys2Proof.Machine.execPackZ8 a b s
  | .unpackZ8 a b => Sys2Proof.Machine.execUnpackZ8 a b s
  | .packS4 a b => Sys2Proof.Machine.execPackS4 a b s
  | .unpackS4 a b => Sys2Proof.Machine.execUnpackS4 a b s
  | .packZ4 a b => Sys2Proof.Machine.execPackZ4 a b s
  | .unpackZ4 a b => Sys2Proof.Machine.execUnpackZ4 a b s
  | .tcopy a => Sys2Proof.Machine.execTcopy a s
  | .tcopys a => Sys2Proof.Machine.execTcopys a s
  | .treduce a => Sys2Proof.Machine.execTreduce a s
  | .bind a => Sys2Proof.Machine.execBind a s
  | .unbind a => Sys2Proof.Machine.execUnbind a s
  | .waitc c t => Sys2Proof.Machine.execWaitc c t s
  | .tbexpect a b => Sys2Proof.Machine.execTbexpect a b s
  | .tbarrive a => Sys2Proof.Machine.execTbarrive a s
  | .tbwait a b => Sys2Proof.Machine.execTbwait a b s
  | .bar c m => Sys2Proof.Machine.execBar c m s
  | .gbar => Sys2Proof.Machine.execGbar s
  | .backoff => Sys2Proof.Machine.execBackoff s
  | .fence x => Sys2Proof.Machine.execFence x s
  | .fenceRp x a => Sys2Proof.Machine.execFenceRp x a s
  | .sptest d b => Sys2Proof.Machine.execSptest d b s
  | .spcast c d b => Sys2Proof.Machine.execSpcast c d b s
  | .spcastOff c d b => Sys2Proof.Machine.execSpcastOff c d b s
  | .sysflush a b => Sys2Proof.Machine.execSysflush a b s
  | .sysinv a b => Sys2Proof.Machine.execSysinv a b s
  | .mldn a b => Sys2Proof.Machine.execMldn a b s
  | .mldw a b => Sys2Proof.Machine.execMldw a b s
  | .curve x b => Sys2Proof.Machine.execCurve x b s
  | .bmap b => Sys2Proof.Machine.execBmap b s
  | .dtest p a b => Sys2Proof.Machine.execDtest p a b s
  | .blend o a b => Sys2Proof.Machine.execBlend o a b s
  | .pstore l a b => Sys2Proof.Machine.execPstore l a b s
  | .resid a => Sys2Proof.Machine.execResid a s
  | .evpop d b => Sys2Proof.Machine.execEvpop d b s
  | .svc w h l => Sys2Proof.Machine.execSvc w h l s
  | .assert a => Sys2Proof.Machine.execAssert a s
  | .trap c => Sys2Proof.Machine.execTrap c s
  | .resume => Sys2Proof.Machine.execResume s
  | .skip => Sys2Proof.Machine.execSkip s
  | .brkpt => Sys2Proof.Machine.execBrkpt s
  | .uisend d b => Sys2Proof.Machine.execUisend d b s
  | .uiret => Sys2Proof.Machine.execUiret s
  | .idemEnter => Sys2Proof.Machine.execIdemEnter s
  | .idemLeave => Sys2Proof.Machine.execIdemLeave s
  | .hold => Sys2Proof.Machine.execHold s
  | .waitEnd tid role => Sys2Proof.Machine.execWaitEnd tid role s
  | .loadReturn tid role status data => Sys2Proof.Machine.execLoadReturn tid role status data s
  | .heldLoadComplete tid role => Sys2Proof.Machine.execHeldLoadComplete tid role s
  | .storePerform die core idx => Sys2Proof.Machine.execStorePerform die core idx s
  | .remotePerform tid role op => Sys2Proof.Machine.execRemotePerform tid role op s
  | .matrixWriteback tid role => Sys2Proof.Machine.execMatrixWriteback tid role s
  | .fmtEmuComplete tid role => Sys2Proof.Machine.execFmtEmuComplete tid role s
  | .walkComplete die core ctx va => Sys2Proof.Machine.execWalkComplete die core ctx va s
  | .demandMapComplete ctx va => Sys2Proof.Machine.execDemandMapComplete ctx va s
  | .frameGrant die slice frames => Sys2Proof.Machine.execFrameGrant die slice frames s
  | .migrationComplete ctx va data => Sys2Proof.Machine.execMigrationComplete ctx va data s
  | .hostMigrationRequest ctx va => Sys2Proof.Machine.execHostMigrationRequest ctx va s
  | .throttleExpiry ctx va => Sys2Proof.Machine.execThrottleExpiry ctx va s
  | .sideLogReplay ctx va => Sys2Proof.Machine.execSideLogReplay ctx va s
  | .cacheEviction kind die unit line => Sys2Proof.Machine.execCacheEviction kind die unit line s
  | .sysCacheOpComplete tid role op => Sys2Proof.Machine.execSysCacheOpComplete tid role op s
  | .atomicopCompletion tid role status old => Sys2Proof.Machine.execAtomicopCompletion tid role status old s
  | .epochClose lid => Sys2Proof.Machine.execEpochClose lid s
  | .dmrCompare tid role => Sys2Proof.Machine.execDmrCompare tid role s
  | .copyStart die core => Sys2Proof.Machine.execCopyStart die core s
  | .sectorLanding die core copy n => Sys2Proof.Machine.execSectorLanding die core copy n s
  | .copyPause die core copy => Sys2Proof.Machine.execCopyPause die core copy s
  | .copyResume die core copy => Sys2Proof.Machine.execCopyResume die core copy s
  | .copyStop die core copy cause => Sys2Proof.Machine.execCopyStop die core copy cause s
  | .treduceComplete lid gang => Sys2Proof.Machine.execTreduceComplete lid gang s
  | .oculusCompare die core => Sys2Proof.Machine.execOculusCompare die core s
  | .gangDieArrival lid gang die => Sys2Proof.Machine.execGangDieArrival lid gang die s
  | .lanternExec die core idx => Sys2Proof.Machine.execLanternExec die core idx s
  | .uiDelivery ctx => Sys2Proof.Machine.execUiDelivery ctx s
  | .alarmExpiry tid role => Sys2Proof.Machine.execAlarmExpiry tid role s
  | .alarmTrap tid role => Sys2Proof.Machine.execAlarmTrap tid role s
  | .breakpointMatch tid role => Sys2Proof.Machine.execBreakpointMatch tid role s
  | .stepHold tid role => Sys2Proof.Machine.execStepHold tid role s
  | .latchIdleInvalidate die core port => Sys2Proof.Machine.execLatchIdleInvalidate die core port s
  | .aging tid role => Sys2Proof.Machine.execAging tid role s
  | .backoffDecay tid role => Sys2Proof.Machine.execBackoffDecay tid role s
  | .backoffDelayEnd tid role => Sys2Proof.Machine.execBackoffDelayEnd tid role s
  | .resumeClassExpiry tid role => Sys2Proof.Machine.execResumeClassExpiry tid role s
  | .demandParkEligible tid role => Sys2Proof.Machine.execDemandParkEligible tid role s
  | .demandPark die core => Sys2Proof.Machine.execDemandPark die core s
  | .imageDrainComplete tid => Sys2Proof.Machine.execImageDrainComplete tid s
  | .teamRestore die core => Sys2Proof.Machine.execTeamRestore die core s
  | .shadowFillComplete die core ctx => Sys2Proof.Machine.execShadowFillComplete die core ctx s
  | .bankSwap die core => Sys2Proof.Machine.execBankSwap die core s
  | .preemptRequest die core => Sys2Proof.Machine.execPreemptRequest die core s
  | .preemptSafePoint die core => Sys2Proof.Machine.execPreemptSafePoint die core s
  | .contextWake die => Sys2Proof.Machine.execContextWake die s
  | .packetRead part err => Sys2Proof.Machine.execPacketRead part err s
  | .teamPlace lid => Sys2Proof.Machine.execTeamPlace lid s
  | .launchComplete lid => Sys2Proof.Machine.execLaunchComplete lid s
  | .completionWordWrite lid => Sys2Proof.Machine.execCompletionWordWrite lid s
  | .svcDeferredPost tid role => Sys2Proof.Machine.execSvcDeferredPost tid role s
  | .serviceRequestServe die slice seq host => Sys2Proof.Machine.execServiceRequestServe die slice seq host s
  | .cupolaDoorbell die => Sys2Proof.Machine.execCupolaDoorbell die s
  | .cupolaRound die idx peer => Sys2Proof.Machine.execCupolaRound die idx peer s
  | .launchQueueDoorbell q v => Sys2Proof.Machine.execLaunchQueueDoorbell q v s
  | .qctlWrite q v => Sys2Proof.Machine.execQctlWrite q v s
  | .invgo v => Sys2Proof.Machine.execInvgo v s
  | .invalidationComplete => Sys2Proof.Machine.execInvalidationComplete s
  | .chalt die v => Sys2Proof.Machine.execChalt die v s
  | .contextEnable ctx => Sys2Proof.Machine.execContextEnable ctx s
  | .contextEndRequest ctx => Sys2Proof.Machine.execContextEndRequest ctx s
  | .loghead ctx v => Sys2Proof.Machine.execLoghead ctx v s
  | .doorbellSend page v => Sys2Proof.Machine.execDoorbellSend page v s
  | .peerSendReceive peer ctx vec pay => Sys2Proof.Machine.execPeerSendReceive peer ctx vec pay s
  | .debugHold ctx => Sys2Proof.Machine.execDebugHold ctx s
  | .debugRelease ctx => Sys2Proof.Machine.execDebugRelease ctx s
  | .debugHoldAll ctx => Sys2Proof.Machine.execDebugHoldAll ctx s
  | .debugWindowWrite ctx off v => Sys2Proof.Machine.execDebugWindowWrite ctx off v s
  | .registerWrite bar off size v => Sys2Proof.Machine.execRegisterWrite bar off size v s
  | .atsInvalidationRequest page => Sys2Proof.Machine.execAtsInvalidationRequest page s
  | .pageRequestResponse ctx va ok => Sys2Proof.Machine.execPageRequestResponse ctx va ok s
  | .inboundAtomicop => Sys2Proof.Machine.execInboundAtomicop s
  | .firmwareRecovery len => Sys2Proof.Machine.execFirmwareRecovery len s
  | .powerGood => Sys2Proof.Machine.execPowerGood s
  | .stage1Complete header body trained => Sys2Proof.Machine.execStage1Complete header body trained s
  | .stage2Complete cxl ports peers => Sys2Proof.Machine.execStage2Complete cxl ports peers s
  | .clockStep up => Sys2Proof.Machine.execClockStep up s
  | .hotSpot105 => Sys2Proof.Machine.execHotSpot105 s
  | .hotSpot115 => Sys2Proof.Machine.execHotSpot115 s
  | .cxlPortFailure port => Sys2Proof.Machine.execCxlPortFailure port s
  | .serviceInstanceFailure die slice => Sys2Proof.Machine.execServiceInstanceFailure die slice s
  | .eccCorrected array => Sys2Proof.Machine.execEccCorrected array s
  | .eccImageError ctx => Sys2Proof.Machine.execEccImageError ctx s
  | .stage0Complete => Sys2Proof.Machine.execStage0Complete s
  | .completionTimeout tid role => Sys2Proof.Machine.execCompletionTimeout tid role s
  | .hostRuntimeServiceReply die slice seq reply => Sys2Proof.Machine.execHostRuntimeServiceReply die slice seq reply s
  | .sendStatusReturn tid role status => Sys2Proof.Machine.execSendStatusReturn tid role status s
  | .partitionChange part cells => Sys2Proof.Machine.execPartitionChange part cells s
  | .doorbellPageBind page token => Sys2Proof.Machine.execDoorbellPageBind page token s
  | .dieScratchpadBlockGive die block ctx => Sys2Proof.Machine.execDieScratchpadBlockGive die block ctx s

end Sys2Proof.Machine
end

