-- ==== Sys2Proof/Machine/Step.lean ====
section
/-!
DEFINITION. One step of the machine: its time passes, and the next event happens or the next instruction is fetched, decoded and
executed.
-/

namespace Sys2Proof.Machine

/-- What the execution of an instruction leaves: where a section issued it, its passes have issued or have been held back. -/
def settled (s : State) (r : Res) : Res :=
  match s.sel, s.iss?, r with
  | some (.sect _ _), some k, .next t => .next (settle k t)
  | _, _, r => r

/-- One step. -/
def step (s : State) : Host.Outcome State Fault Refusal :=
  match nextOf (tick s) with
  | .run i s => settled s (exec i s)
  | .done s => .next s

/-- The state with an instruction word placed where `step` fetches next (words are 32 bits: `nbits` is 32). -/
def State.withFetchWord (s : State) (_nbits w : Nat) : State := placeWord s (BitVec.ofNat 32 w)

end Sys2Proof.Machine
end

