-- ==== Sys2Proof/Safety.lean ====
section
/-!
DEFINITION. What a claim may ask of a state and of a run: memory in its canonical form, and a machine that goes on.
-/

namespace Sys2Proof.Machine

/-- Physical memory in canonical form: addresses strictly rise, and no listed byte is 0, which is what an unlisted address
reads as (log entry 2). -/
abbrev Memory.wf (m : List Host.Cell) : Bool := Table.wf 0 m

/-- The invariant of the machine's memory. -/
def State.MemOk (s : State) : Prop := Memory.wf s.mem = true

/-- A step that goes on: neither a fault nor a refusal. -/
def State.GoesOn (s : State) : Prop := ∃ t, step s = .next t

/-- A run of `n` steps that meets neither. -/
def State.GoesOnFor : Nat → State → Prop
  | 0, _ => True
  | n + 1, s => ∃ t, step s = .next t ∧ State.GoesOnFor n t

end Sys2Proof.Machine
end

