-- ==== Sys2Proof/Certificates/Slice0/Obligations.lean ====
section
/-!
DEFINITION. The statements about the machine, for the provers: decoding and the step, what each family of instructions answers, its
frame, exceptions, events, and the invariants of every step. Each docstring names the rules of the spec that it formalises.
-/

set_option linter.unusedVariables false

namespace Sys2Proof.Claims
end Sys2Proof.Claims

open Sys2Proof Sys2Proof.Machine Sys2Proof.Claims

/-! ## How the statements are said -/

namespace Sys2Proof.Claims

/-- Issuer `k` of `s` stands at the well-formed instruction `i` with a lane active, and may use the registers `u` (R206). -/
structure AtIssue (s : State) (k : Iss) (i : Instr) (u : Uses) : Prop where
  issuer : s.iss? = some k
  formed : i.wellFormed = true
  active : k.act ≠ 0
  usable : regFault k.th k.act u = none

/-- The same for a form that ignores the guard: its lanes are those of the path (R64, R328). -/
structure AtPath (s : State) (k : Iss) (i : Instr) (u : Uses) : Prop where
  issuer : s.iss? = some k
  formed : i.wellFormed = true
  lanes  : k.path ≠ 0
  usable : regFault k.th k.path u = none

/-- The thread after an instruction that wrote `v` to `d` in every active lane, with the flags `fl` (R47, R58, R66, R199). -/
def written (k : Iss) (n w : Bool) (d : Sel) (v : Nat → DWord) (fl : Nat → Word) : Thread :=
  ((k.th.putResult n w k.path k.act d v).orFlags (orOver (k.th.lanes k.act) fl)).advance

/-- The same for 32-bit results that set no flag. -/
def written32 (k : Iss) (n : Bool) (d : Sel) (v : Nat → Word) : Thread :=
  written k n false d (fun l => (v l).setWidth 64) (fun _ => 0)

/-- The thread after an instruction that wrote predicate `p` of every active lane. -/
def judged (k : Iss) (p : Nat) (v : Nat → Bool) (fl : Nat → Word) : Thread :=
  ((k.th.putPred k.act p v).orFlags (orOver (k.th.lanes k.act) fl)).advance

/-- The integer forms that write fin(t), with their sources and the t of each lane (R224). -/
inductive IntRule : Instr → Bool → Sel → List Sel → (Thread → Nat → Int) → Prop
  | iadd (n : Bool) (d a b : Sel) : IntRule (.iadd n d a b) n d [a, b] (fun th l => th.iopnd l a + th.iopnd l b)
  | isub (n : Bool) (d a b : Sel) : IntRule (.isub n d a b) n d [a, b] (fun th l => th.iopnd l a - th.iopnd l b)
  | imul (n : Bool) (d a b : Sel) : IntRule (.imul n d a b) n d [a, b] (fun th l => th.iopnd l a * th.iopnd l b)
  | imulh (n : Bool) (d a b : Sel) : IntRule (.imulh n d a b) n d [a, b]
      (fun th l => (th.iopnd l a * th.iopnd l b) / (2 ^ tyBits (gType th.gmode) : Nat))
  | imad (n : Bool) (d a b : Sel) : IntRule (.imad n d a b) n d [a, b, d] (fun th l => th.iopnd l d + th.iopnd l a * th.iopnd l b)
  | imin (n : Bool) (d a b : Sel) : IntRule (.imin n d a b) n d [a, b] (fun th l => min (th.iopnd l a) (th.iopnd l b))
  | imax (n : Bool) (d a b : Sel) : IntRule (.imax n d a b) n d [a, b] (fun th l => max (th.iopnd l a) (th.iopnd l b))
  | iabs (n : Bool) (d a : Sel) : IntRule (.iabs n d a) n d [a] (fun th l => if th.iopnd l a < 0 then -(th.iopnd l a) else th.iopnd l a)
  | addi (n : Bool) (d : Sel) (i : BitVec 16) : IntRule (.addi n d i) n d [d] (fun th l => th.iopnd l d + i.toInt)

/-- The 32-bit forms that ignore TYPE, with their sources and the result of each lane (R227, R228, R231, R237, R240). -/
inductive MoveRule : Instr → Bool → Sel → List Sel → (Thread → Nat → Word) → Prop
  | movi (n : Bool) (d : Sel) (i : BitVec 16) : MoveRule (.movi n d i) n d [] (fun _ _ => i.signExtend 32)
  | movhi (n : Bool) (d : Sel) (i : BitVec 16) : MoveRule (.movhi n d i) n d [d] (fun th l => i ++ (th.src32 l d).extractLsb' 0 16)
  | and (n : Bool) (d a b : Sel) : MoveRule (.and n d a b) n d [a, b] (fun th l => th.src32 l a &&& th.src32 l b)
  | or (n : Bool) (d a b : Sel) : MoveRule (.or n d a b) n d [a, b] (fun th l => th.src32 l a ||| th.src32 l b)
  | xor (n : Bool) (d a b : Sel) : MoveRule (.xor n d a b) n d [a, b] (fun th l => th.src32 l a ^^^ th.src32 l b)
  | not (n : Bool) (d a : Sel) : MoveRule (.not n d a) n d [a] (fun th l => ~~~(th.src32 l a))
  | mov (n : Bool) (d a : Sel) : MoveRule (.mov n d a) n d [a] (fun th l => th.src32 l a)
  | movp (n : Bool) (d : Sel) : MoveRule (.movp n d) n d [] (fun th l => th.predWord l)
  | getmode (n : Bool) (d : Sel) : MoveRule (.getmode n d) n d [] (fun th _ => th.gmode)

/-- The float forms that write a result, with their sources, the result's bits and its flags (R274 to R276). -/
inductive FloatRule : Instr → Bool → Sel → List Sel → (Thread → Nat → DWord × Word) → Prop
  | fadd (n : Bool) (d a b : Sel) : FloatRule (.fadd n d a b) n d [a, b]
      (fun th l => fputG th.gmode (sumF (gRM th.gmode) [th.fget l a, th.fget l b]))
  | fsub (n : Bool) (d a b : Sel) : FloatRule (.fsub n d a b) n d [a, b]
      (fun th l => fputG th.gmode (sumF (gRM th.gmode) [th.fget l a, (th.fget l b).neg]))
  | fmul (n : Bool) (d a b : Sel) : FloatRule (.fmul n d a b) n d [a, b]
      (fun th l => fputG th.gmode (mulF (th.fget l a) (th.fget l b)).1)
  | ffma (n : Bool) (d a b : Sel) : FloatRule (.ffma n d a b) n d [a, b, d]
      (fun th l => fputG th.gmode (sumF (gRM th.gmode) [th.fget l d, (mulF (th.fget l a) (th.fget l b)).1]))
  | fdiv (n : Bool) (d a b : Sel) : FloatRule (.fdiv n d a b) n d [a, b]
      (fun th l => ((fputG th.gmode (divF (th.fget l a) (th.fget l b)).1).1,
        (fputG th.gmode (divF (th.fget l a) (th.fget l b)).1).2 ||| (divF (th.fget l a) (th.fget l b)).2))
  | fsqrt (n : Bool) (d a : Sel) : FloatRule (.fsqrt n d a) n d [a]
      (fun th l => fputG th.gmode (sqrtF (tyFmt (gType th.gmode)) (th.fget l a)))
  | fmin (n : Bool) (d a b : Sel) : FloatRule (.fmin n d a b) n d [a, b]
      (fun th l => fPick (tyFmt (gType th.gmode)) (th.fbits l a) (th.fbits l b) true)
  | fmax (n : Bool) (d a b : Sel) : FloatRule (.fmax n d a b) n d [a, b]
      (fun th l => fPick (tyFmt (gType th.gmode)) (th.fbits l a) (th.fbits l b) false)
  | fabs (n : Bool) (d a : Sel) : FloatRule (.fabs n d a) n d [a]
      (fun th l => (BitVec.ofNat 64 (th.rawBits l a % 2 ^ ((tyFmt (gType th.gmode)).width - 1)), 0))
  | fneg (n : Bool) (d a : Sel) : FloatRule (.fneg n d a) n d [a]
      (fun th l => (BitVec.ofNat 64 (th.rawBits l a ^^^ 2 ^ ((tyFmt (gType th.gmode)).width - 1)), 0))

/-- The transcendental forms, with their number in Config, source and function (R279). -/
inductive TransRule : Instr → Nat → Bool → Sel → Sel → (Fmt → FVal → TransRes) → Prop
  | frcp (n : Bool) (d a : Sel) : TransRule (.frcp n d a) 0 n d a (fun _ => rcpT)
  | frsq (n : Bool) (d a : Sel) : TransRule (.frsq n d a) 1 n d a rsqT
  | fexp2 (n : Bool) (d a : Sel) : TransRule (.fexp2 n d a) 2 n d a (fun _ => exp2T)
  | flog2 (n : Bool) (d a : Sel) : TransRule (.flog2 n d a) 3 n d a (fun _ => log2T)
  | fsin (n : Bool) (d a : Sel) : TransRule (.fsin n d a) 4 n d a (fun _ => sinT)
  | fcos (n : Bool) (d a : Sel) : TransRule (.fcos n d a) 5 n d a (fun _ => cosT)

/-- The packed dot products: elements, TYPEs (R281). -/
inductive DotRule : Instr → Nat → List Nat → Bool → Sel → Sel → Sel → Prop
  | dot2 (n : Bool) (d a b : Sel) : DotRule (.dot2 n d a b) 2 [0xC, 0xD] n d a b
  | dot4 (n : Bool) (d a b : Sel) : DotRule (.dot4 n d a b) 4 [0xE, 0x0, 0x4] n d a b
  | dot8 (n : Bool) (d a b : Sel) : DotRule (.dot8 n d a b) 8 [0x10, 0x8, 0x9] n d a b

/-- The conversions: override, destination and source with their types (R283). -/
inductive CvtRule : Instr → BitVec 2 → Sel → Sel → PackElem → PackElem → Prop
  | cvtF32F64 (r : BitVec 2) (a b : Sel) : CvtRule (.cvtF32F64 r a b) r a b (.float .f32) (.float .f64)
  | cvtF64F32 (r : BitVec 2) (a b : Sel) : CvtRule (.cvtF64F32 r a b) r a b (.float .f64) (.float .f32)
  | cvtF32H16 (r : BitVec 2) (a b : Sel) : CvtRule (.cvtF32H16 r a b) r a b (.float .f32) (.float .h16)
  | cvtH16F32 (r : BitVec 2) (a b : Sel) : CvtRule (.cvtH16F32 r a b) r a b (.float .h16) (.float .f32)
  | cvtF32W16 (r : BitVec 2) (a b : Sel) : CvtRule (.cvtF32W16 r a b) r a b (.float .f32) (.float .w16)
  | cvtW16F32 (r : BitVec 2) (a b : Sel) : CvtRule (.cvtW16F32 r a b) r a b (.float .w16) (.float .f32)
  | cvtF32S32 (r : BitVec 2) (a b : Sel) : CvtRule (.cvtF32S32 r a b) r a b (.float .f32) (.int true 32)
  | cvtF32Z32 (r : BitVec 2) (a b : Sel) : CvtRule (.cvtF32Z32 r a b) r a b (.float .f32) (.int false 32)
  | cvtS32F32 (r : BitVec 2) (a b : Sel) : CvtRule (.cvtS32F32 r a b) r a b (.int true 32) (.float .f32)
  | cvtZ32F32 (r : BitVec 2) (a b : Sel) : CvtRule (.cvtZ32F32 r a b) r a b (.int false 32) (.float .f32)
  | cvtF64S64 (r : BitVec 2) (a b : Sel) : CvtRule (.cvtF64S64 r a b) r a b (.float .f64) (.int true 64)
  | cvtF64Z64 (r : BitVec 2) (a b : Sel) : CvtRule (.cvtF64Z64 r a b) r a b (.float .f64) (.int false 64)
  | cvtS64F64 (r : BitVec 2) (a b : Sel) : CvtRule (.cvtS64F64 r a b) r a b (.int true 64) (.float .f64)
  | cvtZ64F64 (r : BitVec 2) (a b : Sel) : CvtRule (.cvtZ64F64 r a b) r a b (.int false 64) (.float .f64)
  | cvtF64S32 (r : BitVec 2) (a b : Sel) : CvtRule (.cvtF64S32 r a b) r a b (.float .f64) (.int true 32)
  | cvtS32F64 (r : BitVec 2) (a b : Sel) : CvtRule (.cvtS32F64 r a b) r a b (.int true 32) (.float .f64)
  | cvtF32S64 (r : BitVec 2) (a b : Sel) : CvtRule (.cvtF32S64 r a b) r a b (.float .f32) (.int true 64)
  | cvtS64F32 (r : BitVec 2) (a b : Sel) : CvtRule (.cvtS64F32 r a b) r a b (.int true 64) (.float .f32)
  | cvtQ8F32 (r : BitVec 2) (a b : Sel) : CvtRule (.cvtQ8F32 r a b) r a b (.float .q8) (.float .f32)
  | cvtF32Q8 (r : BitVec 2) (a b : Sel) : CvtRule (.cvtF32Q8 r a b) r a b (.float .f32) (.float .q8)
  | cvtQ6F32 (r : BitVec 2) (a b : Sel) : CvtRule (.cvtQ6F32 r a b) r a b (.float .q6) (.float .f32)
  | cvtF32Q6 (r : BitVec 2) (a b : Sel) : CvtRule (.cvtF32Q6 r a b) r a b (.float .f32) (.float .q6)
  | cvtQ4F32 (r : BitVec 2) (a b : Sel) : CvtRule (.cvtQ4F32 r a b) r a b (.float .q4) (.float .f32)
  | cvtF32Q4 (r : BitVec 2) (a b : Sel) : CvtRule (.cvtF32Q4 r a b) r a b (.float .f32) (.float .q4)
  | cvtS8S32 (r : BitVec 2) (a b : Sel) : CvtRule (.cvtS8S32 r a b) r a b (.int true 8) (.int true 32)
  | cvtZ8Z32 (r : BitVec 2) (a b : Sel) : CvtRule (.cvtZ8Z32 r a b) r a b (.int false 8) (.int false 32)
  | cvtS16S32 (r : BitVec 2) (a b : Sel) : CvtRule (.cvtS16S32 r a b) r a b (.int true 16) (.int true 32)
  | cvtZ16Z32 (r : BitVec 2) (a b : Sel) : CvtRule (.cvtZ16Z32 r a b) r a b (.int false 16) (.int false 32)
  | cvtS64S32 (r : BitVec 2) (a b : Sel) : CvtRule (.cvtS64S32 r a b) r a b (.int true 64) (.int true 32)
  | cvtZ64Z32 (r : BitVec 2) (a b : Sel) : CvtRule (.cvtZ64Z32 r a b) r a b (.int false 64) (.int false 32)
  | cvtS32S64 (r : BitVec 2) (a b : Sel) : CvtRule (.cvtS32S64 r a b) r a b (.int true 32) (.int true 64)
  | cvtZ32Z64 (r : BitVec 2) (a b : Sel) : CvtRule (.cvtZ32Z64 r a b) r a b (.int false 32) (.int false 64)

/-- The pack forms: override, registers, element and wide type (R284). -/
inductive PackRule : Instr → BitVec 2 → Sel → Sel → Nat → PackElem → PackElem → Prop
  | packH16 (r : BitVec 2) (a b : Sel) : PackRule (.packH16 r a b) r a b 2 (.float .h16) (.float .f32)
  | packW16 (r : BitVec 2) (a b : Sel) : PackRule (.packW16 r a b) r a b 2 (.float .w16) (.float .f32)
  | packQ8 (r : BitVec 2) (a b : Sel) : PackRule (.packQ8 r a b) r a b 4 (.float .q8) (.float .f32)
  | packQ6 (r : BitVec 2) (a b : Sel) : PackRule (.packQ6 r a b) r a b 4 (.float .q6) (.float .f32)
  | packQ4 (r : BitVec 2) (a b : Sel) : PackRule (.packQ4 r a b) r a b 8 (.float .q4) (.float .f32)
  | packS8 (a b : Sel) : PackRule (.packS8 a b) 0 a b 4 (.int true 8) (.int true 32)
  | packZ8 (a b : Sel) : PackRule (.packZ8 a b) 0 a b 4 (.int false 8) (.int false 32)
  | packS4 (a b : Sel) : PackRule (.packS4 a b) 0 a b 8 (.int true 4) (.int true 32)
  | packZ4 (a b : Sel) : PackRule (.packZ4 a b) 0 a b 8 (.int false 4) (.int false 32)

/-- The unpack forms (R284). -/
inductive UnpackRule : Instr → Sel → Sel → Nat → PackElem → PackElem → Prop
  | unpackH16 (a b : Sel) : UnpackRule (.unpackH16 a b) a b 2 (.float .h16) (.float .f32)
  | unpackW16 (a b : Sel) : UnpackRule (.unpackW16 a b) a b 2 (.float .w16) (.float .f32)
  | unpackQ8 (a b : Sel) : UnpackRule (.unpackQ8 a b) a b 4 (.float .q8) (.float .f32)
  | unpackQ6 (a b : Sel) : UnpackRule (.unpackQ6 a b) a b 4 (.float .q6) (.float .f32)
  | unpackQ4 (a b : Sel) : UnpackRule (.unpackQ4 a b) a b 8 (.float .q4) (.float .f32)
  | unpackS8 (a b : Sel) : UnpackRule (.unpackS8 a b) a b 4 (.int true 8) (.int true 32)
  | unpackZ8 (a b : Sel) : UnpackRule (.unpackZ8 a b) a b 4 (.int false 8) (.int false 32)
  | unpackS4 (a b : Sel) : UnpackRule (.unpackS4 a b) a b 8 (.int true 4) (.int true 32)
  | unpackZ4 (a b : Sel) : UnpackRule (.unpackZ4 a b) a b 8 (.int false 4) (.int false 32)

end Sys2Proof.Claims

/-! ## Integer forms -/

/-- R223, R224: an integer form whose TYPE and pairs are legal writes fin(t) of each active lane and goes on. -/
def Obligations.IntegerArithmetic : Prop :=
  ∀ i n d srcs t, IntRule i n d srcs t → ∀ (s : State) (k : Iss),
    let w := tyInt64 (gType k.th.gmode)
    AtIssue s k i ⟨n, [wsel w d], srcs.map (wsel w)⟩ → intDyn d srcs k.th.gmode = true →
    exec i s = .next (retireWith k s (written k n w d (fun l => (k.th.ifin (t k.th l)).1) (fun l => (k.th.ifin (t k.th l)).2)))

/-- R36, R223: fin keeps a value of the range; outside it, SAT saturates to the nearer bound and sets SAT, and otherwise the value of
the range congruent to it modulo 2^n is written and no flag is set. -/
def Obligations.FinWrapsOrSaturates : Prop :=
  ∀ (sgn : Bool) (n : Nat) (sat : BitVec 2) (t : Int), 0 < n →
    let r := finInt sgn n sat t
    (intLo sgn n ≤ t → t ≤ intHi sgn n → r = (t, 0)) ∧
    (sat = 1 → t < intLo sgn n → r = (intLo sgn n, fSAT)) ∧
    (sat = 1 → intHi sgn n < t → r = (intHi sgn n, fSAT)) ∧
    (sat ≠ 1 → intLo sgn n ≤ r.1 ∧ r.1 ≤ intHi sgn n ∧ r.2 = 0 ∧ ∃ q : Int, r.1 = t + q * (2 ^ n : Nat))

/-- R226 to R231, R237, R240: the forms of 32 bits write their result in each active lane, set no flag and go on; lea writes a pair.
R229, R230: shifts write fin of the shifted operand, by any count; popc and clz write the count as 32 bits. -/
def Obligations.MovesLogicShifts : Prop :=
  ((∀ i n d srcs v, MoveRule i n d srcs v → ∀ (s : State) (k : Iss),
    AtIssue s k i ⟨n, [(d, 1)], srcs.map (fun x => (x, 1))⟩ → exec i s = .next (retireWith k s (written32 k n d (v k.th)))) ∧
  (∀ (n : Bool) (d a b : Sel) (s : State) (k : Iss), AtIssue s k (.lea n d a b) ⟨n, [(d, 2)], [(a, 2), (b, 1)]⟩ →
    tyInt (gType k.th.gmode) = true →
    exec (.lea n d a b) s = .next (retireWith k s (written k n true d (fun l =>
      BitVec.ofInt 64 ((k.th.src64 l a).toNat + (if tySigned (gType k.th.gmode) then (k.th.src32 l b).toInt else (k.th.src32 l b).toNat)
        * (tyBits (gType k.th.gmode) / 8 : Nat))) (fun _ => 0))))) ∧
  ((∀ (n : Bool) (d a b : Sel) (s : State) (k : Iss),
    let w := tyInt64 (gType k.th.gmode)
    let v (c : Int → Nat → Int) (l : Nat) := k.th.ifin (c (k.th.iopnd l a) (min (k.th.src32 l b).toNat 64))
    intDyn d [a] k.th.gmode = true →
    (AtIssue s k (.shl n d a b) ⟨n, [wsel w d], [wsel w a, (b, 1)]⟩ →
      exec (.shl n d a b) s = .next (retireWith k s (written k n w d (fun l => (v (fun x c => x * (2 ^ c : Nat)) l).1) (fun l => (v (fun x c => x * (2 ^ c : Nat)) l).2)))) ∧
    (AtIssue s k (.shr n d a b) ⟨n, [wsel w d], [wsel w a, (b, 1)]⟩ →
      exec (.shr n d a b) s = .next (retireWith k s (written k n w d (fun l => (v (fun x c => x / (2 ^ c : Nat)) l).1) (fun l => (v (fun x c => x / (2 ^ c : Nat)) l).2))))) ∧
  (∀ (n : Bool) (d a : Sel) (s : State) (k : Iss),
    let w := tyInt64 (gType k.th.gmode)
    let pat (l : Nat) := k.th.src w l a
    let bits := tyBits (gType k.th.gmode)
    tyInt (gType k.th.gmode) = true → pairSrc w a = true →
    (AtIssue s k (.popc n d a) ⟨n, [wsel false d], [wsel w a]⟩ →
      exec (.popc n d a) s = .next (retireWith k s (written k n false d (fun l => BitVec.ofNat 64 (popCount (pat l) bits)) (fun _ => 0)))) ∧
    (AtIssue s k (.clz n d a) ⟨n, [wsel false d], [wsel w a]⟩ →
      exec (.clz n d a) s = .next (retireWith k s (written k n false d (fun l => BitVec.ofNat 64 (leadZeros (pat l) bits)) (fun _ => 0))))))

/-- R225, R235, R236, R277: the forms that write a predicate write it in each active lane and go on; fcmp sets NV for a signalling NaN. -/
def Obligations.PredicateForms : Prop :=
  (∀ (c p : BitVec 3) (a b : Sel) (s : State) (k : Iss),
    let w := tyInt64 (gType k.th.gmode)
    AtIssue s k (.icmp c p a b) ⟨true, [], [wsel w a, wsel w b]⟩ → tyInt (gType k.th.gmode) = true → pairSrc w a = true → pairSrc w b = true →
    exec (.icmp c p a b) s = .next (retireWith k s (judged k p.toNat (fun l => intCond c (k.th.iopnd l a) (k.th.iopnd l b)) (fun _ => 0)))) ∧
  (∀ (c p : BitVec 3) (a b : Sel) (s : State) (k : Iss),
    AtIssue s k (.fcmp c p a b) ⟨true, [], [wsel (isF64 k.th.gmode) a, wsel (isF64 k.th.gmode) b]⟩ → floatDyn [] [a, b] k.th.gmode = true →
    exec (.fcmp c p a b) s = .next (retireWith k s (judged k p.toNat (fun l => fCond c (k.th.fget l a) (k.th.fget l b))
      (fun l => if (k.th.fget l a).isSnan || (k.th.fget l b).isSnan then fNV else 0)))) ∧
  (∀ (o : BitVec 2) (p : BitVec 3) (a b : Sel) (s : State) (k : Iss), AtIssue s k (.plop o p a b) ⟨true, [], []⟩ →
    exec (.plop o p a b) s = .next (retireWith k s (judged k p.toNat (fun l =>
      if o = 0 then k.th.predOp l a && k.th.predOp l b else if o = 1 then k.th.predOp l a || k.th.predOp l b
      else k.th.predOp l a != k.th.predOp l b) (fun _ => 0)))) ∧
  (∀ (o : BitVec 2) (p : BitVec 3) (a : Sel) (s : State) (k : Iss), AtIssue s k (.vote o p a) ⟨true, [], []⟩ →
    exec (.vote o p a) s = .next (retireWith k s ((k.th.putPred k.act p.toNat (fun _ =>
      if o = 0 then k.th.holds k.act a != 0 else if o = 1 then k.th.holds k.act a == k.act
      else k.th.holds k.act a == 0 || k.th.holds k.act a == k.act)).advance)))

/-- R232 to R234, R238: rdlane gives every active lane one lane's value, 0 where its group was freed; shfl and shflx read the lane of
B[4:0] within the group if it is active, else their own; ballot gathers a predicate. -/
def Obligations.LaneExchange : Prop :=
  (∀ (n : Bool) (d a b : Sel) (s : State) (k : Iss), AtIssue s k (.rdlane n d a b) ⟨n, [(d, 1)], [(a, 1), (b, 1)]⟩ →
    let m := rdLaneOf k b
    (0xF0 ≤ a.toNat → a.toNat < 0xF4 → k.th.latchReadable (m / 32) (a.toNat - 0xF0) = true) →
    exec (.rdlane n d a b) s = .next (retireWith k s
      ((k.th.putResult n false k.path k.act d (fun _ => (if k.th.freed.getLsbD (m / 32) then (0 : Word) else k.th.src32 m a).setWidth 64)).advance))) ∧
  (∀ (n : Bool) (d a b : Sel) (s : State) (k : Iss), AtIssue s k (.shfl n d a b) ⟨n, [(d, 1)], [(a, 1), (b, 1)]⟩ →
    exec (.shfl n d a b) s = .next (retireWith k s ((k.th.putResult n false k.path k.act d (fun l =>
      let m := laneIdx (l / 32) ((k.th.src32 l b).toNat % 32)
      (k.th.src32 (if k.act.getLsbD m then m else l) a).setWidth 64)).advance))) ∧
  (∀ (n : Bool) (d a b : Sel) (s : State) (k : Iss), AtIssue s k (.shflx n d a b) ⟨n, [(d, 1)], [(a, 1), (b, 1)]⟩ →
    exec (.shflx n d a b) s = .next (retireWith k s ((k.th.putResult n false k.path k.act d (fun l =>
      let m := laneIdx (l / 32) ((l % 32) ^^^ ((k.th.src32 l b).toNat % 32))
      (k.th.src32 (if k.act.getLsbD m then m else l) a).setWidth 64)).advance))) ∧
  (∀ (n : Bool) (d a : Sel) (s : State) (k : Iss), AtIssue s k (.ballot n d a) ⟨n, [(d, 1)], []⟩ →
    exec (.ballot n d a) s = .next (retireWith k s ((k.th.putResult n false k.path k.act d (fun l =>
      (if isUni d then maskSummary (k.th.holds k.act a) else maskWord (k.th.holds k.act a) (l / 32)).setWidth 64)).advance)))

/-! ## Float forms, conversions -/

/-- R273 to R276, R278: a float form whose TYPE and pairs are legal writes its result and ORs its flags into FPFLAGS; fclass writes one
register. -/
def Obligations.FloatArithmetic : Prop :=
  (∀ i n d srcs v, FloatRule i n d srcs v → ∀ (s : State) (k : Iss),
    let w := isF64 k.th.gmode
    AtIssue s k i ⟨n, [wsel w d], srcs.map (wsel w)⟩ → floatDyn [d] srcs k.th.gmode = true →
    exec i s = .next (retireWith k s (written k n w d (fun l => (v k.th l).1) (fun l => (v k.th l).2)))) ∧
  (∀ (n : Bool) (d a : Sel) (s : State) (k : Iss),
    AtIssue s k (.fclass n d a) ⟨n, [wsel false d], [wsel (isF64 k.th.gmode) a]⟩ → floatDyn [] [a] k.th.gmode = true →
    exec (.fclass n d a) s = .next (retireWith k s (written k n false d
      (fun l => BitVec.ofNat 64 (2 ^ fClassBit (tyFmt (gType k.th.gmode)) (k.th.rawBits l a))) (fun _ => 0))))

/-- R279, R280: a transcendental writes the exact value where there is one, and otherwise a result that the model leaves free between the
choices of R280 (log entry 6). -/
def Obligations.Transcendentals : Prop :=
  ∀ i op n d a f, TransRule i op n d a f → ∀ (s : State) (k : Iss),
    let w := isF64 k.th.gmode
    let fm := tyFmt (gType k.th.gmode)
    let v (l : Nat) : DWord × Word := match f fm (k.th.fget l a) with
      | .exact x fl => ((fputG k.th.gmode x).1, (fputG k.th.gmode x).2 ||| fl)
      | .approx neg mag =>
        let r := putTrans op (k.th.fbits l a) fm (gRM k.th.gmode) (gSatF k.th.gmode) (gFtz k.th.gmode) neg mag
        (BitVec.ofNat 64 r.bits, r.flags)
    AtIssue s k i ⟨n, [wsel w d], [wsel w a]⟩ → floatDyn [d] [a] k.th.gmode = true →
    exec i s = .next (retireWith k s (written k n w d (fun l => (v l).1) (fun l => (v l).2)))

/-- R282, R283: a conversion writes the converted value of each active lane, with its flags, under every TYPE. -/
def Obligations.Conversions : Prop :=
  ∀ i ov a b dst src, CvtRule i ov a b dst src → ∀ (s : State) (k : Iss),
    AtIssue s k i ⟨false, [wsel dst.isPair a], [wsel src.isPair b]⟩ →
    exec i s = .next (retireWith k s (written k false dst.isPair a
      (fun l => (convert k.th.gmode ov dst src (k.th.src src.isPair l b)).1) (fun l => (convert k.th.gmode ov dst src (k.th.src src.isPair l b)).2)))

/-- R281: a packed dot product whose TYPE is one of its own adds the products of the elements to D, rounded once.
R284, R285: pack converts n registers into the elements of one; unpack converts the elements of one into n registers, the first latched. -/
def Obligations.PackedForms : Prop :=
  (∀ i cnt tys n d a b, DotRule i cnt tys n d a b → ∀ (s : State) (k : Iss) (e : PackElem),
    AtIssue s k i ⟨n, [(d, 1)], [(a, 1), (b, 1), (d, 1)]⟩ → tys.contains (gType k.th.gmode).toNat = true → packedElem (gType k.th.gmode) = some e →
    exec i s = .next (retireWith k s (written k n false d (fun l => (dotLane k.th l cnt e d a b).1) (fun l => (dotLane k.th l cnt e d a b).2)))) ∧
  ((∀ i ov a b n e wide, PackRule i ov a b n e wide → ∀ (s : State) (k : Iss), AtIssue s k i ⟨false, [(a, 1)], [(b, n)]⟩ →
    let rs (l : Nat) := (List.range n).map (fun j => convert k.th.gmode ov e wide (k.th.src32 l (BitVec.ofNat 8 (b.toNat + j))).toNat)
    exec i s = .next (retireWith k s (written k false false a
      (fun l => BitVec.ofNat 64 (((rs l).mapIdx (fun j r => r.1.toNat % 2 ^ e.width * 2 ^ (e.stride * j))).foldl (· + ·) 0))
      (fun l => (rs l).foldl (fun x r => x ||| r.2) 0)))) ∧
  (∀ i a b n e wide, UnpackRule i a b n e wide → ∀ (s : State) (k : Iss), AtIssue s k i ⟨false, [(a, n)], [(b, 1)]⟩ →
    let el (l j : Nat) := convert k.th.gmode 0 wide e (e.bitsAt (k.th.src32 l b).toNat j)
    exec i s = .next (retireWith k s (((k.th.putRun false k.path k.act a n (fun l j => (el l j).1.setWidth 32)).orFlags
      (orOver (k.th.lanes k.act) (fun l => orOver (List.range n) (fun j => (el l j).2)))).advance))))

/-! ## Modes, system registers, control -/

/-- R70, R71, R242: a register written by mts reads back what was written: those of the context for every section, those of the section in
it; and the write of a context's register changes no other context, no team and no memory. -/
def Obligations.SystemRegistersReadBack : Prop :=
  (∀ (s : State) (t : Team) (c : Section) (role l r : Nat) (v : DWord),
    (r = 0x10 ∨ r = 0x14 ∨ (0x28 ≤ r ∧ r ≤ 0x2F) ∨ (0x30 ≤ r ∧ r ≤ 0x33)) →
    let s' := sysSet s t role r v
    sysReg s' t c l r = v ∧ s'.teams = s.teams ∧ s'.mem = s.mem ∧ ∀ x, x ≠ t.ctx → s'.ctxAt x = s.ctxAt x) ∧
  (∀ (s : State) (t : Team) (c : Section) (role l r : Nat) (v : DWord), s.sec? t.tid role = some c → (r = 0x02 ∨ r = 0x03 ∨ r = 0x09 ∨ r = 0x19) →
    let s' := sysSet s t role r v
    ∃ c', s'.sec? t.tid role = some c' ∧ sysReg s' t c' l r = (if r = 0x02 ∨ r = 0x03 then (v.setWidth 32 : Word).setWidth 64 else v) ∧
      s'.mem = s.mem ∧ s'.contexts = s.contexts)

/-- R239, R241, R242: setmode writes the whole of GMODE; mfs reads a system register that the section may read; mts writes one that it may
write, when its value is legal.
R206, R328: an ejected lane that would run setmode or mts raises UNIFORM.
R71: outside handler mode the breakpoint and watchpoint registers can be neither read nor written, and TRAPPC and TRAPMASK not written;
the instruction raises PROT with TRAPAUX 0 for a read and 1 for a write. -/
def Obligations.ModeAndSystemRegisters : Prop :=
  ((∀ (e : BitVec 4) (g : BitVec 16) (s : State) (k : Iss), AtPath s k (.setmode e g) ⟨true, [], []⟩ → k.rec? = none →
    gmodeOk ((e ++ g).setWidth 32) = true →
    exec (.setmode e g) s = .next (retireWith k s { k.th with gmode := (e ++ g).setWidth 32 }.advance)) ∧
  (∀ (n : Bool) (d r : BitVec 8) (s : State) (k : Iss) (w : Bool), sysWidth r.toNat = some w →
    AtIssue s k (.mfs n d r) ⟨n, [wsel w d], []⟩ → mayRead r.toNat k.sec.hmode = true →
    exec (.mfs n d r) s = .next (retireWith k s ((k.th.putResult n w k.path k.act d (fun l => mfsValue s k l r.toNat)).advance))) ∧
  (∀ (x : BitVec 8) (r : BitVec 16) (s : State) (k : Iss) (w : Bool), sysWidth r.toNat = some w →
    AtIssue s k (.mts x r) (usesUnlatched k ⟨true, [], [wsel w x]⟩) → k.rec? = none →
    let v : DWord := BitVec.ofNat 64 (k.th.src w ((k.th.lowest k.act).getD 0) x)
    sysValueOk k.sec r.toNat v = true → mayWrite r.toNat k.sec.hmode = true →
    exec (.mts x r) s = .next (sysSet (pass k s) k.team k.sec.role r.toNat v)) ∧
  (∀ (e : BitVec 4) (g : BitVec 16) (s : State) (k : Iss), AtPath s k (.setmode e g) ⟨true, [], []⟩ → k.rec?.isSome = true →
    gmodeOk ((e ++ g).setWidth 32) = true → exec (.setmode e g) s = .next (raise k s ⟨cUNIFORM, k.path, 0, 0⟩)) ∧
  (∀ (x : BitVec 8) (r : BitVec 16) (s : State) (k : Iss) (w : Bool), sysWidth r.toNat = some w →
    AtIssue s k (.mts x r) (usesUnlatched k ⟨true, [], [wsel w x]⟩) → k.rec?.isSome = true →
    exec (.mts x r) s = .next (raise k s ⟨cUNIFORM, k.act, 0, 0⟩))) ∧
  ((∀ (n : Bool) (d r : BitVec 8) (s : State) (k : Iss), 0x28 ≤ r.toNat → r.toNat ≤ 0x33 →
    AtIssue s k (.mfs n d r) ⟨n, [wsel true d], []⟩ → k.sec.hmode = false →
    exec (.mfs n d r) s = .next (raise k s ⟨cPROT, k.act, 0, 0⟩)) ∧
  (∀ (x : BitVec 8) (r : BitVec 16) (s : State) (k : Iss) (w : Bool), sysWidth r.toNat = some w →
    ((0x28 ≤ r.toNat ∧ r.toNat ≤ 0x33) ∨ r.toNat = 0x09 ∨ (0x3F ≤ r.toNat ∧ r.toNat ≤ 0x5F)) →
    AtIssue s k (.mts x r) (usesUnlatched k ⟨true, [], [wsel w x]⟩) → k.rec? = none → k.sec.hmode = false →
    sysValueOk k.sec r.toNat (BitVec.ofNat 64 (k.th.src w ((k.th.lowest k.act).getD 0) x)) = true →
    exec (.mts x r) s = .next (raise k s ⟨cPROT, k.act, 0, 1⟩)))

namespace Sys2Proof.Claims

/-- The state after an instruction pushes entry number `n`: one beyond the sixteenth needs its place in the spill area to translate for a
store, and leaves its bytes there (R23, R98). -/
def pushed (k : Iss) (s : State) (n : Nat) (t : State) : Option State :=
  if n ≤ 16 then some t
  else match s.translate k.team.die k.team.core k.team.ctx .store (spillAddr s k.team k.sec.role n) with
    | .ok pa _ => some (t.freeBytes pa 256)
    | _ => none

/-- The innermost entry can be popped by an access that needs it (R23). -/
def poppable (k : Iss) (s : State) : Prop :=
  k.sec.stack.length ≤ 16 ∨
    ∃ pa b, s.translate k.team.die k.team.core k.team.ctx .load (spillAddr s k.team k.sec.role k.sec.stack.length) = .ok pa b

end Sys2Proof.Claims

/-- R22, R23, R24, R246: bra with every lane of the path active jumps; with none it goes on; otherwise the taken lanes become the path at the
target above a branch entry whose PEND holds the others, unless the smaller side is ejected: then its lanes stand in the lantern's queue. -/
def Obligations.Branches : Prop :=
  ∀ (o : BitVec 14) (j : BitVec 11) (s : State) (k : Iss), AtIssue s k (.bra o j) ⟨true, [], []⟩ →
    let target := k.th.pc + 4 * o.signExtend 64
    let join := joinAt k.th.pc j.toNat
    let rest := k.th.path &&& ~~~k.act
    let small := if (k.th.lanes k.act).length < (k.th.lanes rest).length then k.th.lanes k.act else k.th.lanes rest
    let n := k.sec.stack.length + 1
    (k.act = k.th.path → exec (.bra o j) s = .next (retireWith k s { k.th with pc := target })) ∧
    (k.act ≠ k.th.path → stackFull k.sec = false →
      (gEject k.th.gmode < small.length ∨ 64 < (s.coreAt k.team.die k.team.core).lantern.length + small.length ∨ small = []) →
      ∀ t, pushed k s n (retireWith k
        (modOwn k s (fun c => { c with stack := branchEntry k.th.pc join k.th.path (some (rest, k.th.pc + 4)) :: c.stack }))
        { k.th with path := k.act, pc := target }) = some t → exec (.bra o j) s = .next t) ∧
    (k.rec? = none → k.act ≠ k.th.path → stackFull k.sec = false → small ≠ [] → small.length ≤ gEject k.th.gmode →
      (s.coreAt k.team.die k.team.core).lantern.length + small.length ≤ 64 →
      let taken := decide ((k.th.lanes k.act).length < (k.th.lanes rest).length)
      ∃ t, (∀ t', pushed k s n t = some t' → exec (.bra o j) s = .next t') ∧
        (t.coreAt k.team.die k.team.core).lantern = (s.coreAt k.team.die k.team.core).lantern ++ small.mapIdx (fun i l =>
          ejectRec k (s.nextOp + i) k.sec.stack.length l (if taken then target else k.th.pc + 4) join) ∧
        t.mem = s.mem)

/-- R25, R23, R247: join ends the path at the JOINPC of an innermost entry that is no call; anywhere else it does nothing. An ejected lane at
its own JOIN rejoins.
R244: at the end of a path the innermost entry gives PEND, while it holds lanes; else it waits for its ejected lanes; else its own
lanes go on at RESUME and it is popped; a recall entry gives back the path that it interrupted, with what that had still to execute. -/
def Obligations.JoinsAndPathEnds : Prop :=
  (∀ (s : State) (k : Iss), s.iss? = some k →
    (∀ e r, k.rec? = none → k.sec.stack = e :: r → e.kind ≠ .call → e.joinPc = some k.th.pc → poppable k s →
      exec .join s = .next ((retire k s).endPathOf k.team.tid k.sec.role)) ∧
    (k.rec? = none → (∀ e r, k.sec.stack = e :: r → e.kind = .call ∨ e.joinPc ≠ some k.th.pc) →
      exec .join s = .next (retireWith k s k.th.advance)) ∧
    (∀ d c r, k.rec? = some (d, c, r) → exec .join s = .next (if r.joinPc = some k.th.pc then lanternDone k s true else pass k s))) ∧
  (∀ (c : Section) (e : Entry) (r : List Entry), c.stack = e :: r →
    (∀ m pc, e.kind ≠ .recall → e.pend = some (m, pc) → m ≠ 0 →
      pathEnded c = { c with stack := { e with pend := none } :: r, th := { c.th with path := m, pc := pc }, state := readyState c }) ∧
    (e.kind ≠ .recall → e.pend = none → 0 < e.jc → pathEnded c = { c with state := .ejectedPending }) ∧
    (e.kind ≠ .recall → e.pend = none → e.jc = 0 → e.full ≠ 0 →
      pathEnded c = { c with stack := r, state := readyState c
                             th := { (if e.hadEjected then c.th.killLatches else c.th) with path := e.full, pc := e.resume } }) ∧
    (∀ m pc, e.kind = .recall → e.pend = some (m, pc) → m ≠ 0 →
      pathEnded c = { c with stack := decJc r (e.owner.getD 0), th := { c.th with path := m, pc := pc }, retry := e.retry, state := readyState c }))

/-- R23, R249, R250, R252, R254: call and calli push a call entry whose RESUME is PC + 4 and go to the routine with the active lanes, or those
of the lowest target; ret takes lanes out, and with the last one ends the path; an ejected lane keeps its return addresses in its record,
and is recalled by a ret that finds none.
R248, R251: brx sends lanes of one target straight there; with several targets the lowest one's lanes go and the others stand in PEND of
a branch entry at brx itself. A target outside global memory or not a multiple of 4 traps as a fetch does. -/
def Obligations.CallsAndIndexedBranches : Prop :=
  ((∀ (o : BitVec 25) (s : State) (k : Iss), AtIssue s k (.call o) ⟨true, [], []⟩ →
    let target := k.th.pc + 4 * o.signExtend 64
    (k.rec? = none → stackFull k.sec = false → ∀ t, pushed k s (k.sec.stack.length + 1) (retireWith k
      (modOwn k s (fun c => { c with stack := callEntry k.th.pc k.th.path none false :: c.stack })) { k.th with path := k.act, pc := target }) = some t →
      exec (.call o) s = .next t) ∧
    (∀ d c r, k.rec? = some (d, c, r) → r.calls.length < 8 → exec (.call o) s = .next (retireWith k
      (modRec k s (fun x => { x with calls := (k.th.pc + 4, false) :: x.calls })) { k.th with pc := target }))) ∧
  (∀ (a : Sel) (s : State) (k : Iss), AtIssue s k (.calli a) ⟨true, [], [(a, 2)]⟩ →
    let tg := lowTarget k a
    let aside (s : State) (again : Bool) := setAside k s (callEntry k.th.pc k.th.path none false) (k.act &&& ~~~tg.2) tg.2 again
    let put (s t : State) : Option State := if reuses k .call then some t else pushed k s (k.sec.stack.length + 1) t
    (∀ s' t, k.rec? = none → (reuses k .call = true ∨ stackFull k.sec = false) → budgetWord k s tg.1 tg.2 = .ok s' →
      put s' (retireWith k (aside s' false) { k.th with path := tg.2, pc := tg.1 }) = some t → exec (.calli a) s = .next t) ∧
    (∀ x s' t, k.rec? = none → (reuses k .call = true ∨ stackFull k.sec = false) → budgetWord k s tg.1 tg.2 = .error (some x, s') →
      put s' (raiseWith k (aside s' true) .ret x) = some t → exec (.calli a) s = .next t) ∧
    (∀ d c r s', k.rec? = some (d, c, r) → r.calls.length < 8 → budgetWord k s tg.1 tg.2 = .ok s' →
      exec (.calli a) s = .next (retireWith k (modRec k s' (fun x => { x with calls := (k.th.pc + 4, false) :: x.calls })) { k.th with pc := tg.1 }))) ∧
  (∀ (s : State) (k : Iss), AtIssue s k .ret ⟨true, [], []⟩ →
    let left := k.th.path &&& ~~~k.act
    let s' := modOwn k s (fun c => { c with stack := leaveBranches k.act c.stack })
    (k.rec? = none → k.sec.stack.any (fun e => e.kind == .call) = true → left = 0 →
      exec .ret s = .next ((retireWith k s' { k.th with path := left }).endPathOf k.team.tid k.sec.role)) ∧
    (k.rec? = none → k.sec.stack.any (fun e => e.kind == .call) = true → left ≠ 0 →
      exec .ret s = .next (retireWith k s' { k.th with path := left }.advance)) ∧
    (∀ d c r, k.rec? = some (d, c, r) → r.calls = [] → exec .ret s = .next (recallQuiet k s)) ∧
    (∀ d c r x l, k.rec? = some (d, c, r) → r.calls = x :: l →
      exec .ret s = .next (retireWith k (modRec k s (fun y => { y with calls := l })) { k.th with pc := x.1 })))) ∧
  (∀ (x : Sel) (j : BitVec 16) (s : State) (k : Iss), AtIssue s k (.brx x j) ⟨true, [], [(x, 2)]⟩ →
    let tg := lowTarget k x
    let join := joinAt k.th.pc j.toNat
    let alone : Prop := k.rec?.isSome ∨ (k.th.path = tg.2 ∧ reuses k .branch = false)
    let n := (if k.th.path = tg.2 ∨ reuses k .branch then 0 else 1) + (if cleared k = 0 ∨ j ≠ 0 then 0 else 1)
    let aside (again : Bool) : State :=
      leaveCleared k (setAside k s (branchEntry k.th.pc join k.th.path none) (k.th.path &&& ~~~cleared k &&& ~~~tg.2) tg.2 again) join tg.2
    let put (t : State) : Option State := if n = 0 then some t else pushed k s (k.sec.stack.length + n) t
    let go (s : State) := retireWith k s { k.th with path := tg.2, pc := tg.1 }
    let trap (s : State) (code : Nat) := raiseWith k s (.to (join.getD (k.th.pc + 4))) ⟨code, tg.2, tg.1, 0x403⟩
    (k.rec?.isSome ∨ n = 0 ∨ stackLacks k.sec n = false) →
    (tg.1.toNat < 2 ^ 49 → tg.1.toNat % 4 = 0 →
      (alone → exec (.brx x j) s = .next (go s)) ∧ (¬alone → ∀ t, put (go (aside false)) = some t → exec (.brx x j) s = .next t)) ∧
    (2 ^ 49 ≤ tg.1.toNat →
      (alone → exec (.brx x j) s = .next (trap s cSPACE)) ∧ (¬alone → ∀ t, put (trap (aside true) cSPACE) = some t → exec (.brx x j) s = .next t)) ∧
    (tg.1.toNat < 2 ^ 49 → tg.1.toNat % 4 ≠ 0 →
      (alone → exec (.brx x j) s = .next (trap s cALIGN)) ∧ (¬alone → ∀ t, put (trap (aside true) cALIGN) = some t → exec (.brx x j) s = .next t)))

/-- R253, R34, R18: exit takes the active lanes out of the section and of every entry; the others go on at PC + 4, and with none the path
ends. -/
def Obligations.Exits : Prop :=
  ∀ (s : State) (k : Iss), AtIssue s k .exit ⟨true, [], []⟩ →
    let th := { k.th with path := k.th.path &&& ~~~k.act, live := k.th.live &&& ~~~k.act }
    let s' := modOwn k s (fun c => { c with stack := dropLanes c.stack k.act })
    (k.rec? = none → k.sec.hmode = false → th.path = 0 →
      exec .exit s = .next ((retireWith k s' th).endPathOf k.team.tid k.sec.role)) ∧
    (k.rec? = none → k.sec.hmode = false → th.path ≠ 0 →
      exec .exit s = .next (freeGroups (retireWith k s' th.advance) k.team.tid)) ∧
    (k.rec? = none → k.sec.hmode = true → exec .exit s = .next (raise k s ⟨cOPND, k.act, 0, wordOf .exit⟩)) ∧
    (∀ r, k.rec? = some r → exec .exit s = .next (lanternDone k s false))

/-! ## Loads, stores, atomic steps -/

namespace Sys2Proof.Claims

/-- An element that an instruction can complete now: its place is known and open, or its value is there. -/
def stands : Ready → Bool
  | .spot .. | .val _ | .got _ => true
  | _ => false

/-- An element whose place is known and open. -/
def placed : Ready → Bool
  | .spot .. => true
  | _ => false

/-- The loads of the M format, with the window of their addresses (R255, R256). -/
inductive LoadRule : Instr → Window → Bool → Sel → BitVec 5 → Sel → BitVec 3 → Prop
  | ld (n : Bool) (d : Sel) (m : BitVec 5) (o : Sel) (i : BitVec 3) : LoadRule (.ld n d m o i) .any n d m o i
  | lds (n : Bool) (d : Sel) (m : BitVec 5) (o : Sel) (i : BitVec 3) : LoadRule (.lds n d m o i) .core n d m o i
  | ldp (n : Bool) (d : Sel) (m : BitVec 5) (o : Sel) (i : BitVec 3) : LoadRule (.ldp n d m o i) .priv n d m o i

/-- The stores of the M format. -/
inductive StoreRule : Instr → Window → Sel → BitVec 5 → Sel → BitVec 3 → Prop
  | st (d : Sel) (m : BitVec 5) (o : Sel) (i : BitVec 3) : StoreRule (.st d m o i) .any d m o i
  | sts (d : Sel) (m : BitVec 5) (o : Sel) (i : BitVec 3) : StoreRule (.sts d m o i) .core d m o i
  | stp (d : Sel) (m : BitVec 5) (o : Sel) (i : BitVec 3) : StoreRule (.stp d m o i) .priv d m o i

/-- The atomics (R261). -/
inductive AtomRule : Instr → OpKind → Bool → Sel → BitVec 5 → Sel → BitVec 3 → Prop
  | add (n : Bool) (d : Sel) (m : BitVec 5) (o : Sel) (c : BitVec 3) : AtomRule (.atomAdd n d m o c) .add n d m o c
  | min (n : Bool) (d : Sel) (m : BitVec 5) (o : Sel) (c : BitVec 3) : AtomRule (.atomMin n d m o c) .min n d m o c
  | max (n : Bool) (d : Sel) (m : BitVec 5) (o : Sel) (c : BitVec 3) : AtomRule (.atomMax n d m o c) .max n d m o c
  | and (n : Bool) (d : Sel) (m : BitVec 5) (o : Sel) (c : BitVec 3) : AtomRule (.atomAnd n d m o c) .and n d m o c
  | or (n : Bool) (d : Sel) (m : BitVec 5) (o : Sel) (c : BitVec 3) : AtomRule (.atomOr n d m o c) .or n d m o c
  | xor (n : Bool) (d : Sel) (m : BitVec 5) (o : Sel) (c : BitVec 3) : AtomRule (.atomXor n d m o c) .xor n d m o c
  | xchg (n : Bool) (d : Sel) (m : BitVec 5) (o : Sel) (c : BitVec 3) : AtomRule (.atomXchg n d m o c) .xchg n d m o c
  | cas (n : Bool) (d : Sel) (m : BitVec 5) (o : Sel) (c : BitVec 3) : AtomRule (.atomCas n d m o c) .cas n d m o c

/-- The reductions (R264). -/
inductive RedRule : Instr → OpKind → Sel → BitVec 5 → Sel → BitVec 3 → Prop
  | add (d : Sel) (m : BitVec 5) (o : Sel) (c : BitVec 3) : RedRule (.redAdd d m o c) .add d m o c
  | min (d : Sel) (m : BitVec 5) (o : Sel) (c : BitVec 3) : RedRule (.redMin d m o c) .min d m o c
  | max (d : Sel) (m : BitVec 5) (o : Sel) (c : BitVec 3) : RedRule (.redMax d m o c) .max d m o c
  | and (d : Sel) (m : BitVec 5) (o : Sel) (c : BitVec 3) : RedRule (.redAnd d m o c) .and d m o c
  | or (d : Sel) (m : BitVec 5) (o : Sel) (c : BitVec 3) : RedRule (.redOr d m o c) .or d m o c
  | xor (d : Sel) (m : BitVec 5) (o : Sel) (c : BitVec 3) : RedRule (.redXor d m o c) .xor d m o c

/-- The registers that an atomic names (R261): with N = 1 the data only; cas takes a second one, the swap value. -/
def atomUses (kind : OpKind) (n w : Bool) (d o : Sel) : Uses :=
  ⟨n, if n then [] else [wsel w d], [(d, if kind = .cas then (if w then 4 else 2) else (if w then 2 else 1)), (o, 1)]⟩

/-- The elements of an atomic or reduction, of `e` bytes, with data from D and the swap value from the registers after it (R261). -/
def stepElems (k : Iss) (kind : OpKind) (w : Bool) (d : Sel) (m : BitVec 5) (o : Sel) (e : Nat) : List Elem :=
  (k.th.lanes k.act).map (fun l => mElem k .any m o e 0 l (BitVec.ofNat 64 (k.th.src w l d))
    (if kind = .cas then k.th.regVal l (BitVec.ofNat 8 (d.toNat + (if w then 2 else 1))) w else 0))

/-- The state after the accesses of an instruction are over: what answered them has been used. -/
def loadsOver (k : Iss) (s : State) : State := hostOver k (s.homesServed k.team.tid k.homeKey)

/-- The lane operations of the elements that stand at a place; those that the host or an earlier step has served are over. -/
def openOps (rs : List (Elem × Ready)) : List LaneOp :=
  (laneOps rs).filterMap (fun x => match x.1 with
    | .spot .. => some x.2
    | _ => none)

/-- The elements of a store that lie in the scratchpad of the issuer's own core or of a die: they are written one by one (R258). -/
def apart (steps : Bool) (rs : List (Elem × Ready)) : List LaneOp :=
  (openOps rs).filter (fun x => !(steps || addrClass x.addr.toNat == 2) && (match x.spot with
    | some (.phys _) => false
    | _ => true))

/-- The effect of a store, or of a step that returns nothing, whose elements all stand (R257, R262, R264): near elements perform or enter
the core's buffer in lane order; the others form one remote operation, counted on OREMT, together with what the host has performed. -/
def posted (k : Iss) (s : State) (steps : Bool) (op : MemOp) (rs : List (Elem × Ready)) : State :=
  let far := (openOps rs).filter (fun x => steps || addrClass x.addr.toNat == 2)
  let near := (openOps rs).filter (fun x => !(steps || addrClass x.addr.toNat == 2))
  let part := k.host?.bind HostReq.part
  let id := part.getD s.nextOp
  let s1 := near.foldl (fun s x => s.storeLane k op x) { s with nextOp := s.nextOp + 1 }
  let s2 : State := if far.isEmpty then s1 else
    { s1 with remote := s1.remote ++ [⟨id, k.team.tid, k.sec.role, k.rec?.map (fun r => r.2.2.id), k.sec.lastRel, { op with lanes := far }⟩] }
  let s3 := if far.isEmpty || part.isSome then s2 else modOwn k s2 (outAdd 3 id)
  let s4 := match part with
    | some id => (hostOver k s3).partDone k.team.tid k.sec.role id
    | none => s3
  retireWith k (loadsOver k s4) k.th.advance

/-- The effect of an atomic that returns the old value (R261, R262): each lane's step in order, at its place. -/
def stepped (k : Iss) (s : State) (op : MemOp) (rs : List (Elem × Ready)) : List (Nat × Nat) × State :=
  let got := rs.filterMap (fun x => match x.2 with
    | .got v => some (x.1.lane, v.toNat)
    | _ => none)
  (openOps rs).foldl (fun acc x => (acc.1 ++ [(x.lane, (acc.2.atomLane k op x).1)], (acc.2.atomLane k op x).2)) (got, s)

end Sys2Proof.Claims

/-- R255 to R257, R259: a load whose elements all stand writes each lane's element, extended by TYPE, to D and goes on.
R256, R257, R102: lds of aligned elements that lie in present lines of the team's own scratchpad, with no older remote step of the
section there and no uncorrected error, reads their bytes, little-endian.
R77, R78, R259: where some elements fault, those lanes trap together, described by the lowest, and the others keep what they read; an
element whose data holds an uncorrected error faults with ECC, its address and TRAPAUX 0.
R91: the fault of a watchpoint is a trap, or with ACT 1 a hold of the section before its instruction, with code WATCH. -/
def Obligations.Loads : Prop :=
  (∀ i win n d m o im, LoadRule i win n d m o im → ∀ (s : State) (k : Iss) (e : Nat),
    let ty := gType k.th.gmode
    let w := tyPair ty
    let rs := s.readyAll k .load none e ((k.th.lanes k.act).map (fun l => mElem k win m o e im.toNat l 0 0))
    AtIssue s k i ⟨n, [wsel w d], [(o, 1)]⟩ → tyBytes ty = some e → pairDst w d = true →
    (∀ x ∈ rs, stands x.2 = true) →
    exec i s = .next (retireWith k (loadsOver k ((s.loadAll k e rs).2.unpromote k rs))
      ((k.th.putResult n w k.path k.act d (fun l => loadExt ty e (laneVal (s.loadAll k e rs).1 l))).advance))) ∧
  (∀ (n : Bool) (d : Sel) (m : BitVec 5) (o : Sel) (im : BitVec 3) (s : State) (k : Iss) (e : Nat),
    let ty := gType k.th.gmode
    let w := tyPair ty
    let off (l : Nat) : Nat := (k.th.winSum l m o e im.toNat).toNat
    AtIssue s k (.lds n d m o im) ⟨n, [wsel w d], [(o, 1)]⟩ → tyBytes ty = some e → pairDst w d = true →
    s.team? k.team.tid = some k.team → k.team.die < 4 → k.team.core < 64 → k.team.scratchSize < 2 ^ 32 → k.team.bank = .active →
    k.team.lines = [] → s.remote = [] → k.sec.taps = [] → k.sec.cmp = [] → k.sec.hostReq = none →
    (∀ l ∈ k.th.lanes k.act, 0 ≤ k.th.winSum l m o e im.toNat ∧ off l % e = 0 ∧ off l + e ≤ k.team.scratchSize ∧
      s.eccAt (.team k.team.tid (off l)) e = false) →
    exec (.lds n d m o im) s = .next (retireWith k (loadsOver k s) ((k.th.putResult n w k.path k.act d
      (fun l => loadExt ty e (if l ∈ k.th.lanes k.act then readNat k.team.scratch (off l) e else 0))).advance))) ∧
  (∀ i win n d m o im, LoadRule i win n d m o im → ∀ (s : State) (k : Iss) (e : Nat) (x : Trap),
    let ty := gType k.th.gmode
    let w := tyPair ty
    let rs := s.readyAll k .load none e ((k.th.lanes k.act).map (fun l => mElem k win m o e im.toNat l 0 0))
    AtIssue s k i ⟨n, [wsel w d], [(o, 1)]⟩ → tyBytes ty = some e → pairDst w d = true →
    (∀ y ∈ rs, stands y.2 = true ∨ ∃ c a u, y.2 = .fault c a u) → trapOf rs = some x → mayTrap k s = true →
    exec i s = .next (raiseAccess k (putTh k (loadsOver k ((s.loadAll k e rs).2.unpromote k rs))
      (putSome k n w d (k.th.lanes (maskOf (okLanes rs))) (fun l => loadExt ty e (laneVal (s.loadAll k e rs).1 l)))) x)) ∧
  (∀ (s : State) (k : Iss) (f : Form) (sys : Option Bool) (n : Nat) (e : Elem) (sp : Spot) (vas : List (Nat × Nat)),
    f = .load ∨ f = .atom → s.ready k f sys n e = .spot sp vas → s.watch? k.team.ctx f.access (s.vasOf k f.access n e) = none → s.eccAt sp n = true →
    s.readyAll k f sys n [e] = [(e, .fault cECC (BitVec.ofNat 64 e.a) 0)]) ∧
  (∀ (s : State) (k : Iss) (x : Trap), k.rec? = none → k.sec.taps = [] → s.sec? k.team.tid k.sec.role = some k.sec →
    (watchHolds k s x = false → raiseAccess k s x = raise k s x) ∧
    (watchHolds k s x = true → ∃ c, (raiseAccess k s x).sec? k.team.tid k.sec.role = some c ∧ c.state = .held ∧ c.prev = k.sec.state ∧
      c.trapCode.toNat = cWATCH ∧ c.th.pc = k.sec.th.pc))

/-- R257: a load leaves every byte of memory as it was: physical memory, slice copies, team and die scratchpad. -/
def Obligations.LoadFrame : Prop :=
  ∀ (k : Iss) (s : State) (e : Nat) (rs : List (Elem × Ready)) (th : Thread),
    let t := retireWith k (loadsOver k ((s.loadAll k e rs).2.unpromote k rs)) th
    t.mem = s.mem ∧ t.slices = s.slices ∧ t.diesT = s.diesT ∧ (∀ tid, (t.team? tid).map Team.scratch = (s.team? tid).map Team.scratch)
      ∧ ∀ sp n, t.spotRead sp n = s.spotRead sp n

/-- R257, R258, R353, R355: a store whose elements all stand, outside a dual-run launch, performs or buffers them, and goes on; while more
than one of a section's elements lies in the scratchpad of its core or of a die, the first of them is written and the others stay to be. -/
def Obligations.Stores : Prop :=
  ∀ i win d m o im, StoreRule i win d m o im → ∀ (s : State) (k : Iss) (e : Nat),
    let ty := gType k.th.gmode
    let w := tyPair ty
    let es := (k.th.lanes k.act).map (fun l => mElem k win m o e im.toNat l (BitVec.ofNat 64 (k.th.src w l d)) 0)
    let op : MemOp := { kind := .store, ty := ty, size := e, scope := 0, rd := 0, lanes := [], atomic := false }
    let rs := s.readyAll k .store none e es
    AtIssue s k i ⟨true, [], [wsel w d, (o, 1)]⟩ → tyBytes ty = some e → pairSrc w d = true →
    (∀ x ∈ rs, stands x.2 = true) → k.sec.dmr = false → (counter k.sec 3 < 63 ∨ (k.host?.bind HostReq.part).isSome) →
    ((k.rec?.isSome ∨ (apart false rs).length ≤ 1) → exec i s = .next (posted k s false op rs)) ∧
    (∀ x y r, k.rec? = none → apart false rs = x :: y :: r →
      exec i s = .next (serve k (s.storeLane k op x) op false (k.host?.bind HostReq.part) [(x.lane, 0)]))

/-- R94, R119, R184, R187, R257: what a write leaves unchanged. A byte performed at its home changes no other byte there, the line that
a full slice evicts for it aside; bytes of device memory and of host lines that the slices hold evict none. An element written to a
team's scratchpad changes its own bytes, and, where it writes a count of an initialised barrier, those of the barrier. A store or a posted
step changes nothing at a home before it performs there, and of the scratchpads only bytes of its own elements' 16-byte cells. -/
def Obligations.WriteFrames : Prop :=
  (∀ (s : State) (pa : Nat) (b : Byte) (a : Nat), a ≠ pa →
    (let line := pa / 128 * 128
     let held := (s.sliceAt (lineHome line).1 (lineHome line).2).lines
     isHost pa = true → s.sliceLine? line = none → 32768 ≤ held.length → ∀ l, held.head? = some l → a < l.1 ∨ l.1 + 128 ≤ a) →
    (s.homePut pa b).homeRead a 1 = s.homeRead a 1) ∧
  (∀ (s : State) (bs : List (Nat × Byte)) (a : Nat), (∀ b ∈ bs, b.1 ≠ a ∧ (isHost b.1 = true → (s.sliceLine? (b.1 / 128 * 128)).isSome)) →
    (s.homeWrite bs).homeRead a 1 = s.homeRead a 1) ∧
  (∀ (t : Team) (off : Nat) (bs : List Byte) (a : Nat), bs.length ≤ 8 → (a < off ∨ off + bs.length ≤ a) →
    (∀ c, c = off ∨ (c = off + 4 ∧ 4 < bs.length) → (t.tbar (c / 16 * 16)).init = false ∨ a < c / 16 * 16 ∨ c / 16 * 16 + 16 ≤ a) →
    readBytes (t.putElem off bs).scratch a 1 = readBytes t.scratch a 1) ∧
  (∀ (k : Iss) (s : State) (steps : Bool) (op : MemOp) (rs : List (Elem × Ready)), 0 < op.size → op.size ≤ 8 →
    let t := posted k s steps op rs
    let near := (openOps rs).filter (fun x => !(steps || addrClass x.addr.toNat == 2))
    t.mem = s.mem ∧ t.slices = s.slices ∧
    (∀ tid a, (∀ x ∈ near, ∀ off, x.spot = some (.team tid off) → a < off / 16 * 16 ∨ (off + op.size + 15) / 16 * 16 ≤ a) →
      t.spotRead (.team tid a) 1 = s.spotRead (.team tid a) 1) ∧
    (∀ d a, (∀ x ∈ near, ∀ off, x.spot = some (.die d off) → a < off ∨ off + op.size ≤ a) →
      t.spotRead (.die d a) 1 = s.spotRead (.die d a) 1))

/-- R261, R264: a reduction, or an atomic with N = 1, whose elements all stand forms one remote operation, counted on OREMT, and goes on. -/
def Obligations.PostedSteps : Prop :=
  (∀ i kind d m o c, RedRule i kind d m o c → ∀ (s : State) (k : Iss) (e : Nat),
    let ty := gType k.th.gmode
    let w := tyPair ty
    let es := (k.th.lanes k.act).map (fun l => mElem k .any m o e 0 l (BitVec.ofNat 64 (k.th.src w l d)) 0)
    let op : MemOp := { kind := kind, ty := ty, size := e, scope := c, rd := gRd k.th.gmode, lanes := [], atomic := false }
    let rs := s.readyAll k .red (s.sysWay op) e es
    AtIssue s k i ⟨true, [], [wsel w d, (o, 1)]⟩ → atomTy kind ty = true → tyBytes ty = some e → pairSrc w d = true →
    (∀ x ∈ rs, stands x.2 = true) →
    k.sec.dmr = false → (counter k.sec 3 < 63 ∨ (k.host?.bind HostReq.part).isSome) →
    exec i s = .next (posted k s true op rs)) ∧
  (∀ i kind d m o c, AtomRule i kind true d m o c → ∀ (s : State) (k : Iss) (e : Nat),
    let ty := gType k.th.gmode
    let w := tyPair ty
    let es := stepElems k kind w d m o e
    let op : MemOp := { kind := kind, ty := ty, size := e, scope := c, rd := gRd k.th.gmode, lanes := [], atomic := true }
    let rs := s.readyAll k .post (s.sysWay op) e es
    AtIssue s k i (atomUses kind true w d o) → atomTy kind ty = true → tyBytes ty = some e →
    (if kind = .cas then w = true → d.toNat % 4 = 0 else pairSrc w d = true) →
    (∀ x ∈ rs, stands x.2 = true) →
    k.sec.dmr = false → (counter k.sec 3 < 63 ∨ (k.host?.bind HostReq.part).isSome) →
    exec i s = .next (posted k s true op rs))

/-- R261, R262, R265: an atomic that returns the old value, outside dual-run launches, performs each lane's step in order and writes the old
value to D, in deterministic mode once the order log has taken, or in replay allows, its arrivals; a section outside that mode does one
lane's step at a time, so that the steps of others may fall between them. -/
def Obligations.Atomics : Prop :=
  ∀ i kind d m o c, AtomRule i kind false d m o c → ∀ (s : State) (k : Iss) (e : Nat),
    let ty := gType k.th.gmode
    let w := tyPair ty
    let es := stepElems k kind w d m o e
    let op : MemOp := { kind := kind, ty := ty, size := e, scope := c, rd := gRd k.th.gmode, lanes := [], atomic := true }
    let rs := s.readyAll k .atom (s.sysWay op) e es
    AtIssue s k i (atomUses kind false w d o) → atomTy kind ty = true → tyBytes ty = some e →
    (if kind = .cas then w = true → d.toNat % 4 = 0 else pairDst w d = true) →
    (∀ x ∈ rs, stands x.2 = true) → k.sec.dmr = false →
    ((k.rec?.isSome ∨ k.sec.det = true ∨ (openOps rs).length ≤ 1) → ∀ s', atomTurn k.team k.sec s (openOps rs) = .go s' →
      exec i s = .next (retireWith k (loadsOver k (stepped k s' op rs).2)
        ((k.th.putResult false w k.path k.act d (fun l => BitVec.ofNat 64 (laneVal (stepped k s' op rs).1 l))).advance))) ∧
    (k.sec.det = false → ∃ s', atomTurn k.team k.sec s (openOps rs) = .go s') ∧
    (∀ x y r, k.rec? = none → k.sec.det = false → openOps rs = x :: y :: r →
      exec i s = .next (serve k (s.atomLane k op x).2 op false none [(x.lane, BitVec.ofNat 64 (s.atomLane k op x).1)]))

/-- R55, R261, R264, R322, R323: the value that one step writes, for an integer TYPE of 32 or 64 bits: the sum modulo 2^n, the lesser or
greater under the TYPE's sign, the bitwise result, the data, or the swap value when the old value equals the data; lupd writes nothing to a
record that is frozen, of another hypothesis or reserved.
R322, R323: lupd whose records all stand forms one remote operation of 16-byte steps, counted as a reduction. -/
def Obligations.StepValuesAndUpdates : Prop :=
  ((∀ (ty : BitVec 5) (rd : BitVec 2) (n old data swap : Nat), ((ty = 2 ∨ ty = 6) ∧ n = 4) ∨ ((ty = 3 ∨ ty = 7) ∧ n = 8) →
    old < 2 ^ (8 * n) → data < 2 ^ (8 * n) →
    opNew .add ty rd n old data swap = some ((old + data) % 2 ^ (8 * n)) ∧
    opNew .min ty rd n old data swap = some (if (if ty = 2 ∨ ty = 3 then sext old (8 * n) ≤ sext data (8 * n) else (old : Int) ≤ data) then old else data) ∧
    opNew .max ty rd n old data swap = some (if (if ty = 2 ∨ ty = 3 then sext data (8 * n) ≤ sext old (8 * n) else (data : Int) ≤ old) then old else data) ∧
    opNew .and ty rd n old data swap = some (old &&& data) ∧ opNew .or ty rd n old data swap = some (old ||| data) ∧
    opNew .xor ty rd n old data swap = some (old ^^^ data) ∧ opNew .xchg ty rd n old data swap = some data ∧
    opNew .cas ty rd n old data swap = (if old = data then some swap else none)) ∧
  (∀ old delta hyp : Nat, (delta % 2 ^ 31 = 0 ∨ bits old 67 61 ≠ 0 ∨ bits old 64 2 ≠ hyp ∨ bits old 66 1 = 1) → latentNew old delta hyp = none)) ∧
  (∀ (d a b : Sel) (s : State) (k : Iss),
    let base := (k.th.kpair (uniNo a)).toNat
    let es := (k.th.lanes k.act).map (fun l =>
      let i := (k.th.src32 l b).toNat
      let ad := (base + 16 * (i % 2 ^ 30)) % 2 ^ 64
      ({ lane := l, a := ad, bad := decide (addrClass ad ≠ 0), data := (k.th.src32 l d).setWidth 64, data2 := BitVec.ofNat 64 (i / 2 ^ 30) } : Elem))
    let op : MemOp := { kind := .lupd, ty := 0, size := 16, scope := 0, rd := 0, lanes := [], atomic := false }
    let rs := s.readyAll k .red (some false) 16 es
    AtIssue s k (.lupd d a b) ⟨true, [], [(d, 1), (a, 2), (b, 1)]⟩ →
    (∀ x ∈ rs, stands x.2 = true) →
    k.sec.dmr = false → (counter k.sec 3 < 63 ∨ (k.host?.bind HostReq.part).isSome) →
    exec (.lupd d a b) s = .next (posted k s true op rs))

/-- R165, R166, R202, R260: ldt and stt read their shape record first; where it is legal, every lane lies inside the tensor and every element
stands, they load or store at the permuted addresses. -/
def Obligations.ShapedAccess : Prop :=
  ∀ (d : Sel) (m : BitVec 5) (v : Sel) (h : BitVec 3) (s s' : State) (k : Iss) (r : Shape),
    let a := (k.th.kpair (2 * m.toNat)).toNat
    let w := decide (r.esize = 8)
    a % 128 = 0 → recordRead k s a = .ok (r, s') → r.ok false false = true → (∀ l ∈ k.th.lanes k.act, outside k r v l = none) →
    (∀ n : Bool,
      let es := (k.th.lanes k.act).map (fun l => ({ lane := l, a := shapeAddr k r v l, bad := false, data := 0, data2 := 0 } : Elem))
      let rs := s'.readyAll k .load none r.esize es
      let ty := gType k.th.gmode
      AtIssue s k (.ldt n d m v h) ⟨n, [wsel w d], [(v, r.rank)]⟩ → pairDst w d = true →
      (∀ x ∈ rs, stands x.2 = true) →
      exec (.ldt n d m v h) s = .next (retireWith k (loadsOver k ((s'.loadAll k r.esize rs).2.unpromote k rs))
        ((k.th.putResult n w k.path k.act d (fun l =>
          loadExt (if tySigned ty ∨ ty = 8 then 0 else 4) r.esize (shapeWords k r v l (laneVal (s'.loadAll k r.esize rs).1 l)))).advance))) ∧
    (let es := (k.th.lanes k.act).map (fun l =>
        ({ lane := l, a := shapeAddr k r v l, bad := false, data := BitVec.ofNat 64 (shapeWords k r v l (k.th.src w l d)), data2 := 0 } : Elem))
      let op : MemOp := { kind := .store, ty := 0, size := r.esize, scope := 0, rd := 0, lanes := [], atomic := false }
      let rs := s'.readyAll k .store none r.esize es
      AtIssue s k (.stt d m v h) ⟨true, [], [wsel w d, (v, r.rank)]⟩ → pairSrc w d = true →
      (∀ x ∈ rs, stands x.2 = true) → k.sec.dmr = false → (counter k.sec 3 < 63 ∨ (k.host?.bind HostReq.part).isSome) →
      ((k.rec?.isSome ∨ (apart false rs).length ≤ 1) → exec (.stt d m v h) s = .next (posted k s' false op rs)) ∧
      (∀ x y t, k.rec? = none → apart false rs = x :: y :: t →
        exec (.stt d m v h) s = .next (serve k (s'.storeLane k op x) op false (k.host?.bind HostReq.part) [(x.lane, 0)])))

/-! ## Matrix, rendering, sampling, belief -/

namespace Sys2Proof.Claims

/-- The lines of the team's scratchpad that an instruction reads as a whole are present, and no older remote step of its section lies
there (R105, R17). -/
structure Present (s : State) (k : Iss) (lines : List Nat) : Prop where
  own  : s.ownRemote k (.team k.team.tid 0) 1 = false
  here : touch s k.team.tid lines = .ok

/-- The four majors of R292. -/
inductive MatRule : MatKind → Instr → Bool → Sel → Sel → Sel → Prop
  | mma (n : Bool) (d a b : Sel) : MatRule .mma (.mma n d a b) n d a b
  | mmad (n : Bool) (d a b : Sel) : MatRule .mmad (.mmad n d a b) n d a b
  | mmadg (n : Bool) (d a b : Sel) : MatRule .mmadg (.mmadg n d a b) n d a b
  | mmadw (n : Bool) (d a b : Sel) : MatRule .mmadw (.mmadw n d a b) n d a b

/-- The active lanes of a group. -/
def groupLanes (k : Iss) (g : Nat) : List Nat := (k.th.lanes k.act).filter (fun l => l / 32 == g)
/-- The offset of a group's record (R292). -/
def recAt (k : Iss) (b : Sel) (g : Nat) : Nat := matOff k b (groupLanes k g)
/-- A group's record (R49, R51, R169). -/
def recIn (k : Iss) (b : Sel) (g : Nat) : Option MatRec :=
  if recPlaced k.team (recAt k b g) then MatRec.of (readNat k.team.scratch (recAt k b g) 16) else none
/-- The passes of a major, one a group, in ascending order (R214, R292). -/
def matPasses (k : Iss) (b : Sel) : List MatPass :=
  (groupsOf k.act k.th.groups).filterMap (fun g => (recIn k b g).map (fun r => (⟨g, groupLanes k g, recAt k b g, r⟩ : MatPass)))

/-- A major whose operands, registers, branch map, curves and scratchpad regions are as R51, R52, R169, R171, R172, R206 and R292 want
them. -/
structure MatReady (m : MatKind) (i : Instr) (s : State) (k : Iss) (d a b : Sel) : Prop where
  issuer  : s.iss? = some k
  formed  : i.wellFormed = true
  active  : k.act ≠ 0
  records : Present s k (((groupsOf k.act k.th.groups).map (fun g => (recAt k b g, 16))).flatMap (fun r => rangeLines r.1 r.2))
  legal   : ∀ g ∈ groupsOf k.act k.th.groups, matOpnd m k d.toNat a.toNat g (recAt k b g) (recIn k b g) = none
  usable  : regFault k.th k.act ⟨true, [], (matPasses k b).flatMap (fun p => [(d, (m.runs p.r).1), (a, (m.runs p.r).2)]) ++ [(b, 1)]⟩ = none
  map     : m ≠ .mma → ∀ i < 64, (tget 0 k.sec.bmap i).toNat < 8
  curves  : m ≠ .mma → ∀ p ∈ matPasses k b, badSlot k.sec p = none
  regions : Present s k (((matPasses k b).flatMap (fun p => m.scales p.r ++ m.tapsUsed k.sec p.r)).flatMap (fun r => rangeLines r.1 r.2))
  sound   : s.failedIn k.team.tid (m.reads k.sec (matPasses k b)) = none
  copies  : m = .mmad → ∀ p ∈ matPasses k b, s.copyReads k p.r.tap (1024 * (topBranch k.sec (matK p.r.afmt) + 1)) = false

/-- Some pass of a major is emulated: one of its formats is q6 (R53). -/
def emulated (k : Iss) (b : Sel) : Bool := (matPasses k b).any (fun p => p.r.afmt == 3 || p.r.bfmt == 3)

/-- The loads and stores of an access are over, with what the host and page homes answered. -/
def pixelsIn (k : Iss) (t : RTile) (a : Sel) (layer : Option Nat) (s : State) (touches : Pixel → Bool) (size : Nat)
    (reads : Bool) (off : Pixel → Nat) : Prop :=
  (∀ p ∈ pixelsOf k t a layer, p.bad = none) ∧
  ∀ p ∈ pixelsOf k t a layer, touches p = true →
    let e : Elem := { lane := p.lane, a := (coreAddr k.team (off p)).toNat, bad := false, data := 0, data2 := 0 }
    placed (s.eccOf reads size e (s.readyAt k .atom none size e)) = true

/-- The depth that a lane brings to dtest (R304). -/
def laneDepth (k : Iss) (a : Sel) (x : Pixel) : Nat := (k.th.vreg x.lane (a.toNat + 3)).toNat
/-- One lane of dtest (R311): the stored depth is replaced when the sample is covered and nearer. -/
def dtestStep (k : Iss) (t : RTile) (a : Sel) (s : State) (x : Pixel) : State :=
  if x.cov && nearer (laneDepth k a x) (depthOf k s t x) then tilePut k s (t.depth x.layer x.i) (toBytes 4 (laneDepth k a x)) else s
/-- What each lane of dtest judged, in order, and the tile after it. -/
def dtestRun (k : Iss) (t : RTile) (a : Sel) (s : State) (ps : List Pixel) : State × List (Nat × Bool) :=
  ps.foldl (fun acc x => (dtestStep k t a acc.1 x, acc.2 ++ [(x.lane, nearer (laneDepth k a x) (depthOf k acc.1 t x))])) (s, [])
/-- One lane of blend (R312): four channels of the colour. -/
def blendStep (k : Iss) (t : RTile) (o : BitVec 3) (a : Sel) (acc : State × Word) (x : Pixel) : State × Word :=
  let src := (k.th.vreg x.lane (a.toNat + 1)).toNat + (k.th.vreg x.lane (a.toNat + 2)).toNat * 2 ^ 32
  let old := ofBytes (acc.1.spotRead (.team k.team.tid (t.colour x.layer x.i)) 8)
  let rs := (List.range 4).map (fun c => blendChan k.th.gmode o.toNat (bits src (16 * c) 16) (bits old (16 * c) 16) (bits src 48 16))
  (tilePut k acc.1 (t.colour x.layer x.i) (rs.flatMap (fun r => toBytes 2 r.1)), acc.2 ||| rs.foldl (fun f r => f ||| r.2) 0)
/-- One lane of pstore (R313). -/
def pstoreStep (k : Iss) (t : RTile) (a : Sel) (s : State) (x : Pixel) : State :=
  tilePut k s (t.prov x.layer x.i) (toBytes 4 (k.th.vreg x.lane (a.toNat + 1)).toNat ++ toBytes 4 (k.th.vreg x.lane (a.toNat + 2)).toNat)

/-- The twelve words of rast's block, its token, and what R109, R305 and R309 ask of them. -/
def rastBlock (k : Iss) (a : Sel) : List Nat := (List.range 12).map (fun i => (k.th.kreg (uniNo a + i)).toNat)
def rastFormed (k : Iss) (a b : Sel) : Prop :=
  let w (i : Nat) : Nat := (rastBlock k a).getD i 0
  w 9 < 2 ^ 30 ∧ w 10 < 8 ∧ w 11 % 2 = 0 ∧ (k.th.kreg (uniNo b)).toNat ≤ tileW (w 11) * tileH (w 11)

/-- The walk of a lane through memory stands on loads that are all answered now (R257). -/
def walks {α : Type} (k : Iss) (s : State) (f : Nat → State → Walk α) (oks : List (Nat × α)) (s' : State) : Prop :=
  walkLanes (k.th.lanes k.act) f s = (oks.map (fun x => (x.1, Except.ok x.2)), s')

/-- The words of a lane that completed. -/
def laneWord (oks : List (Nat × List Nat)) (l i : Nat) : Word := BitVec.ofNat 32 (((oks.find? (fun x => x.1 == l)).map (fun x => x.2.getD i 0)).getD 0)

/-- What tex gives one lane (R314, R315). -/
def texLane (k : Iss) (a : Sel) (t : Texture) (l : Nat) (s : State) : Walk (List Nat) :=
  match allSome ((List.range 6).map (laneQ k l a)) with
  | some [u, v, ux, vx, uy, vy] =>
    let taps := t.taps u v ux vx uy vy
    match readEls k l t.bytes none (taps.map (fun p => t.addr p.m p.i p.j)) s with
    | .error e => .error e
    | .ok (vs, s) =>
      .ok ((List.range 4).map (fun c => if t.fmt = 0 ∨ c = 0 then t.filtered c (taps.zip vs) else if c = 3 then 0x3F800000 else 0), s)
  | _ => .ok (t.nans, s)

/-- What texg gives one lane (R316). -/
def texgLane (k : Iss) (a : Sel) (t : Texture) (l : Nat) (s : State) : Walk (List Nat) :=
  let m := Nat.min (k.th.vreg l (a.toNat + 2)).toNat (t.levels - 1)
  let c := (k.th.vreg l (a.toNat + 3)).toNat % 4
  match laneQ k l a 0, laneQ k l a 1 with
  | some u, some v =>
    match readEls k l t.bytes none ((t.bilerp Q.one m u v).map (fun p => t.addr p.m p.i p.j)) s with
    | .error e => .error e
    | .ok (vs, s) => .ok (vs.map (fun x => if t.fmt = 2 ∧ c = 0 then x else chanOut (t.chan x c)), s)
  | _, _ => .ok (List.replicate 4 (t.nans.getD c 0), s)

end Sys2Proof.Claims

/-- R53, R214, R292 to R299: a matrix major writes its results, flags and latches and goes on, its taps held until MATRIX_WRITEBACK; a
section whose pass has a q6 format waits for its emulation instead; the lantern carries either out at once, with its taps. -/
def Obligations.MatrixMajors : Prop :=
  ∀ m i n d a b, MatRule m i n d a b → ∀ (s : State) (k : Iss), MatReady m i s k d a b →
    let r := matRes m k n d a (matPasses k b)
    let th := k.th.putMat k.path k.act r
    (k.rec? = none → emulated k b = false → exec i s = .next (modOwn k (retireWith k s th.advance) (fun c => { c with taps := r.taps }))) ∧
    (k.rec? = none → emulated k b = true →
      exec i s = .next (waitOn k (modOwn k s (fun c => { c with emu := some r, th := c.th.killLatches })) .fmtEmu .event)) ∧
    (k.rec? ≠ none → exec i s = .next (retireWith k (s.modTeam k.team.tid (fun t => { t with scratch := tsets 0 t.scratch r.taps }))
      (if emulated k b then th.killLatches else th).advance))

/-- R215, R292, R295: a matrix major changes no vector register outside its run in the lanes of its passes, none with N = 1, and no uniform
register or predicate. -/
def Obligations.MatrixFrame : Prop :=
  ∀ (m : MatKind) (k : Iss) (n : Bool) (d a : Sel) (ps : List MatPass),
    let th := k.th.putMat k.path k.act (matRes m k n d a ps)
    (∀ l x, x < 256 → (n = true ∨ ∀ p ∈ ps, l ∈ p.lanes → x < d.toNat ∨ d.toNat + (m.runs p.r).1 ≤ x) → d.toNat + 64 ≤ 256 →
      th.vreg l x = k.th.vreg l x) ∧
    (∀ x, th.kreg x = k.th.kreg x) ∧ (∀ l p, th.pred l p = k.th.pred l p)

/-- R289 to R291, R300: mldn and mldw load the tile of every port of the path from the active lanes, with their edge and B format; curve
fills a slot and bmap the branch map, whatever the guard. -/
def Obligations.MatrixTables : Prop :=
  (∀ (s : State) (k : Iss) (a b : Sel) (i : Instr) (edge : BitVec 2) (r : MatRec),
    let off := (k.th.kreg (uniNo b)).toNat
    let n := if r.bfmt = 9 then 4 else 8
    (i = .mldn a b ∧ edge = 1) ∨ (i = .mldw a b ∧ edge = 2) →
    AtIssue s k i ⟨true, [], [(a, n), (b, 1)]⟩ → k.rec? = none → recPlaced k.team off = true → Present s k (rangeLines off 16) →
    s.failedIn k.team.tid [(off, 16)] = none → MatRec.of (readNat k.team.scratch off 16) = some r → a.toNat + n ≤ 192 →
    exec i s = .next (modOwn k (pass k s) (fun c => { c with tiles := (groupsOf k.path k.th.groups).foldl (fun ts g =>
      let t := (groupLanes k g).foldl (fun t l => loadCol k.th a.toNat n l t) (tget tile0 ts (portOf k.sec g))
      tset tile0 ts (portOf k.sec g) { t with edge := edge, tfmt := BitVec.ofNat 4 r.bfmt }) c.tiles }))) ∧
  (∀ (s : State) (k : Iss) (i : BitVec 3) (b : Sel), s.iss? = some k → (Instr.curve i b).wellFormed = true → k.path ≠ 0 → k.rec? = none →
    let off := (k.th.kreg (uniNo b)).toNat
    off % 16 = 0 → off + 144 ≤ k.team.scratchSize → Present s k (rangeLines off 144) → s.failedIn k.team.tid [(off, 144)] = none →
    exec (.curve i b) s = .next (modOwn k (pass k s) (fun c =>
      { c with slots := tset none c.slots i.toNat (some ⟨off, readBytes k.team.scratch off 144⟩) }))) ∧
  (∀ (s : State) (k : Iss) (b : Sel), s.iss? = some k → (Instr.bmap b).wellFormed = true → k.path ≠ 0 → k.rec? = none →
    let off := (k.th.kreg (uniNo b)).toNat
    off % 64 = 0 → off + 64 ≤ k.team.scratchSize → Present s k (rangeLines off 64) → s.failedIn k.team.tid [(off, 64)] = none →
    exec (.bmap b) s = .next (modOwn k (pass k s) (fun c =>
      { c with bmap := writeBytes [] 0 (readBytes k.team.scratch off 64), bmapOff := off })))

/-- R305, R309: rast hands the samples of its block, in order, to the active lanes and writes the new token; lanes without one receive
0xFFFFFFFF and zeros.
R310 to R313: dtest, blend and pstore, with every pixel inside the tile and every element at a place that can be used, carry out each
lane's step in order; dtest writes its predicate with what each lane judged, 0 for a lane without a sample. -/
def Obligations.Rendering : Prop :=
  (∀ (n : Bool) (d a b : Sel) (s : State) (k : Iss), AtIssue s k (.rast n d a b) ⟨n, [(d, 7)], [(a, 12), (b, 1)]⟩ → k.rec? = none → rastFormed k a b →
    let r := rastAll k.th k.act (rastBlock k a) (k.th.kreg (uniNo b)).toNat
    let val (l i : Nat) : Word := match r.1.find? (fun x => x.1 == l) with
      | some x => x.2.getD i 0
      | none => if i = 0 then 0xFFFFFFFF else 0
    let th := k.th.putRun n k.path k.act d 7 val
    exec (.rast n d a b) s = .next (retireWith k s
      ((List.range th.groups).foldl (fun t g => t.unrec g b 1) (th.setK (uniNo b) (BitVec.ofNat 32 r.2))).advance)) ∧
  (∀ (a b : Sel) (s : State) (k : Iss) (t : RTile), RTile.of k.team (k.th.kreg (uniNo b)).toNat = some t →
    (∀ p : BitVec 3, AtIssue s k (.dtest p a b) ⟨true, [], [(a, 4), (b, 1)]⟩ →
      pixelsIn k t a none s (fun _ => true) 4 true (fun x => t.depth x.layer x.i) →
      let r := dtestRun k t a s (pixelsOf k t a none)
      exec (.dtest p a b) s = .next (retireWith k (loadsOver k r.1)
        (((k.th.lanes k.act).foldl (fun th l => th.setP l p.toNat (((r.2.find? (fun y => y.1 == l)).map Prod.snd).getD false)) k.th).orFlags 0).advance)) ∧
    (∀ o : BitVec 3, AtIssue s k (.blend o a b) ⟨true, [], [(a, 3), (b, 1)]⟩ →
      pixelsIn k t a none s Pixel.cov 8 true (fun x => t.colour x.layer x.i) →
      let r := ((pixelsOf k t a none).filter Pixel.cov).foldl (blendStep k t o a) (s, 0)
      exec (.blend o a b) s = .next (retireWith k (loadsOver k r.1) (k.th.orFlags r.2).advance)) ∧
    (∀ h : BitVec 3, AtIssue s k (.pstore h a b) ⟨true, [], [(a, 3), (b, 1)]⟩ →
      pixelsIn k t a (some h.toNat) s (fun _ => true) 8 false (fun x => t.prov x.layer x.i) →
      exec (.pstore h a b) s = .next (retireWith k (loadsOver k ((pixelsOf k t a (some h.toNat)).foldl (pstoreStep k t a) s)) (k.th.orFlags 0).advance)))

/-- R112, R319, R321, R395: resid hands its block to the core's oculus and stands until OCULUS_COMPARE; evpop gives the oldest records of the
ring to the active lanes in order and raises HEAD by their number. -/
def Obligations.EventRings : Prop :=
  (∀ (a : Sel) (s : State) (k : Iss) (o : ResidOps), AtPath s k (.resid a) ⟨true, [], [(a, 4)]⟩ → k.rec? = none → residOps k a = some o → a.toNat < 0xF0 →
    (∀ l ∈ o.lines, s.copyReads k (128 * l) 128 = false) → Present s k o.lines →
    exec (.resid a) s = .next ((modOwn k s (fun c => { c with oculus := some a })).modCore k.team.die k.team.core
      (fun x => { x with oculus := x.oculus ++ [(k.team.tid, k.sec.role)] }))) ∧
  (∀ (d b : Sel) (s : State) (k : Iss) (base cap : Nat), AtIssue s k (.evpop d b) ⟨false, [(d, 4)], [(b, 1)]⟩ →
    ringOf k.team (k.th.kreg (uniNo b)).toNat = some (base, cap) →
    let sc := k.team.scratch
    let head := readNat sc (base + 4) 4
    let ls := k.th.lanes k.act
    let got := Nat.min ls.length ((readNat sc base 4 + 2 ^ 32 - head) % 2 ^ 32)
    let slots := (List.range got).map (fun i => (slotOff base cap (head + i), 16))
    s.copyReads k base 16 = false → Present s k (rangeLines base 16) → Present s k (slots.flatMap (fun x => rangeLines x.1 x.2)) →
    s.failedIn k.team.tid [(base, 16)] = none → s.failedIn k.team.tid slots = none →
    let val (l j : Nat) : Word := match ls.findIdx? (fun x => x == l) with
      | some i => if i < got then BitVec.ofNat 32 (readNat sc (slotOff base cap (head + i) + 4 * j) 4) else if j = 0 then 0xFFFFFFFF else 0
      | none => 0
    let s' := if got = 0 then s else s.modTeam k.team.tid (fun t => { t with scratch := writeNat t.scratch (base + 4) 4 ((head + got) % 2 ^ 32) })
    exec (.evpop d b) s = .next (retireWith k s' (k.th.putRun false k.path k.act d 4 val).advance))

/-- R314 to R317: tex, texg and rayq, whose loads are all answered, write four words to every active lane.
R318: trace, whose loads are all answered, writes the hit records of the lanes of the lowest target and calls it with them; the others
stand in PEND to execute trace again; an ejected lane keeps the return address in its record. -/
def Obligations.SamplingAndTracing : Prop :=
  ((∀ (n tx : Bool) (d a b : Sel) (s s' : State) (k : Iss) (t : Texture) (oks : List (Nat × List Nat)),
    let i : Instr := if tx then .tex n d a b else .texg n d a b
    let off := (k.th.kreg (uniNo b)).toNat
    AtIssue s k i ⟨n, [(d, 4)], [(a, if tx then 6 else 4), (b, 1)]⟩ → off % 16 = 0 → off + 16 ≤ k.team.scratchSize →
    Present s k (rangeLines off 16) → s.failedIn k.team.tid [(off, 16)] = none → Texture.of (readNat k.team.scratch off 16) = some t →
    walks k s (if tx then texLane k a t else texgLane k a t) oks s' →
    exec i s = .next (retireWith k (loadsOver k s') (k.th.putRun n k.path k.act d 4 (laneWord oks)).advance)) ∧
  (∀ (n : Bool) (d a b : Sel) (s s' : State) (k : Iss) (oks : List (Nat × Option Win)),
    AtIssue s k (.rayq n d a b) ⟨n, [(d, 4)], [(a, 8), (b, 2)]⟩ →
    walks k s (rayLane k (.rayq n d a b) a (k.th.kpair (uniNo b)).toNat false) oks s' →
    exec (.rayq n d a b) s = .next (retireWith k (loadsOver k s')
      (k.th.putRun n k.path k.act d 4 (laneWord (oks.map (fun x => (x.1, winWords x.2))))).advance))) ∧
  (∀ (n : Bool) (d a b : Sel) (s s1 s2 s3 s4 : State) (k : Iss) (hv : Nat) (h : TraceHead) (la : Launch) (wins : List (Nat × Option Win))
    (targets : List (Nat × Nat)),
    let i : Instr := .trace n d a b
    let root := (k.th.kpair (uniNo b)).toNat
    let table := (k.th.kpair (uniNo b + 2)).toNat
    AtIssue s k i ⟨n, [(a, 4)], [(a, 9), (b, 4)] ++ (if h.preg = 0 then [] else [(d, h.preg)])⟩ → addrClass table = 0 → addrZeros table = true → table % 8 = 0 →
    readEl k ((k.th.lowest k.act).getD 0) 8 table none s = .ok (hv, s1) → TraceHead.of hv = some h → d.toNat + h.preg ≤ 192 →
    s1.launch? k.team.lid = some la →
    (∀ l ∈ k.th.lanes k.act, traceDepth k l < la.pkt.trdepth ∧ (k.th.vreg l (a.toNat + 8)).toNat ≤ 4 * h.preg + h.pstk ∧
      (traceDepth k l + 1) * h.pstk ≤ k.team.privSize) →
    walks k s1 (rayLane k i a root true) wins s2 → (∀ x ∈ wins, routineOf x.2 < h.count) →
    walks k s2 (fun l s => match wins.find? (fun x => x.1 == l) with
      | some x => readEl k l 8 (table + 8 + 8 * routineOf x.2) none s
      | none => .ok (0, s)) targets s3 →
    let t := (least (targets.map Prod.snd)).getD 0
    let set := maskOf ((targets.filter (fun x => x.2 == t)).map Prod.fst)
    budgetWord k s3 (BitVec.ofNat 64 t) set = .ok s4 →
    let s5 := loadsOver k s4
    let th := { k.th.putRun n k.path set a 4 (fun l i => BitVec.ofNat 32 ((winWords (((wins.find? (fun x => x.1 == l)).map Prod.snd).getD none)).getD i 0)) with
      pc := BitVec.ofNat 64 t }
    let called := retireWith k (setAside k s5 (callEntry k.th.pc k.th.path none true) (k.act &&& ~~~set) set false) { th with path := set }
    (k.rec? = none → reuses k .call = true → exec i s = .next called) ∧
    (k.rec? = none → reuses k .call = false → stackFull k.sec = false → ∀ t', pushed k s5 (k.sec.stack.length + 1) called = some t' →
      exec i s = .next t') ∧
    (∀ d' c' r, k.rec? = some (d', c', r) → r.calls.length < 8 →
      exec i s = .next (retireWith k (modRec k s5 (fun x => { x with calls := (k.th.pc + 4, true) :: x.calls })) th)))

/-! ## Waiting, barriers, copies, fences -/

namespace Sys2Proof.Claims

/-- The section `k` of `s`, and no ejected lane, stands at the well-formed instruction `i` with a lane in its path, and may use the registers
`u` (R206, R328). -/
structure AtSection (s : State) (k : Iss) (i : Instr) (u : Uses) : Prop where
  issuer : s.iss? = some k
  whole  : k.rec? = none
  formed : i.wellFormed = true
  lanes  : k.path ≠ 0
  usable : regFault k.th k.path (usesUnlatched k u) = none

/-- The barrier at an offset of the team's scratchpad is there to be used: aligned, inside, present, initialised, its reserved bits 0, and no
older remote step of the section has still to perform in that scratchpad (R17, R183, R187). -/
structure BarrierAt (s : State) (k : Iss) (off : Nat) : Prop where
  aligned : off % 16 = 0
  inside  : off + 16 ≤ k.team.scratchSize
  own     : s.ownRemote k (.team k.team.tid 0) 1 = false
  here    : touch s k.team.tid (rangeLines off 16) = .ok
  sound   : s.failedIn k.team.tid [(off, 16)] = none
  init    : (k.team.tbar off).init = true
  resv    : (k.team.tbar off).resv = 0

/-- The copies, with their form number in State.Copy. -/
inductive CopyRule : Instr → Nat → Sel → Prop
  | tcopy (a : Sel) : CopyRule (.tcopy a) 0 a
  | tcopys (a : Sel) : CopyRule (.tcopys a) 1 a
  | treduce (a : Sel) : CopyRule (.treduce a) 2 a

/-- The entry of a copy as its instruction leaves it (R133, R134, R330). -/
def copyEntry (k : Iss) (s : State) (form : Nat) (a : Sel) : Copy :=
  let b := Block.of (blockOf k a)
  let srec := if b.bytes = 0 then readBytes k.team.scratch b.shape 128 else []
  let shape := if b.bytes = 0 then some (Shape.of srec) else none
  let dst := destLines s k.team form b shape
  { id := s.nextOp, tid := k.team.tid, role := k.sec.role, form := form, cls := copyClass form b.gaddr, block := blockOf k a
    shared := decide (sharedUsed (s.coreAt k.team.die k.team.core) < Config.sharedCopyEntries), started := false, paused := false
    begun := false, left := List.range (sectorCount b shape), ltid := dst.1, lines := dst.2, taken := [], pc := k.th.pc, nth := k.sec.copies
    inCmp := [], srec := srec
    gmode := k.th.gmode, region := none, ordinal := if form = 2 then k.team.treduces else 0, data := [] }

/-- The copy queue has an entry for the section: a shared one or one of its own two (R134, R330). -/
def copyRoom (k : Iss) (s : State) : Prop :=
  sharedUsed (s.coreAt k.team.die k.team.core) < Config.sharedCopyEntries ∨ ownUsed (s.coreAt k.team.die k.team.core) k.team.tid k.sec.role < 2

/-- The fields of bind (R163, R333). -/
def bindFits (k : Iss) (s : State) (a : Sel) : Prop :=
  let src := (k.th.kpair (uniNo a)).toNat
  let soff := (k.th.kreg (uniNo a + 2)).toNat
  let lines := (k.th.kreg (uniNo a + 3)).toNat
  addrClass src ≤ 1 ∧ addrZeros src = true ∧ src % 128 = 0 ∧ soff % 128 = 0 ∧ 1 ≤ lines ∧ lines ≤ 2560 ∧ soff + 128 * lines ≤ k.team.scratchSize ∧
  ∀ e ∈ (s.coreAt k.team.die k.team.core).regions, e.2.tid = k.team.tid → e.2.done = false →
    soff / 128 + lines ≤ e.2.soff / 128 ∨ e.2.soff / 128 + e.2.lines ≤ soff / 128

end Sys2Proof.Claims

/-- R183 to R187, R329, R336: tbinit writes a barrier; tbexpect adds its sectors; tbarrive is one arrival under a release of its section,
which goes on: at once when no older release waits and what is older has performed; tbtest writes whether the phase differs; tbwait goes on when it does, waits while it does not, and takes CMD from a barrier with CERR. -/
def Obligations.TransactionBarriers : Prop :=
  (∀ (d a b : Sel) (s : State) (k : Iss), AtSection s k (.tbinit d a b) ⟨true, [], [(d, 1), (a, 1), (b, 1)]⟩ →
    let off := tbOff k d
    off % 16 = 0 → off + 16 ≤ k.team.scratchSize → once k a ≠ 0 → once k a < 2 ^ 20 → once k b < 2 ^ 31 →
    s.ownRemote k (.team k.team.tid 0) 1 = false → touch s k.team.tid (rangeLines off 16) = .ok → tbBusy k off = false →
    exec (.tbinit d a b) s = .next ((pass k s).modTeam k.team.tid (fun t =>
      { t.setTbar off ⟨0, once k a, once k b, once k a, once k b, true, false, false, false, 0⟩ with cerrs := tset none t.cerrs off none }))) ∧
  (∀ (a b : Sel) (s : State) (k : Iss), s.iss? = some k → k.rec? = none → k.path ≠ 0 → BarrierAt s k (tbOff k a) →
    let x := k.team.tbar (tbOff k a)
    ((Instr.tbexpect a b).wellFormed = true → regFault k.th k.path ⟨true, [], [(a, 1), (b, 1)]⟩ = none → once k b < 2 ^ 31 → tbBusy k (tbOff k a) = false →
      exec (.tbexpect a b) s = .next ((pass k s).modTeam k.team.tid (fun t => t.setTbar (tbOff k a) (x.sectors (once k b))))) ∧
    ((Instr.tbarrive a).wellFormed = true → regFault k.th k.path ⟨true, [], [(a, 1)]⟩ = none → tbBusy k (tbOff k a) = false →
      exec (.tbarrive a) s = .next (release k (pass k s) 1 (.tbarrive (tbOff k a))) ∧
      (k.sec.releases = [] → s.performed k 1 = true → s.team? k.team.tid = some k.team → s.sec? k.team.tid k.sec.role = some k.sec →
        k.team.bank = .active → ∃ t, exec (.tbarrive a) s = .next t ∧
          (t.team? k.team.tid).map Team.scratch = some (k.team.setTbar (tbOff k a) x.arrive).scratch ∧ t.mem = s.mem)) ∧
    ((Instr.tbwait a b).wellFormed = true → regFault k.th k.path ⟨true, [], [(a, 1), (b, 1)]⟩ = none → once k b < 16 →
      exec (.tbwait a b) s = .next (if x.cerr then raise k s ⟨cCMD, k.path, ((tget none k.team.cerrs (tbOff k a)).getD (0, 0)).1,
          BitVec.ofNat 32 ((tget none k.team.cerrs (tbOff k a)).getD (0, 0)).2⟩
        else if x.phase = once k b then waitOn k s .tbwait (.barrier (tbOff k a) (once k b)) else pass k s)) ∧
    (∀ (n : Bool) (d : Sel), (Instr.tbtest n d a b).wellFormed = true →
      regFault k.th k.path ⟨(if n then ([] : List (Sel × Nat)) else [(d, 1)]).isEmpty, if n then [] else [(d, 1)], [(a, 1), (b, 1)]⟩ = none → once k b < 16 →
      exec (.tbtest n d a b) s = .next (retireWith k s (k.th.putResult n false k.path k.path d (fun _ => if x.phase = once k b then 0 else 1)).advance)))

/-- R184: an arrival lowers PENDA, or sets AERR where none is pending; sectors change PENDS, or set SERR outside s32; when both counts are 0
the phase ends: PHASE rises modulo 16 and the counts are reloaded. -/
def Obligations.BarrierSteps : Prop :=
  (∀ b : TBar, b.penda = 0 → b.arrive = { b with aerr := true }) ∧
  (∀ b : TBar, 1 < b.penda ∨ (b.penda = 1 ∧ b.pends ≠ 0) → b.arrive = { b with penda := b.penda - 1 }) ∧
  (∀ b : TBar, b.penda = 1 → b.pends = 0 → b.arrive = { b with phase := (b.phase + 1) % 16, penda := b.expa, pends := sext b.exps 32 }) ∧
  (∀ (b : TBar) (n : Int), -2147483648 ≤ b.pends + n → b.pends + n ≤ 2147483647 → (b.penda ≠ 0 ∨ b.pends + n ≠ 0) →
    b.sectors n = { b with pends := b.pends + n }) ∧
  (∀ (b : TBar) (n : Int), b.penda = 0 → b.pends + n = 0 →
    b.sectors n = { b with phase := (b.phase + 1) % 16, penda := b.expa, pends := sext b.exps 32 }) ∧
  (∀ (b : TBar) (n : Int), (b.pends + n < -2147483648 ∨ 2147483647 < b.pends + n) → b.sectors n = { b with serr := true })

/-- R182, R335: waitc lets its section go on when the counter of its class is at most the threshold, and makes it wait otherwise.
R189, R190, R337, R338: a section whose arrival has been released leaves its barrier, and waits by it otherwise; one that comes to `bar` with
a legal mask, or to `gbar`, arrives under a release and waits for the phase, or goes on as the last; backoff delays the section and raises
its level, at most 7.
R329: a release's step happens when no older one of its section waits and what is older has performed; R189: of `bar` it opens the counter for
the roles of its mask that have not exited, or lowers it. -/
def Obligations.WaitsAndBarriers : Prop :=
  (∀ (c : BitVec 3) (n : BitVec 6) (s : State) (k : Iss), AtSection s k (.waitc c n) ⟨true, [], []⟩ →
    (counter k.sec c.toNat ≤ n.toNat → exec (.waitc c n) s = .next (pass k s)) ∧
    (n.toNat < counter k.sec c.toNat → exec (.waitc c n) s = .next (waitOn k s .waitc (.counter c.toNat n.toNat)))) ∧
  ((∀ (c : BitVec 3) (m : BitVec 4) (s : State) (k : Iss), AtSection s k (.bar c m) ⟨true, [], []⟩ →
    (arrivedAt k.sec k.th.pc false = some true → exec (.bar c m) s = .next (leaveBar k s false)) ∧
    (arrivedAt k.sec k.th.pc false = some false → exec (.bar c m) s = .next (waitOn k s .bar (.phase k.th.pc))) ∧
    (arrivedAt k.sec k.th.pc false = none → m ≠ 0 → rolesOk k.team m = true → m.getLsbD k.sec.role = true →
      ((tget bar0 k.team.bcs c.toNat).roles = 0 ∨ (tget bar0 k.team.bcs c.toNat).roles = m) →
      let s1 := release k (modOwn k s (fun x => { x with arrived := x.arrived ++ [(k.th.pc, false, c.toNat, false)] })) 1 (.bar c.toNat m)
      let released := (s1.sec? k.team.tid k.sec.role).bind (fun x => arrivedAt x k.th.pc false) = some true
      (released → exec (.bar c m) s = .next (leaveBar k s1 false)) ∧ (¬released → exec (.bar c m) s = .next (waitOn k s1 .bar (.phase k.th.pc))))) ∧
  (∀ (s : State) (k : Iss), AtSection s k .gbar ⟨true, [], []⟩ →
    let go (s : State) : State := (leaveBar k s true).modCore k.team.die k.team.core (fun x => { x with dcache := [] })
    (arrivedAt k.sec k.th.pc true = some true → exec .gbar s = .next (go s)) ∧
    (arrivedAt k.sec k.th.pc true = some false → exec .gbar s = .next (waitOn k s .bar (.phase k.th.pc))) ∧
    (arrivedAt k.sec k.th.pc true = none →
      let s1 := release k (modOwn k s (fun x => { x with arrived := x.arrived ++ [(k.th.pc, true, 0, false)] })) 2 .gbar
      let released := (s1.sec? k.team.tid k.sec.role).bind (fun x => arrivedAt x k.th.pc true) = some true
      (released → exec .gbar s = .next (go s1)) ∧ (¬released → exec .gbar s = .next (waitOn k s1 .bar (.phase k.th.pc))))) ∧
  (∀ (s : State) (k : Iss), AtSection s k .backoff ⟨true, [], []⟩ →
    exec .backoff s = .next (modOwn k (pass k s) (fun c => { c with delayed := true, bkLevel := if c.bkLevel = 7 then 7 else c.bkLevel + 1 })))) ∧
  ((∀ (s : State) (tid role : Nat) (t : Team) (c : Section) (r : Release) (l : List Release), s.team? tid = some t → s.sec? tid role = some c →
    t.bank = .active → c.releases = r :: l → s.olderPerformed t c none r.before r.scope = true →
    s.tryRelease tid role = (s.modSec tid role (fun c => { c with releases := c.releases.filter (fun x => x != r) })).doRelease tid role r) ∧
  (∀ (s : State) (tid role n before scope : Nat) (m : BitVec 4) (pc : DWord) (t : Team), s.team? tid = some t →
    let b := tget bar0 t.bcs n
    let bit : BitVec 4 := BitVec.twoPow 4 role
    let put (b : BarCtr) : State := s.modTeam tid (fun t => { t with bcs := tset bar0 t.bcs n b })
    let live := t.secs.filter (fun x => m.getLsbD x.role && x.state != .exited)
    (b.roles = 0 → s.doRelease tid role ⟨before, scope, .bar n m, pc⟩ =
      barSettle (put { b with roles := m, pending := live.length - 1, came := bit }) tid n) ∧
    (b.roles = m → m ≠ 0 → s.doRelease tid role ⟨before, scope, .bar n m, pc⟩ =
      barSettle (put { b with pending := b.pending - 1, came := b.came ||| bit }) tid n)))

/-- R107, R133, R134, R330, R332: a copy with room on its counter and in the queue, no preemption asked, the bound copies of its destination
lines started, none of these counted three times, enters the core's queue, raises its class's counter and the count of every line it will write, and its section goes on.
R107, R162, R163, R333, R334: bind takes the lowest free region entry and makes its lines bound; unbind frees the entry that names its
offset and the lines that it has still to fill. -/
def Obligations.CopiesAndWindows : Prop :=
  (∀ i form a, CopyRule i form a → ∀ (s : State) (k : Iss), AtSection s k i ⟨true, [], [(a, 8)]⟩ →
    let c := copyEntry k s form a
    (form = 2 → reduceTy (gType k.th.gmode) = true) → (s.coreAt k.team.die k.team.core).preempt = false → counter k.sec c.cls < 63 →
    copyRoom k s → ∀ s', startBoundLines s c.ltid c.lines = some s' → copyRoom k s' →
    (∀ u, s'.team? c.ltid = some u → ∀ l ∈ c.lines, (u.line l).count < 3) →
    let c' := copyEntry k s' form a
    let b := Block.of (blockOf k a)
    let shape := if b.bytes = 0 then some (Shape.of c.srec) else none
    let s1 : State := { s' with nextOp := s'.nextOp + 1 }
    let s2 := s1.modTeam c.ltid (fun u => c.lines.foldl (fun v l => v.setLine l { (v.line l) with
      count := (v.line l).count + 1, poison := if (healed u form b shape c.lines).contains l then none else (v.line l).poison }) u)
    let s3 := s2.modTeam k.team.tid (fun u => if form = 2 then { u with treduces := u.treduces + 1 } else u)
    let s4 := s3.modCore k.team.die k.team.core (fun x => { x with copyq := x.copyq ++ [{ c' with ltid := c.ltid, lines := c.lines }] })
    exec i s = .next (modOwn k (pass k s4) (fun x => outAdd c.cls s'.nextOp { x with copies := x.copies + 1 }))) ∧
  ((∀ (a : Sel) (s : State) (k : Iss) (i : Nat), AtSection s k (.bind a) ⟨true, [], [(a, 4)]⟩ → bindFits k s a →
    (List.range 32).find? (fun i => (s.coreAt k.team.die k.team.core).regions.all (fun e => e.1 != i)) = some i →
    let soff := (k.th.kreg (uniNo a + 2)).toNat
    let lines := (k.th.kreg (uniNo a + 3)).toNat
    exec (.bind a) s = .next (((pass k s).modTeam k.team.tid (fun u =>
        (rangeLines soff (128 * lines)).foldl (fun u l => u.setLine l { (u.line l) with bound := true }) u)).modCore k.team.die k.team.core
      (fun x => { x with regions := tset ⟨0, 0, false, false, false, 0, 0⟩ x.regions i ⟨k.th.kpair (uniNo a), soff, true, false, false, k.team.tid, lines⟩ }))) ∧
  (∀ (a : Sel) (s : State) (k : Iss) (i : Nat) (r : Region), AtSection s k (.unbind a) ⟨true, [], [(a, 1)]⟩ →
    (s.coreAt k.team.die k.team.core).regions.find? (fun e => e.2.v && e.2.tid == k.team.tid && e.2.soff == (k.th.kreg (uniNo a)).toNat) = some (i, r) →
    (∀ c ∈ (s.coreAt k.team.die k.team.core).copyq, ¬ (c.form = 3 ∧ c.tid = k.team.tid ∧ c.region = some i)) →
    exec (.unbind a) s = .next (((pass k s).modTeam k.team.tid (fun u =>
        (if r.fired then [] else rangeLines r.soff (128 * r.lines)).foldl (fun u l => u.setLine l { (u.line l) with bound := false }) u)).modCore k.team.die k.team.core
      (fun x => { x with regions := x.regions.filter (fun e => e.1 != i) }))))

/-- R266, R267, R271: a fence whose operations have performed goes on, and drops the core's cached lines at gang scope or wider; fence.rp
drains what the sections of its context had issued before it, then drops the line of its address in every core, and promotes it; sysflush and sysinv post one counted operation.
R268 to R270: sptest writes the class of an address; spcast makes the generic address of an offset inside a window, and spcast.off gives
back the low 32 bits of an address of its window. -/
def Obligations.FencesAndCasts : Prop :=
  ((∀ (c : BitVec 3) (s : State) (k : Iss), AtPath s k (.fence c) ⟨true, [], []⟩ → s.performed k c.toNat = true →
    exec (.fence c) s = .next (noteRelease k (pass k (fenceDrop k s c.toNat)))) ∧
  (∀ (c : BitVec 3) (a : Sel) (s : State) (k : Iss) (p : Place), AtPath s k (.fenceRp c a) ⟨true, [], [(a, 2)]⟩ →
    let ad := (k.th.kpair (uniNo a)).toNat
    s.checkPlace k .load 1 { lane := (k.th.lowest k.path).getD 0, a := ad, bad := false, data := 0, data2 := 0 } = .ok p →
    let who := k.rec?.map (fun r => r.2.2.id)
    let n := ((k.sec.drains.find? (fun x => x.1 == who)).map Prod.snd).getD s.nextOp
    let others := k.sec.drains.filter (fun x => x.1 != who)
    let lines := lineOf k s ad
    let promote (c : Section) : Section := { c with promo := c.promo ++ lines.filter (fun l => !c.promo.contains l) }
    let done := drained s k.team.ctx c.toNat n = true ∧ s.performed k c.toNat = true
    (done → exec (.fenceRp c a) s = .next (noteRelease k (pass k (modOwn k (fenceDrop k (lines.foldl (fun s l => s.dropLineAll l) s) c.toNat)
      (fun c => promote { c with drains := others }))))) ∧
    (¬done → exec (.fenceRp c a) s = .next (modOwn k s (fun c => promote { c with drains := (who, n) :: others })))) ∧
  (∀ (flush : Bool) (a b : Sel) (s : State) (k : Iss),
    let i : Instr := if flush then .sysflush a b else .sysinv a b
    let ad := (k.th.kpair (uniNo a)).toNat
    AtIssue s k i ⟨true, [], [(a, 2), (b, 1)]⟩ → addrClass ad = 0 → addrZeros ad = true → counter k.sec 4 < 63 →
    exec i s = .next (let s1 : State := { s with nextOp := s.nextOp + 1, sysOps := s.sysOps ++
        [⟨s.nextOp, k.team.tid, k.sec.role, k.team.ctx, flush, ad, (k.th.kreg (uniNo b)).toNat⟩] }
      pass k (modOwn k s1 (outAdd 4 s.nextOp))))) ∧
  ((∀ (d b : Sel) (s : State) (k : Iss), AtIssue s k (.sptest d b) ⟨false, [(d, 1)], [(b, 2)]⟩ →
    exec (.sptest d b) s = .next (retireWith k s (written k false false d (fun l => BitVec.ofNat 64 (addrClass (k.th.src64 l b).toNat)) (fun _ => 0)))) ∧
  (∀ (c : BitVec 3) (d b : Sel) (s : State) (k : Iss), AtIssue s k (.spcast c d b) ⟨false, [(d, 2)], [(b, 1)]⟩ →
    (∀ l ∈ k.th.lanes k.act, (castAddr k c.toNat (k.th.src32 l b).toNat).2 = false) →
    exec (.spcast c d b) s = .next (retireWith k (loadsOver k s)
      (k.th.putResult false true k.path k.act d (fun l => BitVec.ofNat 64 (castAddr k c.toNat (k.th.src32 l b).toNat).1)).advance)) ∧
  (∀ (c : BitVec 3) (d b : Sel) (s : State) (k : Iss), AtIssue s k (.spcastOff c d b) ⟨false, [(d, 1)], [(b, 2)]⟩ →
    (∀ l ∈ k.th.lanes k.act, addrClass (k.th.src64 l b).toNat = c.toNat ∧ s.spaceFault k.team (k.th.src64 l b).toNat 1 = false ∧
      (c = 0 → bits (k.th.src64 l b).toNat 32 17 = 0)) →
    exec (.spcastOff c d b) s = .next (retireWith k (loadsOver k s)
      (k.th.putResult false false k.path k.act d (fun l => BitVec.ofNat 64 ((k.th.src64 l b).toNat % 2 ^ 32))).advance)))

/-! ## Exceptions, holds, services -/

/-- R77 to R79, R341, R383: trap, outside handler mode and with a trap entry, saves code, PC, lanes and TRAPAUX, keeps path, stack top and
GMODE, and enters the handler at TRAPENT × 4 with the active lanes. -/
def Obligations.SoftwareTraps : Prop :=
  ∀ (n : BitVec 8) (s : State) (k : Iss) (c : Section), AtIssue s k (.trap n) ⟨true, [], []⟩ → k.rec? = none →
    s.sec? k.team.tid k.sec.role = some c → c.taps = [] → c.hmode = false → (s.ctxAt k.team.ctx).trapent ≠ 0 →
    ∃ t c', exec (.trap n) s = .next t ∧ t.sec? k.team.tid k.sec.role = some c' ∧
      c'.trapCode = 0x41 ∧ c'.trapPc = c.th.pc ∧ c'.trapAddr = 0 ∧ c'.trapAux = n.setWidth 32 ∧ c'.trapMask = k.act ∧
      c'.hmode = true ∧ c'.state = .handler ∧ c'.th.gmode = 0x27 ∧ c'.th.path = k.act ∧ c'.th.pc = (s.ctxAt k.team.ctx).trapent <<< 2 ∧
      (∃ h, c'.hs = some h ∧ h.path = c.th.path ∧ h.depth = c.stack.length ∧ h.gmode = c.th.gmode) ∧
      c'.stack = c.stack ∧ c'.th.vregs = c.th.vregs ∧ c'.th.kregs = c.th.kregs ∧ c'.th.preds = c.th.preds ∧ c'.th.fpflags = c.th.fpflags ∧
      t.mem = s.mem ∧ t.contexts = s.contexts ∧ t.cores = s.cores

/-- R81, R383: a fault in handler mode, or with no trap entry, ends the context with code DOUBLE, which its section's trap record holds too. -/
def Obligations.DoubleFaults : Prop :=
  ∀ (s : State) (t : Team) (role : Nat) (how : EntryHow) (skip : SkipHow) (x : Trap) (c : Section),
    s.sec? t.tid role = some c → (c.hmode = true ∨ (s.ctxAt t.ctx).trapent = 0) → (s.ctxAt t.ctx).ended = false →
    let s' := takeTrapAt s t role how skip x
    (s'.ctxAt t.ctx).ended = true ∧ (s'.ctxAt t.ctx).endCode = BitVec.ofNat 8 cDOUBLE ∧ (s'.ctxAt t.ctx).endAddr = x.addr ∧
    (∀ u ∈ s'.teams, u.ctx = t.ctx → u.bank = .gone ∧ ∀ c ∈ u.secs, c.state = .exited) ∧
    (s'.sec? t.tid role).map Section.trapCode = some (BitVec.ofNat 32 cDOUBLE)

/-- R90, R92, R342, R343, R347: brkpt holds its section after itself with cause BREAK, an ejected lane recalled first; assert records ASSERT and asks that every section of
the context be held; hold asks it for its own section. Each posts one debug record. -/
def Obligations.HoldsAndAsserts : Prop :=
  (∀ (s : State) (k : Iss), AtPath s k .brkpt ⟨true, [], []⟩ → k.rec? = none →
    exec .brkpt s = .next (holdWith (pass k s) k.team k.sec.role ⟨cBREAK, k.path, k.th.pc, 8⟩)) ∧
  (∀ (s : State) (k : Iss), AtPath s k .brkpt ⟨true, [], []⟩ → k.rec?.isSome = true → mayTrap k s = true →
    exec .brkpt s = .next (holdWith ((recallQuiet k s).modSec k.team.tid k.sec.role (fun c => { c with th := c.th.advance }))
      k.team k.sec.role ⟨cBREAK, k.path, k.th.pc, 8⟩)) ∧
  (∀ (a : Sel) (s : State) (k : Iss), AtIssue s k (.assert a) (usesUnlatched k ⟨true, [], [(a, 2)]⟩) →
    let ptr := k.th.kpair (uniNo a)
    let s1 := modOwn k (pass k s) (fun c => recordTrap c k.th.pc ⟨cASSERT, k.act, ptr, BitVec.ofNat 32 ((k.th.lowest k.act).getD 0)⟩)
    let s2 : State := { s1 with teams := s1.teams.map (fun t => if t.ctx = k.team.ctx then { t with secs := t.secs.map requestHold } else t) }
    exec (.assert a) s = .next (s2.post (debugRec k.team k.sec.role cASSERT ptr))) ∧
  (∀ (s : State) (k : Iss), AtSection s k .hold ⟨true, [], []⟩ →
    exec .hold s = .next ((modOwn k (pass k s) requestHold).post (debugRec k.team k.sec.role 0 k.th.pc)))

/-- R80, R251, R344: resume goes back to the faulting instruction for the lanes of TRAPMASK, or to a PC that the handler wrote; skip goes on
after it, at the place a transfer's fault names, or as a return; resume with no lane left does what skip does; uiret goes back to where the
delivery found the section, a breakpoint there matching as it would have. Each restores mask, stack top and GMODE and clears HMODE, under any
mask; each is OPND where it is not allowed, and UNIFORM on an ejected lane. -/
def Obligations.HandlerReturns : Prop :=
  (∀ (s : State) (k : Iss) (h : HandlerState), s.iss? = some k → k.rec? = none → k.sec.hmode = true → k.sec.hs = some h →
    let back (pc : DWord) (retry : Option Mask) (nb : Bool) : State :=
      afterHandler (modOwn k (retire k s) (leaveHandler h pc retry nb)) k.team.tid k.sec.role
    let rest := match h.retry with
      | some m => k.sec.trapMask &&& m &&& h.path
      | none => k.sec.trapMask &&& h.path
    (h.how ≠ .ui → (k.sec.redir = true ∨ h.prev = .ejectedPending) → exec .resume s = .next (back k.sec.trapPc none true)) ∧
    (h.how ≠ .ui → k.sec.redir = false → h.prev ≠ .ejectedPending → rest ≠ 0 →
      exec .resume s = .next (back k.sec.trapPc (if rest = h.path then none else some rest) true)) ∧
    (h.how ≠ .ui → k.sec.redir = false → h.prev ≠ .ejectedPending → rest = 0 → exec .resume s = exec .skip s) ∧
    (h.how ≠ .ui → k.sec.redir = true → exec .skip s = .next (back k.sec.trapPc none true)) ∧
    (h.how ≠ .ui → k.sec.redir = false → h.skip = .next → exec .skip s = .next (back (k.sec.trapPc + 4) none true)) ∧
    (∀ pc, h.how ≠ .ui → k.sec.redir = false → h.skip = .to pc → exec .skip s = .next (back pc none true)) ∧
    (h.how ≠ .ui → k.sec.redir = false → h.skip = .ret → exec .skip s = .next (State.endPathOf (modOwn k (retire k s) (fun c =>
      let c' := leaveHandler h k.sec.trapPc none true c
      { c' with th := { c'.th with path := 0 } })) k.team.tid k.sec.role)) ∧
    (h.how = .ui → exec .uiret s = .next (back h.pc h.retry h.noBkpt)) ∧
    (h.how = .ui → exec .resume s = .next (raise k s ⟨cOPND, k.path, 0, wordOf .resume⟩) ∧
      exec .skip s = .next (raise k s ⟨cOPND, k.path, 0, wordOf .skip⟩)) ∧
    (h.how ≠ .ui → exec .uiret s = .next (raise k s ⟨cOPND, k.path, 0, wordOf .uiret⟩))) ∧
  (∀ (s : State) (k : Iss) (i : Instr), (i = .resume ∨ i = .skip ∨ i = .uiret) → s.iss? = some k →
    (k.rec?.isSome = true → exec i s = .next (raise k s ⟨cUNIFORM, k.path, 0, 0⟩)) ∧
    (k.rec? = none → k.sec.hmode = false → exec i s = .next (raise k s ⟨cOPND, k.path, 0, wordOf i⟩))) ∧
  (∀ (h : HandlerState) (c : Section) (pc : DWord) (retry : Option Mask) (nb : Bool),
    let c' := leaveHandler h pc retry nb c
    c'.hmode = false ∧ c'.redir = false ∧ c'.hs = none ∧ c'.th.path = h.path ∧ c'.th.gmode = h.gmode ∧ c'.th.pc = pc ∧ c'.retry = retry ∧
    c'.noBkpt = nb ∧ c'.th.vregs = c.th.vregs ∧ c'.th.kregs = c.th.kregs ∧ c'.th.preds = c.th.preds ∧
    (h.depth ≤ c.stack.length → c'.stack.length = h.depth))

/-- R137, R138, R329, R339, R345, R346, R376: svc leaves its request to be posted under its release and parks its section, or with no wait
counts it and goes on; the request is posted when what is older has performed and the ring has room; an ejected lane is recalled first.
uisend writes the belfry's status, 2 for an unknown peer, and stands for a known one until its status comes; idem enter and leave open and
close an idempotent region. -/
def Obligations.Services : Prop :=
  (∀ (h l : BitVec 8) (s : State) (k : Iss),
    let num := 256 * h.toNat + l.toNat
    let ls := k.th.lanes k.act
    let blocks := ls.map (fun x => (List.range 8).flatMap (fun n => toBytes 4 (k.th.vreg x n).toNat))
    let queued (w : Bool) (r : DWord) : State := modOwn k { pass k s with nextOp := s.nextOp + 1 } (fun c =>
      { c with svcPending := c.svcPending ++ [⟨s.nextOp, waitingReq num k.team k.sec.role w r blocks s.nextOp⟩], lastRel := s.nextOp })
    (AtIssue s k (.svc true h l) (usesUnlatched k ⟨true, [], []⟩) → k.rec? = none → counter k.sec 4 < 63 →
      exec (.svc true h l) s = .next ((modOwn k (queued true (k.th.kpair 46)) (outAdd 4 s.nextOp)).tryPost k.team.tid k.sec.role)) ∧
    (AtIssue s k (.svc false h l) (usesUnlatched k ⟨true, [], []⟩) → k.rec? = none →
      exec (.svc false h l) s = .next ((modOwn k ((queued false 0).tryPost k.team.tid k.sec.role)
        (fun c => parkSec 1 { c with svcLanes := some ls, svcReply := none })).modTeam k.team.tid
        (fun u => if mayLeave u then { u with draining := true } else u))) ∧
    (∀ w, AtIssue s k (.svc w h l) (usesUnlatched k ⟨true, [], []⟩) → k.rec?.isSome = true → exec (.svc w h l) s = .next (recallQuiet k s))) ∧
  (∀ (s : State) (tid role id num : Nat) (t : Team) (c : Section) (w : SvcWait) (r : List SvcWait) (nw : Bool) (rw : DWord) (blocks : List (List Byte)),
    s.team? tid = some t → s.sec? tid role = some c → c.svcPending = w :: r → w.req = waitingReq num t role nw rw blocks id →
    num < 2 ^ 32 → id < 2 ^ 64 → s.olderPerformed t c none w.before 4 = true → reqFits (s.sliceAt t.die (svcSlice t)) blocks.length = true →
    let s1 := postReq (s.modSec tid role (fun c => { c with svcPending := r })) t role num nw rw blocks id
    s.tryPost tid role = if nw then s1.opDone t.tid role id else s1) ∧
  (∀ (d b : Sel) (s : State) (k : Iss), AtIssue s k (.uisend d b) ⟨false, [(d, 1)], [(b, 4)]⟩ → s.performed k 3 = true → k.sec.peerSend = none →
    let ctx := (k.th.kreg (uniNo b)).toNat
    let vec := (k.th.kreg (uniNo b + 1)).toNat
    let pay := k.th.kpair (uniNo b + 2)
    let s1 := noteRelease k s
    ctx < 2 ^ 16 → vec < 64 →
    (ctx < 0x8000 →
      let r := s1.accept ctx vec pay (s1.permits ctx 3 vec (some k.team.ctx))
      exec (.uisend d b) s = .next (sendStatus k r.2 d k.act r.1)) ∧
    (0x8000 ≤ ctx → (∀ p dev, s.route? k.team.ctx (ctx % 0x8000) = some (p, dev) → s.peers.contains dev = false) →
      exec (.uisend d b) s = .next (sendStatus k s1 d k.act 2)) ∧
    (∀ p dev, 0x8000 ≤ ctx → s.route? k.team.ctx (ctx % 0x8000) = some (p, dev) → s.peers.contains dev = true →
      exec (.uisend d b) s = .next (modOwn k { s1 with nextOp := s.nextOp + 1 } (fun c => { c with
        peerSend := some { id := s.nextOp, pctx := p, dev := dev, vec := vec, pay := pay, who := k.rec?.map (fun r => r.2.2.id), dest := d, lanes := k.act } })))) ∧
  (∀ (s : State) (k : Iss), AtSection s k .idemEnter ⟨true, [], []⟩ → k.sec.idem = false → k.sec.stack = [] → k.sec.hmode = false →
    exec .idemEnter s = .next (modOwn k (pass k s) (fun c =>
      { c with idem := true, idemRec := some ⟨(List.range 16).map k.th.kreg, k.th.gmode, k.th.fpflags, k.th.path, k.th.pc + 4⟩ }))) ∧
  (∀ (s : State) (k : Iss), AtSection s k .idemLeave ⟨true, [], []⟩ → k.sec.idem = true →
    exec .idemLeave s = .next (modOwn k (pass k s) (fun c => { c with idem := false, idemRec := none })))

/-! ## Acts of the units and of outside parties -/

namespace Sys2Proof.Claims

/-- An act answers a next state in which the section of a role has become `c`, memory, contexts and cores standing as they were. -/
def Becomes (i : Instr) (s : State) (tid role : Nat) (c : Section) : Prop :=
  ∃ t, exec i s = .next t ∧ t.sec? tid role = some c ∧ t.mem = s.mem ∧ t.contexts = s.contexts ∧ t.cores = s.cores

end Sys2Proof.Claims

/-- R25, R30, R67, R75, R87, R129, R130, R155, R338: what the schedulers and timers do to a section: a wait whose condition has ended, or a
held load whose pages have been served, makes it ready; an alarm that has passed is due; it ages; its backoff level decays, its delay
ends, its class of a restore ends, and at level 7 it becomes eligible for a demand park. The lantern's next act comes first on the agenda,
and a port left idle invalidates the latches of the section that issued last on it. -/
def Obligations.SchedulingEvents : Prop :=
  (∀ (s : State) (tid role : Nat) (t : Team) (c : Section), s.team? tid = some t → s.sec? tid role = some c →
    (c.releases = [] → c.state = .waiting → waitOver t c c.waitFor s = true →
      Becomes (.waitEnd tid role) s tid role { c with state := if c.hmode then .handler else .running, waitOn := .none, waitFor := if c.waitOn = .heldLoad then .event else .again }) ∧
    (∀ (r : Release) (q : List Release), c.releases = r :: q → t.bank = .active → s.olderPerformed t c none r.before r.scope = true →
      let s1 := (s.modSec tid role (fun c => { c with releases := c.releases.filter (fun x => x != r) })).doRelease tid role r
      exec (.waitEnd tid role) s = .next (s1.endWait tid role)) ∧
    (c.state = .waiting → c.waitOn = .heldLoad → c.waitFor = .again →
      (∀ h ∈ s.homes, h.ctx = t.ctx → h.failed = false → (tid, role) ∉ h.who) →
      Becomes (.heldLoadComplete tid role) s tid role { c with state := if c.hmode then .handler else .running, waitOn := .none, waitFor := .event }) ∧
    (c.state ≠ .exited → c.stalarm.getLsbD 63 = true →
      c.stalarm.toNat % 2 ^ 62 ≤ (if c.stalarm.getLsbD 62 then s.wall else c.stimer).toNat % 2 ^ 62 → Becomes (.alarmExpiry tid role) s tid role { c with alarmDue := true }) ∧
    (readyPass t c = true → (tid, role) ∉ s.stalled → Becomes (.aging tid role) s tid role { c with aged := true }) ∧
    (c.state ≠ .exited → c.delayed = false → Becomes (.backoffDecay tid role) s tid role { c with bkLevel := 0, parkElig := none }) ∧
    Becomes (.backoffDelayEnd tid role) s tid role { c with delayed := false } ∧
    Becomes (.resumeClassExpiry tid role) s tid role { c with resumed := false } ∧
    (c.bkLevel = 7 → c.state ≠ .exited → c.parkElig = none → Becomes (.demandParkEligible tid role) s tid role { c with parkElig := some s.stepNo }) ∧
    (∀ (die core idx : Nat) (r : LanternRec), (s.coreAt die core).lantern[idx]? = some r → r.tid = tid → r.role = role → lanesRun t c = true →
      exec (.lanternExec die core idx) s = .next { s with agenda := .issue die core (4 + idx) :: s.agenda }) ∧
    (∀ (die core port : Nat), tget none (s.coreAt die core).lastOn port = some (tid, role) →
      Becomes (.latchIdleInvalidate die core port) s tid role (killOn c [port])))

/-- R76, R85, R87, R88, R90, R92, R345: what a section meets at its boundary: a due alarm is the software trap 0x41 with TRAPAUX 0x100 and
disarms the alarm; a step that has finished holds the section with cause STEP and the next PC of the stepped lane in TRAPPC, one that was parked
when it is restored; a breakpoint at its PC traps or holds it with BREAK, and recalls
an ejected lane first; a user interrupt enters the handler at UIENTRY with its vector, count and payload in the context's registers. -/
def Obligations.BoundaryEvents : Prop :=
  (∀ (s : State) (tid role : Nat) (t : Team) (c : Section), s.team? tid = some t → s.sec? tid role = some c →
    (c.alarmDue = true → atBoundary t c = true → bkptDue s t c = false →
      exec (.alarmTrap tid role) s = .next (takeTrapAt
        (s.modSec tid role (fun c => { c with alarmDue := false, stalarm := c.stalarm &&& ~~~(BitVec.twoPow 64 63) }))
        t role .alarm .next ⟨0x41, c.th.path, 0, 0x100⟩)) ∧
    (c.stepDone = true → underWay c = false →
      let lane := 32 * c.stepGrp.toNat + c.stepLane.toNat
      let c' : Section := { c with
        stepDone := false
        trapCode := BitVec.ofNat 32 cSTEP, trapPc := lanePc c lane c.stepPc, trapAddr := 0, trapAux := 0, trapMask := c.th.path }
      (c.state = .parked → Becomes (.stepHold tid role) s tid role { c' with holdReq := true }) ∧
      (c.state ≠ .held → c.state ≠ .exited → c.state ≠ .parked → (c.stepping = false ∨ c.state = .waiting) →
        Becomes (.stepHold tid role) s tid role { c' with
          state := .held, prev := c.state, holdDue := false, delayed := false, stepping := false, granted := [], th := c.th.killLatches })) ∧
    (∀ (i : Nat) (act : Bool), s.iss? = none → (c.state = .running ∨ c.state = .handler) → c.noBkpt = false → underWay c = false → t.bank = .active →
      c.stepDone = false → c.stepping = false → c.holdDue = false →
      s.bkpt? t.ctx c.hmode c.th.pc = some (i, act) →
      let x : Trap := ⟨cBREAK, c.th.path, c.th.pc, BitVec.ofNat 32 i⟩
      exec (.breakpointMatch tid role) s = .next (if act then holdWith s t role x else takeTrapAt s t role .brk .next x)) ∧
    (∀ (k : Iss) (d n i : Nat) (r : LanternRec) (act : Bool) (c' : Section), s.iss? = some k → k.rec? = some (d, n, r) → r.tid = tid → r.role = role →
      mayTrap k s = true → s.bkpt? t.ctx false r.th.pc = some (i, act) → (recallLane s d n r).sec? tid role = some c' →
      exec (.breakpointMatch tid role) s = .next (takeBreak (recallLane s d n r) t c' i act))) ∧
  (∀ (s s1 : State) (ctx n : Nat) (t : Team) (c : Section), s.uiTurn? ctx = some (t, c, n, .go s1) →
    let s2 := s1.modCtx ctx (fun x => { x with
      uivec := BitVec.ofNat 32 (n + (tget 0 x.uicount n).toNat * 2 ^ 16), uipay := tget 0 x.uivpay n, uicount := tset 0 x.uicount n 0
      uipend := x.uipend &&& ~~~(BitVec.twoPow 64 n) })
    let s3 := s2.modCore t.die t.core (fun x => { x with dcache := [] })
    exec (.uiDelivery ctx) s = .next (s3.modSec t.tid c.role (fun x => enterHandler x .ui 0 .next
      (if x.state = .waiting then .waiting else if x.state = .ejectedPending then .ejectedPending else .running)
      (BitVec.ofNat 64 ((s1.ctxAt ctx).uientry.toNat % 2 ^ 47 * 4)) x.th.path)))

/-- R119, R181, R185, R262, R353, R359, R363, R271: a buffered store with no older write to its bytes, and on a promoted line none that its section's
last release covers, performs at its home and leaves the buffer; a posted step does so lane by lane, after its core's older stores there; a
launch's reductions apply when its last team has gone and its writes have performed; a SYSFLUSH or SYSINV, its older stores
performed, acts on the slices' copies of its range, a SYSINV on the caches of its partition's cores too; a copy may leave a cache at any time. -/
def Obligations.PerformingEvents : Prop :=
  (∀ (s : State) (die core idx : Nat) (b : BufStore), (s.coreAt die core).storeBuf[idx]? = some b →
    (∀ o ∈ (s.coreAt die core).storeBuf.take idx, sharesByte o.bytes b.bytes = false) →
    (∀ r ∈ s.remote, r.tid = b.tid → r.role = b.role → r.id < b.id → ∀ l ∈ r.op.lanes, ∀ sp, l.spot = some sp → sp.hits b.bytes = false) →
    s.promoWaits b.tid b.role b.rel (b.bytes.map (fun x => x.1 / 128 * 128)) = false →
    exec (.storePerform die core idx) s = .next (((s.homeWrite b.bytes).cachePut die core b.bytes).modCore die core
      (fun x => { x with storeBuf := x.storeBuf.filter (fun e => e.id != b.id) }))) ∧
  (∀ (s s1 : State) (tid role : Nat) (t : Team) (c : Section) (r : RemoteOp) (x : LaneOp) (rest : List LaneOp) (sp : Spot),
    s.team? tid = some t → s.sec? tid role = some c → s.remote.find? (fun o => o.id == r.id && o.tid == tid && o.role == role) = some r →
    r.op.lanes = x :: rest → x.spot = some sp →
    (∀ b ∈ (s.coreAt t.die t.core).storeBuf, b.id < r.id → sp.hits b.bytes = false) → s.promoWaits tid role r.rel sp.linesOf = false →
    (∀ o ∈ s.remote, o.tid = tid → o.role = role → o.id < r.id → ∀ l ∈ o.op.lanes, ∀ y, l.spot = some y → sp.near y r.op.size o.op.size = false) →
    s.placeOpen sp r.op.size = .ok () → s.postLane t c r.op x = .go s1 →
    exec (.remotePerform tid role r.id) s = .next (State.partDone { s1 with remote := s1.remote.filterMap (fun o =>
      if o.id = r.id then (if rest.isEmpty then none else some { o with op := { o.op with lanes := rest } }) else some o) } tid role r.id)) ∧
  (∀ (s : State) (lid : Nat) (l : Launch), s.launch? lid = some l → l.pkt.det = true → l.epochClosed = false → l.placed = l.pkt.grid →
    (∀ t ∈ s.teams, t.lid = lid → t.bank = .gone ∧ (∀ c ∈ t.secs, c.log = [] ∧ c.cmp = []) ∧
      (∀ r ∈ s.remote, r.tid ≠ t.tid) ∧ (∀ o ∈ s.orphans, o.tid ≠ t.tid) ∧ (∀ x ∈ s.cores, ∀ b ∈ x.2.storeBuf, b.tid ≠ t.tid)) →
    (∀ es, l.epoch.mapM (s.placeAgain l.ctx) = .ok es →
      exec (.epochClose lid) s = .next ((applyEpoch s l.ctx es).modLaunch lid (fun l => { l with epoch := [], epochClosed := true }))) ∧
    (∀ va, l.epoch.mapM (s.placeAgain l.ctx) = .error va → exec (.epochClose lid) s = .next (s.askHome l.ctx va []))) ∧
  (∀ (s : State) (tid role op : Nat) (o : SysOp) (t : Team), s.sysOps.find? (fun o => o.id == op && o.tid == tid && o.role == role) = some o →
    s.team? tid = some t →
    let inside (p : Nat) : Bool := (s.rangesOf o.ctx o.va o.len).any (fun r => decide (r.1 ≤ p ∧ p < r.1 + r.2))
    (∀ b ∈ (s.coreAt t.die t.core).storeBuf, b.tid = tid → b.role = role → b.id < op → ∀ y ∈ b.bytes, inside y.1 = false) →
    let lines := s.slices.flatMap (fun x => (x.2.lines.map Prod.fst).filter inside)
    let gone (s : State) : State := State.opDone { s with sysOps := s.sysOps.filter (fun x => x.id != op) } tid role op
    (o.flush = true → exec (.sysCacheOpComplete tid role op) s = .next (gone (lines.foldl (fun s l => s.writeBack l) s))) ∧
    (o.flush = false →
      let s1 := lines.foldl (fun s l => s.dropSlice l) s
      let clean (x : Nat × Core) : Nat × Core := if (s1.partCores (s1.ctxAt o.ctx).part).contains x.1 then
        (x.1, { x.2 with dcache := x.2.dcache.filter (fun l => !inside l.1), ibuf := x.2.ibuf.filter (fun w => !inside (4 * w.1)) }) else x
      exec (.sysCacheOpComplete tid role op) s = .next (gone { s1 with cores := (s1.cores.map clean).filter (fun x => x.2 ≠ core0) }))) ∧
  (∀ (s : State) (die unit line : Nat),
    exec (.cacheEviction 0 die unit line) s = .next (s.dropLine die unit line) ∧
    exec (.cacheEviction 1 die unit line) s = .next ((s.writeBack line).dropSlice line) ∧
    exec (.cacheEviction 2 die unit line) s = .next (s.modCore die unit (fun x => { x with ibuf := x.ibuf.filter (fun e => e.1 != line) })))

/-- R195, R257, R259, R263, R366, R376: the host link answers the oldest element of a request: a load takes its data, an AtomicOp leaves the
new value and gives back the old, and each failure is noted with its code, 0x15 for Unsupported Request, 0x16 for Completer Abort, 0x17 when
no completion comes; of a line, the slice keeps a copy. A peer's status completes its uisend, after its older sends; two matching operations of
a dual-run team are counted and leave the comparator, and two that differ end the context with the DMR record. -/
def Obligations.LinkAnswers : Prop :=
  (∀ (s : State) (tid role : Nat) (t : Team) (c : Section) (h : HostReq) (x : LaneOp) (rest : List LaneOp) (data : List DWord),
    s.team? tid = some t → s.sec? tid role = some c → c.hostReq = some h → h.op.lanes = x :: rest →
    let left : HostReq := { h with op := { h.op with lanes := rest } }
    (h.isLoad = true →
      exec (.loadReturn tid role 1 data) s = .next (hostStep s tid role { left with bad := h.bad ++ [(x.lane, 0x15)] }) ∧
      exec (.loadReturn tid role 2 data) s = .next (hostStep s tid role { left with bad := h.bad ++ [(x.lane, 0x16)] }) ∧
      exec (.completionTimeout tid role) s = .next (hostStep s tid role { left with bad := h.bad ++ [(x.lane, 0x17)] }) ∧
      (∀ pas, x.spot = some (.phys pas) → (data.length ≠ 16 ∨ pas.length ≠ 1) → h.op.size ≠ 128 →
        (∀ p ∈ physBytes pas, s.sliceLine? (p / 128 * 128) = none) →
        let v := (data.headD 0).toNat % 2 ^ (8 * h.op.size)
        exec (.loadReturn tid role 0 data) s = .next (hostStep
          (((physBytes pas).zip (toBytes h.op.size v)).foldl (fun s b => s.hostBytes b.1 [b.2]) s)
          tid role { left with got := h.got ++ [(x.lane, BitVec.ofNat 64 (ofBytes (((physBytes pas).zip (toBytes h.op.size v)).map Prod.snd)))] })) ∧
      (∀ pa n, x.spot = some (.phys [(pa, n)]) → data.length = 16 → s.sliceLine? (pa / 128 * 128) = none →
        let line := pa / 128 * 128
        let s1 := s.physWrite line (data.flatMap (fun w => toBytes 8 w.toNat))
        let bs := (s1.homeLine? line).getD (data.flatMap (fun w => toBytes 8 w.toNat))
        s1.sliceLine? line = none →
        exec (.loadReturn tid role 0 data) s = .next (hostStep ((s1.takeSlice line bs).modCore t.die t.core (fun c => c.keepLine line bs)) tid role
          { left with got := h.got ++ [(x.lane, BitVec.ofNat 64 (ofBytes ((bs.drop (pa - line)).take h.op.size)))] }))) ∧
    (h.isLoad = false →
      (∀ old, exec (.atomicopCompletion tid role 1 old) s = .next (hostFail s tid role h x 0x15)) ∧
      (∀ old, exec (.atomicopCompletion tid role 2 old) s = .next (hostFail s tid role h x 0x16)) ∧
      exec (.completionTimeout tid role) s = .next (hostFail s tid role h x 0x17) ∧
      (∀ (old : DWord) pas s0, hostTurn s t c h x = .go s0 → h.op.kind ≠ .add → x.spot = some (.phys pas) →
        let v := old.toNat % 2 ^ (8 * h.op.size)
        let h' := { h.without [x] with got := h.got ++ [(x.lane, BitVec.ofNat 64 v)] }
        exec (.atomicopCompletion tid role 0 old) s = .next (hostTwin (hostStep
          (((physBytes pas).zip (toBytes h.op.size ((h.op.new v x).getD v))).foldl (fun s b => s.physWrite b.1 [b.2]) s0)
          tid role h') tid role h')) ∧
      (∀ (old : DWord) pas s0, hostTurn s t c h x = .go s0 → h.op.kind = .add → x.spot = some (.phys pas) →
        let ls := h.op.lanes.filter (fun y => y.addr == x.addr)
        let before (n : Nat) : Nat := (ls.take n).foldl (fun v y => (h.op.new v y).getD v) (old.toNat % 2 ^ (8 * h.op.size))
        let h' := { h.without ls with got := h.got ++ ls.mapIdx (fun i y => (y.lane, BitVec.ofNat 64 (before i))) }
        exec (.atomicopCompletion tid role 0 old) s = .next (hostTwin (hostStep
          (((physBytes pas).zip (toBytes h.op.size (before ls.length))).foldl (fun s b => s.physWrite b.1 [b.2]) s0)
          tid role h') tid role h')))) ∧
  (∀ (s : State) (tid role : Nat) (status : BitVec 2) (t : Team) (c : Section) (p : PeerSend) (k : Iss), s.team? tid = some t → s.sec? tid role = some c →
    c.peerSend = some p → s.olderSend t p = false →
    let s1 := s.modSec tid role (fun c => { c with peerSend := none })
    State.iss? { s1 with sel := some (match p.who with
      | none => .sect tid role
      | some id => .lantern t.die t.core id) } = some k →
    exec (.sendStatusReturn tid role status) s = .next (retireWith k s1
      (k.th.putResult false false k.path p.lanes p.dest (fun _ => BitVec.ofNat 64 status.toNat)).advance)) ∧
  (∀ (s : State) (tid role u : Nat) (t : Team) (c d : Section) (a b : DmrOp), s.team? tid = some t → s.sec? tid role = some c →
    t.primary = true → t.twin = some u → s.sec? u role = some d → dmrPair c d = some (a, b) →
    (a.same b = false →
      exec (.dmrCompare tid role) s = .next (endContext s t.ctx cDMR 0 { recBy 0x30 t role with detail := dmrDetail a b })) ∧
    (∀ s1, a.same b = true → a.op.kind = .store → a.dest = none → a.counted = none → b.counted = none →
      (∀ x ∈ a.op.lanes, x.spot ≠ none ∧ ∀ v ∈ x.vas, s.logsPage t.ctx c.log v.1 = false) → (s.dmrPerform t c a a.op.lanes).2 = .go s1 →
      exec (.dmrCompare tid role) s = .next (((s1.modSec tid role (cmpTake a.id [])).modSec u role (cmpTake b.id [])).modCtx t.ctx
        (fun x => { x with dmrCount := x.dmrCount + 1 }))))

/-- R152 to R155, R158 to R161: a walk that has missed fills the core's table with what it found, and keeps the directory entries that it read; the driver's answer goes to the oldest
request for frames, and a frame granted makes its page valid with bytes of 0; a page asked for by the host becomes host-owned, and is
handed over once no access to it is under way; a page given up comes to the device with what the host has changed; a pin that has lasted THROTTLE ends, its
data back in the frame; a logged operation whose pages stand performs and leaves its log. -/
def Obligations.PageEvents : Prop :=
  (∀ (s : State) (die core ctx : Nat) (va : DWord), (s.coreAt die core).ctx = some ctx → va.toNat < 2 ^ 49 →
    tlbFind (s.coreAt die core).tlb ctx va.toNat = none →
    let l := (s.coreWalk die core ctx va.toNat).getD (0, 12)
    let read := walkDirs (s.dirAt die core) (s.ctxAt ctx).ptroot.toNat va.toNat
    exec (.walkComplete die core ctx va) s = .next ((s.pmAdd die core 5 1).modCore die core (fun x => { x with
      tlb := tset (0, 0) (if 1024 ≤ x.tlb.length then x.tlb.drop 1 else x.tlb) (tlbKey ctx va.toNat l.2) (BitVec.ofNat 64 l.1, l.2)
      dirs := tsets none x.dirs (read.map (fun pa => (pa, some (BitVec.ofNat 64 (s.dirAt die core pa))))) }))) ∧
  (∀ (s : State) (die slice : Nat) (frames : List (Option Nat)) (f : FrameReq) (q r : List FrameReq), (s.sliceAt die slice).frames = q ++ f :: r →
    (∀ g ∈ q, g.answer ≠ none) → f.answer = none →
    exec (.frameGrant die slice frames) s = .next (s.modSlice die slice (fun x => { x with frames := q ++ { f with answer := some frames } :: r }))) ∧
  (∀ (s : State) (ctx pa : Nat) (va : DWord) (l : Leaf) (base : Nat) (f : FrameReq), s.pageBase ctx va.toNat = some (l, base) →
    let h := s.pageHome ctx base
    let mine (f : FrameReq) : Bool := f.ctx == ctx && f.demand && f.pages == [(BitVec.ofNat 64 base, l.lg)] && f.answer.isSome
    (s.sliceAt h.1 h.2).frames.find? mine = some f → f.answer = some [some pa] → pa % 2 ^ l.lg = 0 → pa / 2 ^ 48 = h.1 → paOk s.cxlBytes pa = true →
    let s1 := s.modSlice h.1 h.2 (fun x => { x with frames := x.frames.filter (fun g => !mine g) })
    let s2 : State := { s1 with mem := s1.mem.filter (fun c => !decide (pa ≤ c.1 ∧ c.1 < pa + 2 ^ l.lg)) }
    let s3 := (s2.dropRange pa (2 ^ l.lg)).setLeaf ctx l base (leafWith l.e pa 0)
    exec (.demandMapComplete ctx va) s = .next { s3 with
      homes := s3.homes.filter (fun h => !(h.ctx == ctx && h.va == BitVec.ofNat 64 base && !h.failed && !h.toHost)) }) ∧
  (∀ (s : State) (ctx : Nat) (va : DWord) (l : Leaf) (base : Nat), s.pageBase ctx va.toNat = some (l, base) → leafV l.e = true → leafSYS l.e = false →
    let asked (now : Bool) : State := { s with homes := s.homes ++ [⟨ctx, BitVec.ofNat 64 base, true, now, [], false⟩] }
    (leafOWN l.e = 0 → (∀ h ∈ s.homes, h.ctx = ctx → h.va = BitVec.ofNat 64 base → h.failed = true) → thrashes s ctx base = false →
      exec (.hostMigrationRequest ctx va) s = .next ((asked true).setLeaf ctx l base (leafWith l.e (leafPA l.e) 1))) ∧
    (leafOWN l.e ≠ 2 → (∃ h ∈ s.homes, h.ctx = ctx ∧ h.va = BitVec.ofNat 64 base ∧ h.failed = false) →
      exec (.hostMigrationRequest ctx va) s = .next (asked false))) ∧
  (∀ (s : State) (ctx : Nat) (va : DWord) (data : List Host.Cell) (l : Leaf) (base : Nat) (h : HomeReq), s.pageBase ctx va.toNat = some (l, base) →
    s.pageReq ctx base = some h → leafV l.e = true → leafOWN l.e = 1 → h.toHost = true → h.begun = true → s.quiet (leafPA l.e) (2 ^ l.lg) = true →
    let s1 := (s.dropRange (leafPA l.e) (2 ^ l.lg)).moved ctx base
    exec (.migrationComplete ctx va data) s = .next { s1 with homes := dropReq ctx base s1.homes }) ∧
  (∀ (s : State) (ctx : Nat) (va : DWord) (data : List Host.Cell) (l : Leaf) (base : Nat) (h : HomeReq), s.pageBase ctx va.toNat = some (l, base) →
    s.pageReq ctx base = some h → leafV l.e = true → leafOWN l.e = 1 → h.toHost = false → thrashes s ctx base = false →
    let pa := leafPA l.e
    let s2 := data.foldl (fun s c => if c.1 < 2 ^ l.lg then s.physWrite (pa + c.1) [c.2] else s) s
    let s3 := ((s2.dropRange pa (2 ^ l.lg)).setLeaf ctx l base (leafWith l.e pa 0)).moved ctx base
    exec (.migrationComplete ctx va data) s = .next { s3 with homes := dropReq ctx base s3.homes }) ∧
  (∀ (s : State) (ctx : Nat) (va : DWord) (l : Leaf) (base frame at_ : Nat), s.pageBase ctx va.toNat = some (l, base) →
    tget none (s.ctxAt ctx).pinned (base / 4096) = some (frame, at_) → leafOWN l.e = 2 → leafSYS l.e = false →
    at_ + (s.ctxAt ctx).thrThrottle ≤ s.wall.toNat → s.quiet (leafPA l.e) (2 ^ l.lg) = true →
    let s1 := s.dropRange (leafPA l.e) (2 ^ l.lg)
    exec (.throttleExpiry ctx va) s = .next (((s1.physWrite frame (s1.physRead (leafPA l.e) (2 ^ l.lg))).setLeaf ctx l base (leafWith l.e frame 1)).modCtx ctx
      (fun x => { x with pinned := tset none x.pinned (base / 4096) none, history := tset [] x.history (base / 4096) [] }))) ∧
  (∀ (s s1 : State) (ctx : Nat) (va : DWord) (l : Leaf) (base : Nat) (o : Orphan) (gone : Bool) (t : Team) (c : Section) (x : LaneOp) (pas : List (Nat × Nat)),
    s.pageBase ctx va.toNat = some (l, base) → s.replayable ctx base l.lg = [(o, gone)] → s.team? o.tid = some t → s.sec? o.tid o.role = some c →
    let e := o.entry
    e.op.lanes = [x] → s.respot ctx (if e.op.kind = .store then .store else if e.op.atomic then .atomic else .red) x.vas = .ok pas →
    (s.sysWay e.op = some false → ∀ p ∈ pas, isHost p.1 = false) → (gone = true ∨ olderEntry c.log e = false) →
    (∀ b ∈ (s.coreAt t.die t.core).storeBuf, b.id < e.id → (Spot.phys pas).hits b.bytes = false ∧ s.promoted (Spot.phys pas).linesOf = false) →
    s.replayLane t c e.op x pas = .go s1 →
    exec (.sideLogReplay ctx va) s = .next ((s1.unlog o gone).partDone o.tid o.role e.id))

/-- R135, R168, R185, R190, R294, R298, R315, R322, R327, R332: the units' acts: pending taps go into the scratchpad; an emulated product and a
RESID operation whose data is good retire with their results; a die's complete count arrives at the gang's; the oldest doorbell of a die starts the cupola, and
each round merges with the image of the partner, while records that do not agree stop both. -/
def Obligations.UnitEvents : Prop :=
  (∀ (s : State) (tid role : Nat) (c : Section), s.sec? tid role = some c →
    exec (.matrixWriteback tid role) s = .next ((s.modTeam tid (fun t => { t with scratch := tsets 0 t.scratch c.taps })).modSec tid role (fun c => { c with taps := [] }))) ∧
  (∀ (s : State) (tid role : Nat) (k : Iss) (r : MatRes), State.iss? { s with sel := some (.sect tid role) } = some k → k.sec.emu = some r → k.sec.waitOn = .fmtEmu →
    exec (.fmtEmuComplete tid role) s = .next (((retireWith k s (k.th.putMat k.path k.act r).killLatches.advance).modTeam tid
      (fun t => { t with scratch := tsets 0 t.scratch r.taps })).modSec tid role (fun c => { c with emu := none, state := if c.hmode then .handler else .running }))) ∧
  (∀ (s : State) (die core tid role : Nat) (r : List (Nat × Nat)) (k : Iss) (o : ResidOps) (q : Sel), (s.coreAt die core).oculus = (tid, role) :: r →
    State.iss? { s with sel := some (.sect tid role) } = some k → k.sec.oculus = some q → residOps k q = some o →
    s.failedIn k.team.tid o.reads = none →
    let x := residAll o k.team
    touch s tid (o.lines ++ o.added k.team x.1) = .ok →
    let added := (o.added k.team x.1).length
    let s2 := ((s.modTeam tid (fun t => { t with scratch := x.1.scratch })).pmAdd die core 7 added).pmAdd die core 8 (x.2.2 - added)
    exec (.oculusCompare die core) s = .next (modOwn k ((retireWith k s2 (k.th.orFlags x.2.1).advance).modCore die core (fun x => { x with oculus := r }))
      (fun c => { c with oculus := none }))) ∧
  (∀ (s : State) (lid gang die : Nat), (s.gang lid gang).open_ = true → die ∈ (s.gang lid gang).due →
    let g := s.gang lid gang
    let s1 := s.setGang { g with due := g.due.filter (fun d => d != die), cross := g.cross - 1 }
    exec (.gangDieArrival lid gang die) s = .next (if g.cross ≤ 1 then gangDone s1 lid gang else s1)) ∧
  (∀ (s : State) (die ctx v : Nat) (r : List (Nat × Nat)) (c : Composite), (s.dieAt die).doorbell = (ctx, v) :: r → (s.dieAt die).cupolaHalt = false →
    let s1 := s.modDie die (fun d => { d with doorbell := r })
    let a := 0xF8 * 2 ^ 56 + die * 2 ^ 54 + (v - 1)
    v % 2 = 1 → (s1.ctxAt ctx).ended = false → (v - 1) % 64 = 0 → s1.dieRange ctx a 64 = true → Composite.of s1 ctx die (s1.dieRead a 64) = some c →
    exec (.cupolaDoorbell die) s = .next (s1.modDie die (fun d => { d with cupola := d.cupola ++ [c] }))) ∧
  (∀ (s : State) (die idx : Nat) (peer : List Host.Cell) (c : Composite), (s.dieAt die).cupola[idx]? = some c →
    (c.log2n ≤ c.round → exec (.cupolaRound die idx peer) s = .next (compEnd s die idx c (tsets 0 [] peer))) ∧
    (c.round < c.log2n → (c.parts.getD (Nat.xor c.rank (2 ^ c.round)) (0, 0)).1 ≠ 0xFFFF →
      exec (.cupolaRound die idx peer) s = .next (s.setComp die idx (some (c.merged (tsets 0 [] peer))))) ∧
    (∀ d j x, c.round < c.log2n → (c.parts.getD (Nat.xor c.rank (2 ^ c.round)) (0, 0)).1 = 0xFFFF →
      s.rankComp c (Nat.xor c.rank (2 ^ c.round)) = some (d, j, x) → x.round = c.round →
      (c.agrees x = true →
        exec (.cupolaRound die idx peer) s = .next ((s.setComp die idx (some (c.merged x.image))).setComp d j (some (x.merged c.image)))) ∧
      (c.agrees x = false → exec (.cupolaRound die idx peer) s = .next (cupolaSplit s die idx c d j x))))

namespace Sys2Proof.Claims

/-- The combined bytes of a reduction (R332): element by element, over the scratchpads and offsets of tiles 0 to 3 in turn. -/
def reduceSum (g : Word) (bytes : Nat) (tiles : List (List Host.Cell × Nat)) : List Byte :=
  let e := if tyInt (gType g) then tyBits (gType g) / 8 else (tyFmt (gType g)).width / 8
  (List.range (bytes / e)).flatMap (fun j => toBytes e (reduceElem g (tiles.map (fun x => readNat x.1 (x.2 + e * j) e))))

/-- Those bytes land at a team's destination, and its entry is over (R185, R332). -/
def landSum (sum : List Byte) (n : Nat) (s : State) (x : Team × Copy) : State :=
  let off := bits (Block.of x.2.block).gaddr 0 32
  let s := fillBytes s x.2 x.1.tid (sum.mapIdx (fun j v => (off + j, v)))
  let s := overtake s x.1.die x.1.core x.2 ((List.range n).map (fun j => off + j))
  let s := x.2.left.foldl (fun s _ => copyBar s x.2 (fun b => b.sectors (-1))) (lineDone s x.2 x.2.lines)
  copyDone s x.1.die x.1.core x.2

end Sys2Proof.Claims

/-- R106, R117, R134, R135, R185, R332: a copy engine starts the oldest entry that waits for no line, with 15 or fewer at work; a started copy's
sectors land one by one; a copy that meets a page to be resolved is paused, asks for the page, and is queued again behind the others when its pages
stand, to start in its turn; one that meets a fault, a failed read or the
host's refusal is dropped; four equal reductions of a cell complete together, each team's bytes the elements' combined value. -/
def Obligations.CopyEvents : Prop :=
  (∀ (s : State) (die core : Nat) (c : Copy) (t : Team) (q r : List Copy), (s.coreAt die core).halted = false → (s.coreAt die core).copyq = q ++ c :: r →
    (∀ x ∈ q, x.started = true ∨ x.paused = true ∨ ∃ u, s.team? x.tid = some u ∧ skipped s u x = true) →
    ((s.coreAt die core).copyq.filter (fun c => c.started && !c.paused && !(s.team? c.tid).any (fun t => idles s t c))).length < 16 →
    c.started = false → c.paused = false → s.team? c.tid = some t → skipped s t c = false → copyTouch s c c.tid (sourceLines c) = .ok →
    exec (.copyStart die core) s = .next (startEntry s die core t c)) ∧
  (∀ (s : State) (die core n : Nat) (t : Team) (c : Copy) (i : Nat), workingCopy s die core c.id = some (t, c) → c.form ≠ 2 → c.left[n % c.left.length]? = some i →
    exec (.sectorLanding die core c.id n) s = .next (if c.inbound then landIn s die core t c i else landOut s die core t c i)) ∧
  (∀ (s : State) (die core va : Nat) (t : Team) (c : Copy), (s.coreAt die core).copyq.find? (fun x => x.id == c.id && !x.paused) = some c → s.team? c.tid = some t →
    c.started = true → (copyMeets s t (c.asRead t.scratch)).1 = some va →
    exec (.copyPause die core c.id) s = .next ((modCopy s die core c.id (fun x => { x with paused := true, started := false })).askHome t.ctx va
      [(t.tid, copyRole + c.role)])) ∧
  (∀ (s : State) (die core : Nat) (t : Team) (c : Copy), (s.coreAt die core).copyq.find? (fun x => x.id == c.id && x.paused) = some c → s.team? c.tid = some t →
    (copyMeets s t (c.asRead t.scratch)).1 = none → leftIssue (s.coreAt die core) t = false →
    let shared := decide (sharedUsed (s.coreAt die core) < Config.sharedCopyEntries)
    (shared = true ∨ (c.form ≠ 3 ∧ ownUsed (s.coreAt die core) c.tid c.role < 2)) →
    exec (.copyResume die core c.id) s = .next (s.modCore die core (fun x => { x with
      copyq := x.copyq.filter (fun y => y.id != c.id) ++ [{ c with paused := false, shared := shared }] }))) ∧
  (∀ (s : State) (die core : Nat) (t : Team) (c : Copy), (s.coreAt die core).copyq.find? (fun x => x.id == c.id) = some c → s.team? c.tid = some t → c.begun = true →
    exec (.copyStop die core c.id 1) s = .next (dropCopy s die core c) ∧
    ((copyMeets s t c).2 = true → exec (.copyStop die core c.id 0) s = .next (dropCopy s die core c))) ∧
  (∀ (s : State) (lid gang ord : Nat) (es : List (Team × Copy)),
    least ((s.gangTeams lid gang).flatMap (fun t => ((s.coreAt t.die t.core).copyq.filter (fun c => c.tid == t.tid && c.form == 2)).map Copy.ordinal)) = some ord →
    reduceEntries s lid gang ord = es → (∀ e ∈ es, e.2.started = true) →
    (cellGang s lid gang = false →
      exec (.treduceComplete lid gang) s = .next (es.foldl (fun s e => haltDrop s e.1.die e.1.core e.2) s)) ∧
    (∀ (a0 a1 a2 a3 : Team × Copy), es = [a0, a1, a2, a3] → cellGang s lid gang = true → (∀ t ∈ s.gangTeams lid gang, t.bank ≠ .gone) →
      a0.1.core % 4 = 0 → a1.1.core % 4 = 1 → a2.1.core % 4 = 2 → a3.1.core % 4 = 3 →
      (∀ e ∈ es, (Block.of e.2.block).bytes = (Block.of a0.2.block).bytes ∧ bits e.2.gmode.toNat 4 9 = bits a0.2.gmode.toNat 4 9 ∧
        (∀ l ∈ copyLines (Block.of e.2.block) none, s.eccAt (.team e.1.tid (128 * l)) 128 = false) ∧
        copyTouch s e.2 e.1.tid (copyLines (Block.of e.2.block) none) = .ok) →
      exec (.treduceComplete lid gang) s = .next (es.foldl (landSum (reduceSum a0.2.gmode (Block.of a0.2.block).bytes
        (es.map (fun e => (e.1.scratch, (Block.of e.2.block).soff)))) (Block.of a0.2.block).bytes) s)))

/-- R113 to R118, R120, R131, R132, R142, R144: a core for which a team waits that does not fit parks its oldest eligible team;
a parked team whose image's pages stand has its
image written there and leaves the core; one with its replies comes back as its image says, with its core's cached lines dropped; a context's
images are read into the shadow bank; at a
safe point after a preemption request every section of the active bank leaves issue, and the banks swap, the outgoing context's TLB entries and every
cached line dropped and its sections parked for pre-emption; the wake request of a context that is resident leaves its die's list, and for
the first other that can be made resident the shadow bank fills and pre-emption is pending. -/
def Obligations.TeamEvents : Prop :=
  (∀ (s : State) (die core : Nat) (t : Team) (w : Nat × Option Nat), s.keptFor die core = none → (∀ u ∈ s.inBank die core .active, u.draining = false) →
    s.candidate die core = some t → atBoundaries t = true → s.waiter die core t = some w → s.waiterFits die core w = false →
    exec (.demandPark die core) s = .next (((s.modTeam t.tid (fun u => { u with draining := true, secs := u.secs.map (parkSec 0) })).modCore die core
      (fun x => { x with parkFor := some w })).pmAdd die core 0x0A 1)) ∧
  (∀ (s : State) (t : Team), s.team? t.tid = some t → t.draining = true → s.imageAt t .store = .ok →
    (t.bank = .active → mayLeave t = true → s.copiesAtWork t = false → s.parkRoom t.die t.core 1 = true → exec (.imageDrainComplete t.tid) s = .next (drainDone (s.imageOut t) t)) ∧
    (t.bank = .shadow → s.parkRoom t.die t.core (s.inBank t.die t.core .shadow).length = true → exec (.imageDrainComplete t.tid) s = .next (shadowDrainDone (s.imageOut t) t))) ∧
  (∀ (s s1 : State) (die core : Nat) (t : Team),
    (∀ role, (s.inBank die core .active).find? (fun t => (repliedInPlace t).isSome) = some t → repliedInPlace t = some role → resumeInPlace s t role = .go s1 →
      exec (.teamRestore die core) s = .next s1) ∧
    ((∀ u ∈ s.inBank die core .active, repliedInPlace u = none) → s.nextRestore die core = some t → (t.discarded = true ∨ s.imageAt t .load = .ok) →
      restoreTeam (s.fillImage t) t = .go s1 → exec (.teamRestore die core) s = .next s1)) ∧
  (∀ (s : State) (die core ctx : Nat), (s.coreAt die core).ctx ≠ some ctx → (s.coreAt die core).shadow = .empty →
    let ts := s.fillTeams die core ctx
    ts ≠ [] → s.fillAt ts = .ok →
    let s0 := ts.foldl State.fillImage s
    let s1 : State := { s0 with teams := s0.teams.map (fun t => match ts.find? (fun u => u.tid == t.tid) with
      | some u => { t with bank := .shadow, base := u.base, draining := false }
      | none => t) }
    exec (.shadowFillComplete die core ctx) s = .next (s1.modCore die core (fun x => { x with
      shadow := .full, shadowCtx := some ctx, parked := x.parked.filter (fun p => !ts.any (fun t => t.tid == p)) }))) ∧
  (∀ (s : State) (die core : Nat), (s.coreAt die core).preempt = true → (s.coreAt die core).shadow ≠ .filling → s.safePoint die core = true →
    (∀ t ∈ s.inBank die core .active, ∀ c ∈ t.secs, c.state = .parked ∨ c.state = .exited) →
    let inc := s.inBank die core .shadow
    let out := s.inBank die core .active
    let s1 := out.foldl stow s
    let s2 : State := { s1 with teams := s1.teams.map (fun t =>
      if t.die = die ∧ t.core = core ∧ t.bank = .active then { t with bank := .shadow, draining := true, secs := t.secs.map (parkSec 2) } else t) }
    let s3 := inc.foldl swapIn (s2.modCore die core (fun y => { y with
      preempt := false, dcache := [], tlb := y.tlb.filter (fun e => (s.coreAt die core).ctx != some (tlbCtx e)), dirs := []
      ctx := if inc.isEmpty then none else (s.coreAt die core).shadowCtx
      shadow := if out.isEmpty then .empty else .draining
      shadowCtx := if out.isEmpty then none else (s.coreAt die core).ctx }))
    exec (.bankSwap die core) s = .next (match inc.head? with
      | some t => s3.wakeServed t.ctx
      | none => s3)) ∧
  (∀ (s : State) (die core : Nat), s.stage = .s2 → exec (.preemptRequest die core) s = .next (s.modCore die core (fun x => { x with preempt := true }))) ∧
  (∀ (s : State) (die core : Nat), (s.coreAt die core).preempt = true → s.safePoint die core = true → (s.coreAt die core).shadow ≠ .filling →
    (∀ t ∈ s.inBank die core .active, mayDiscard t = false) → s.inBank die core .active ≠ [] →
    ∃ t, exec (.preemptSafePoint die core) s = .next t ∧
      t.teams = s.teams.map (fun t => if t.die = die ∧ t.core = core ∧ t.bank = .active then { t with secs := t.secs.map (parkSec 2) } else t) ∧
      t.mem = s.mem ∧ t.contexts = s.contexts) ∧
  (∀ (s : State) (die ctx : Nat), (s.dieAt die).wake = [ctx] → s.wakeOver ctx = true → (s.ctxAt ctx).homeDie = die →
    (∀ x ∈ s.contexts, x.2.wakeKept = false) →
    exec (.contextWake die) s = .next (s.modDie die (fun d => { d with wake := [] }))) ∧
  (∀ (s : State) (die ctx : Nat) (q r : List Nat), (s.dieAt die).wake = q ++ ctx :: r → (∀ c ∈ (s.dieAt die).wake, s.wakeOver c = false) →
    (∀ c ∈ q, s.wakeCores c = []) → s.wakeCores ctx ≠ [] →
    exec (.contextWake die) s = .next ((s.wakeCores ctx).foldl (fun s c => s.modCore (c / 64) (c % 64) (fun x =>
      if x.shadow = .empty then { x with shadow := .filling, shadowCtx := some ctx, preempt := true } else { x with preempt := true })) s))

/-- R122, R126, R138, R339, R393: a pending packet is read at its queue's head; a team is placed as planned and logged; a launch is complete
when all its teams have gone and nothing of it is left; its word then goes to DONE. A waiting request is posted once its ring has room; a
request is served by its number, and the host's runtime answers those from 0x8000. -/
def Obligations.LaunchEvents : Prop :=
  (∀ (s : State) (part q : Nat) (x : Queue) (bs : List Byte), s.stage = .s2 → (s.launches.filter (fun l => l.part == part && !l.complete)).length < 256 →
    s.nextQueue part = some (q, x) →
    let s1 : State := { s with turn := tset 0 s.turn (queueTurn part x.prio.toNat) (q + 1) }
    s1.ctxRead x.ctx.toNat (x.base.toNat + 64 * (x.head.toNat % 2 ^ (x.log2.toNat + 4))) 64 = .bytes bs →
    let r := takePacket s1 q x part 0 bs
    exec (.packetRead part 0) s = .next (if r.2 then { r.1 with queues := tset ⟨0, false, false, 0, 0, 0, 0, 0⟩ r.1.queues q { x with head := x.head + 1 } } else r.1)) ∧
  (∀ (s s1 : State) (l : Launch) (p : Plan), s.launch? l.lid = some l → s.stage = .s2 → (∀ q ∈ s.launches, q.part = l.part → q.lid < l.lid → s.planFor q = none) → l.pkt.replay = false →
    s.planFor l = some p → s.logPlaces l p.cores = .go s1 → exec (.teamPlace l.lid) s = .next (placeGang s1 l p)) ∧
  (∀ (s : State) (l : Launch), s.launch? l.lid = some l → l.complete = false → l.placed = l.pkt.grid → (∀ t ∈ s.teams, t.lid = l.lid → t.bank = .gone) →
    s.launchQuiet l.lid = true → (l.pkt.det = true → l.epochClosed = true) →
    exec (.launchComplete l.lid) s = .next (s.modLaunch l.lid (fun l => { l with complete := true }))) ∧
  (∀ (s : State) (l : Launch), s.launch? l.lid = some l → l.complete = true → l.wordDone = false →
    (l.pkt.done = 0 → exec (.completionWordWrite l.lid) s = .next (launchOver s l)) ∧
    (∀ pa pinned, l.pkt.done ≠ 0 → addrClass l.pkt.done.toNat = 0 → addrZeros l.pkt.done.toNat = true →
      s.translateNow l.ctx .store l.pkt.done.toNat = .ok pa pinned →
      exec (.completionWordWrite l.lid) s = .next (launchOver (s.physWrite pa (toBytes 8 (l.queue * 2 ^ 48 + l.number.toNat))) l))) ∧
  (∀ (s : State) (tid role : Nat) (t : Team) (c : Section) (w : SvcWait) (ws : List SvcWait), s.team? tid = some t → s.sec? tid role = some c →
    c.svcPending = w :: ws → s.olderPerformed t c none w.before 4 = true → reqFits (s.sliceAt t.die (svcSlice t)) (w.req.length - 1) = true →
    exec (.svcDeferredPost tid role) s = .next (postWaiting (s.modSec tid role (fun c => { c with svcPending := ws })) t role w.req)) ∧
  (∀ (s : State) (die slice : Nat) (r : SvcReq), (s.sliceAt die slice).reqs.find? (fun q => q.seq == r.seq && (!q.served || (q.nowait && !q.delivered))) = some r →
    r.served = false → (s.ctxAt r.ctx).ended = false →
    (∀ host, r.num = 1 → exec (.serviceRequestServe die slice r.seq host) s = .next (serveAlloc s die slice r)) ∧
    (∀ host, r.num = 2 → exec (.serviceRequestServe die slice r.seq host) s = .next (serveFree s die slice r)) ∧
    (∀ host, r.num = 3 → exec (.serviceRequestServe die slice r.seq host) s =
      .next (postReply (hostAtomics s r.ctx r.args host).1 die slice r (hostAtomics s r.ctx r.args host).2)) ∧
    (∀ reply, (s.sliceAt die slice).reqs.find? (fun q => q.seq == r.seq && !q.served) = some r → 0x8000 ≤ r.num → r.num ≤ 0xFFFF → reply.length = r.args.length →
      exec (.hostRuntimeServiceReply die slice r.seq reply) s = .next (postReply s die slice r (reply.map (fun x => replyBytes x.1.toNat x.2.toNat)))))

/-- R71, R121, R139, R369 to R375, R380: host writes by their names, once the function is configured. An AOPEN, INVBASE, INVLEN, PLIMIT or
DEVERRHEAD write of a legal value sets the register; one of a size or alignment that is none is discarded. A queue's doorbell sets its
tail, QCTL its fields, INVGO starts an invalidation, CHALT clears the halts whose bits are 1, EN starts and ends a context, LOGHEAD is
stored, a doorbell page sends. The debug window's commands ask for a hold of the selected section, release it when held, and ask it of
every section; a write of its SEL selects. -/
def Obligations.HostWrites : Prop :=
  (∀ (s : State) (v : DWord), s.cfgReady = true →
    (v.toNat < 2 → exec (.registerWrite 0 0x08 8 v) s = .next { s with aopen := v == 1 }) ∧
    (v.toNat % 4096 = 0 → exec (.registerWrite 0 0x10 8 v) s = .next { s with invbase := v }) ∧
    (v.toNat % 4096 = 0 → exec (.registerWrite 0 0x18 8 v) s = .next { s with invlen := v }) ∧
    (1800 ≤ v.toNat → v.toNat ≤ 2800 → exec (.registerWrite 0 0x80 8 v) s = .next { s with plimit := v }) ∧
    (∀ bar off size, size ≠ 4 ∧ size ≠ 8 ∨ off % size ≠ 0 → exec (.registerWrite bar off size v) s = .next s) ∧
    (s.invJob = none → bits v.toNat 32 16 = 0 → exec (.invgo v) s = .next { s with
      invctx := BitVec.ofNat 16 (bits v.toNat 48 16), invgo := BitVec.ofNat 32 v.toNat, invJob := some (bits v.toNat 48 16, s.invbase.toNat, s.invlen.toNat) }) ∧
    (s.invJob ≠ none → bits v.toNat 32 16 = 0 → exec (.invgo v) s = .next { s with inverr := true }) ∧
    (∀ die, die < 4 → exec (.chalt die v) s = .next (clearHalts s die v.toNat)) ∧
    exec (.firmwareRecovery v) s = .next (recoverFrom s v.toNat)) ∧
  (∀ (s : State) (q : Nat), s.cfgReady = true → s.stage = .s2 → q < 2048 →
    let x := tget ⟨0, false, false, 0, 0, 0, 0, 0⟩ s.queues q
    (∀ v : Word, (v - x.head).toNat ≤ 2 ^ (x.log2.toNat + 4) →
      exec (.launchQueueDoorbell q v) s = .next { s with queues := tset ⟨0, false, false, 0, 0, 0, 0, 0⟩ s.queues q { x with tail := v } }) ∧
    (∀ v : DWord, bits v.toNat 58 4 = 0 → bits v.toNat 0 36 = 0 → bits v.toNat 52 4 ≤ 12 → x.en = false → x.err = false →
      exec (.qctlWrite q v) s = .next { s with queues := tset ⟨0, false, false, 0, 0, 0, 0, 0⟩ s.queues q { x with
        en := bits v.toNat 63 1 == 1, err := false, prio := BitVec.ofNat 2 (bits v.toNat 56 2), log2 := BitVec.ofNat 4 (bits v.toNat 52 4)
        ctx := BitVec.ofNat 16 (bits v.toNat 36 16) } })) ∧
  (∀ (s : State) (ctx : Nat), s.cfgReady = true → ctx < 4096 →
    ((s.ctxAt ctx).enabled = false → (s.ctxAt ctx).part < 16 → (s.ctxAt ctx).homeDie < 4 →
      exec (.contextEnable ctx) s = .next (enableCtx s ctx (s.ctxAt ctx).part)) ∧
    ((s.ctxAt ctx).enabled = true → (s.ctxAt ctx).part < 16 → (s.ctxAt ctx).homeDie < 4 →
      exec (.contextEndRequest ctx) s = .next (disableCtx s ctx)) ∧
    (∀ v : Word, exec (.loghead ctx v) s = .next (s.modCtx ctx (fun x => { x with loghead := v })))) ∧
  (∀ (s : State) (page : Nat) (v : Word), s.cfgReady = true → s.stage = .s2 → page < 1024 → v.toNat < 2 ^ 22 →
    exec (.doorbellSend page v) s = .next (bellSend s page v.toNat)) ∧
  (∀ (s : State) (ctx : Nat), s.stage = .s2 → ctx < 4096 →
    exec (.debugHoldAll ctx) s = .next (dbgMark { s with teams := s.teams.map (fun t =>
      if t.ctx = ctx ∧ t.bank ≠ .gone then { t with secs := t.secs.map requestHold } else t) } ctx false) ∧
    (∀ t c l, s.selected ctx = some (t, c, l) →
      exec (.debugHold ctx) s = .next (dbgMark (s.modSec t.tid c.role requestHold) ctx false) ∧
      (c.state = .held → exec (.debugRelease ctx) s = .next (dbgMark (releaseSec s t c) ctx false))) ∧
    (∀ v : DWord, v.toNat < 2 ^ 36 →
      exec (.debugWindowWrite ctx 0 v) s = .next (dbgMark (s.modCtx ctx (fun x => { x with dbgSel := v })) ctx false)))

/-- R78, R94, R153, R194, R271, R369, R374, R376 to R378, R380 to R382: start-up runs through its stages; heat lowers the clock and then stops the
module; an invalidation completes with its tag; the host withdraws and gives back translations; a peer's send is checked; partitions, doorbell
pages and blocks of die scratchpad are given; a failed port or service, and an error in state that no instruction reads, end the contexts
they touch; corrected errors are counted. -/
def Obligations.DeviceEvents : Prop :=
  (∀ s : State, s.stage = .off → exec .powerGood s = .next { s with stage := .s0, cycle := 0 }) ∧
  (∀ s : State, s.stage = .s0 → exec .stage0Complete s = .next { s with cfgReady := true }) ∧
  (∀ (s : State) (header body : List Byte), s.stage = .s0 → s.cfgReady = true → s.recover = none →
    (∀ v, checkImage s.fusedMin.toNat ((header ++ body).take 128) ((header ++ body).drop 128) = .ok v →
      exec (.stage1Complete header body true) s = .next { s with fusedMin := BitVec.ofNat 32 v, stage := .s1, recover := none }) ∧
    (∀ c, checkImage s.fusedMin.toNat ((header ++ body).take 128) ((header ++ body).drop 128) = .error c → ∀ trained,
      exec (.stage1Complete header body trained) s = .next { s with stage := .failed, cause := BitVec.ofNat 8 c, recover := none })) ∧
  (∀ (s : State) (cxl : Nat) (ports peers : List Nat), s.stage = .s1 → cxl ≤ 2 ^ 43 →
    ∃ t, exec (.stage2Complete cxl ports peers) s = .next t ∧ t.stage = .s2 ∧ t.cxlBytes = cxl ∧ t.peers = peers ∧ t.mem = s.mem ∧ t.contexts = s.contexts ∧ t.parts = s.parts) ∧
  (∀ (s : State) (up : Bool), s.stage ≠ .off → s.clockAt = none →
    let f := if up then s.clockMHz + 50 else s.clockMHz - 50
    500 ≤ f → f ≤ 1700 → exec (.clockStep up) s = .next { s with clockMHz := f, clockAt := some s.wall }) ∧
  (∀ s : State, s.stage ≠ .off → exec .hotSpot105 s = .next { s with clockMHz := 500, clockAt := some s.wall } ∧
    ∃ t, exec .hotSpot115 s = .next t ∧ t.stage = .failed ∧ t.cause = 4 ∧ ∀ c, (t.ctxAt c).enabled = true → (t.ctxAt c).ended = true) ∧
  (∀ (s : State) (ctx base len : Nat), s.invJob = some (ctx, base, len) →
    exec .invalidationComplete s = .next { s.dropTlb ctx base len with invJob := none, invdone := s.invgo }) ∧
  (∀ (s : State) (page : Nat), page / 2 ^ 36 = 8 → s.quiet (4096 * page) 4096 = true → page ∉ s.ats →
    exec (.atsInvalidationRequest page) s = .next { s.dropRange (4096 * page) 4096 with ats := s.ats ++ [page] }) ∧
  (∀ (s : State) (ctx : Nat) (va : DWord) (l : Leaf) (base : Nat), s.pageBase ctx va.toNat = some (l, base) → leafOWN l.e = 2 →
    (∃ h ∈ s.homes, h.ctx = ctx ∧ h.va = BitVec.ofNat 64 base ∧ h.toHost = false ∧ h.failed = false) →
    exec (.pageRequestResponse ctx va true) s = .next { s with
      ats := s.ats.filter (fun p => !decide (leafPA l.e / 4096 ≤ p ∧ p < leafPA l.e / 4096 + 2 ^ (l.lg - 12)))
      homes := s.homes.filter (fun h => !(h.ctx == ctx && h.va == BitVec.ofNat 64 base && !h.failed && !h.toHost)) } ∧
    exec (.pageRequestResponse ctx va false) s = .next (s.homeFails ctx base l.lg)) ∧
  (∀ s : State, exec .inboundAtomicop s = .next s) ∧
  (∀ (s : State) (peer : BitVec 16) (ctx vec : Nat) (pay : DWord), s.stage = .s2 → ctx < 4096 → vec < 64 →
    let r := s.accept ctx vec pay (s.permits ctx 2 vec (some peer.toNat))
    exec (.peerSendReceive peer ctx vec pay) s = .next { r.2 with peerReplies := r.2.peerReplies ++ [(peer.toNat, r.1)] }) ∧
  (∀ (s : State) (part : Nat) (cells : List Nat), s.stage = .s2 → part < 16 → (∀ x ∈ s.contexts, x.2.part = part → x.2.exists_ = false) →
    cells.Nodup → (∀ c ∈ cells, c < 64) → (∀ x ∈ s.parts, x.1 ≠ part → ∀ c ∈ cells, c ∉ x.2) →
    (∀ d < 4, (((s.parts.filter (fun x => x.1 != part)).flatMap Prod.snd ++ cells).filter (fun c => c / 16 == d)).length ≤ 15) →
    exec (.partitionChange part cells) s = .next { s with
      parts := tset [] s.parts part cells, turn := tsets 0 s.turn ((List.range 5).map (fun i => (5 * part + i, 0))) }) ∧
  (∀ (s : State) (page : Nat) (token : Option (BitVec 48)), page < 1024 →
    let x : Doorbell := tget ⟨none, 0, 0, 0xFF⟩ s.doorbells page
    exec (.doorbellPageBind page token) s = .next { s with doorbells := tset ⟨none, 0, 0, 0xFF⟩ s.doorbells page { x with token := token } }) ∧
  (∀ (s : State) (die block ctx : Nat), die < 4 → block < 511 → (s.ctxAt ctx).exists_ = true →
    exec (.dieScratchpadBlockGive die block ctx) s = .next (s.modDie die (fun d => { d with
      owners := tset none d.owners block (some ctx)
      scratch := d.scratch.filter (fun c => !decide (65536 * block ≤ c.1 ∧ c.1 < 65536 * (block + 1))) }))) ∧
  (∀ (s : State) (port : Nat), s.stage = .s2 → exec (.cxlPortFailure port) s = .next (endAll s 0
    (fun s c => (mappedLeaves s.mem s.cxlBytes (s.ctxAt c).ptroot.toNat).any (fun x => onPort s.cxlPorts port x.1 x.2)))) ∧
  (∀ (s : State) (die slice : Nat), s.stage = .s2 →
    let s1 := endAll s 0 (fun s' c => (s.sliceAt die slice).reqs.any (fun r => r.ctx == c && !r.delivered)
      || (mappedRegions s'.mem s'.cxlBytes (s'.ctxAt c).ptroot.toNat).any (fun va => s'.pageHome c va == (die, slice)))
    exec (.serviceInstanceFailure die slice) s = .next ((s1.modSlice die slice (fun x => { x with
      frames := x.frames.filter (fun f => !(s1.ctxAt f.ctx).ended) })).postDev { recOf 0x10 0 with die := die })) ∧
  (∀ (s : State) (array : Nat), array < 584 → exec (.eccCorrected array) s = .next { s with
    eccCounts := tset 0 s.eccCounts array (if tget 0 s.eccCounts array = 0xFFFFFFFF then 0xFFFFFFFF else tget 0 s.eccCounts array + 1) }) ∧
  (∀ (s : State) (ctx : Nat), (s.ctxAt ctx).enabled = true → exec (.eccImageError ctx) s = .next (endContext s ctx cECC 0 (recOf 0x10 ctx)))

/-! ## What a result writes -/

namespace Sys2Proof.Claims

/-- The register `x` of lane `l` after `v` is written to vector register `d`, or to the pair that starts at it (R58, R60). -/
def regAfter (w : Bool) (d x : Nat) (v : DWord) (old : Word) : Word :=
  if x = d then v.setWidth 32 else if w = true ∧ x = d + 1 then v.extractLsb' 32 32 else old

end Sys2Proof.Claims

/-- R57, R58, R60, R61, R62: a result is written to a vector register or pair in the active lanes alone; to a uniform register or pair it is
the lowest active lane's value; nothing is written with N = 1 or to `zero`. No other register, no predicate, no flag and neither GMODE nor the
PC changes.
R57: a predicate result is written in the active lanes alone; p7 keeps reading 1. No other predicate and no register changes. -/
def Obligations.RegisterFrames : Prop :=
  (∀ (th : Thread) (n w : Bool) (path act : Mask) (d : Sel) (f : Nat → DWord),
    let t := th.putResult n w path act d f
    (∀ l x, x < 256 → t.vreg l x =
      if n = false ∧ d.toNat < 0xC0 ∧ l ∈ th.lanes act then regAfter w d.toNat x (f l) (th.vreg l x) else th.vreg l x) ∧
    (∀ x, t.kreg x = match th.lowest act with
      | some l => if n = false ∧ 0xC0 ≤ d.toNat ∧ d.toNat < 0xF0 then regAfter w (uniNo d) x (f l) (th.kreg x) else th.kreg x
      | none => th.kreg x) ∧
    (∀ l p, t.pred l p = th.pred l p) ∧ t.fpflags = th.fpflags ∧ t.gmode = th.gmode ∧ t.pc = th.pc) ∧
  (∀ (th : Thread) (act : Mask) (p : Nat) (f : Nat → Bool), p < 8 →
    let t := th.putPred act p f
    (∀ l, l ∈ th.lanes act → t.pred l p = if p = 7 then true else f l) ∧
    (∀ l q, q < 8 → (l ∉ th.lanes act ∨ q ≠ p) → t.pred l q = th.pred l q) ∧
    (∀ l x, t.vreg l x = th.vreg l x) ∧ (∀ x, t.kreg x = th.kreg x) ∧ t.fpflags = th.fpflags ∧ t.gmode = th.gmode)

/-- R66: a pass of a group moves its latches one place on and puts the result in b0, recoverable unless N = 1 or the destination is `zero`;
other groups keep theirs. -/
def Obligations.LatchShift : Prop :=
  ∀ (th : Thread) (n w : Bool) (path act : Mask) (d : Sel) (f : Nat → DWord) (g : Nat),
    let t := th.latchPass n w path act d f
    (g ∈ groupsOf path th.groups →
      t.latch g 3 = th.latch g 2 ∧ t.latch g 2 = th.latch g 1 ∧ t.latch g 1 = th.latch g 0 ∧
      t.latch g 0 = ⟨true, !n && d != 0xF4, some d, w, th.latchVals w act d f g⟩) ∧
    (g ∉ groupsOf path th.groups → ∀ i < 4, t.latch g i = th.latch g i)

/-- Retirement touches no state but its own section or its own row of the lantern: every field but the teams and the cores, and every byte
that a spot names, is as before. -/
def Obligations.RetireFrame : Prop :=
  ∀ (k : Iss) (s : State) (th : Thread),
    let t := retireWith k s th
    { t with teams := s.teams, cores := s.cores } = s ∧
    (∀ sp n, t.spotRead sp n = s.spotRead sp n) ∧
    (∀ tid role, (tid, role) ≠ (k.team.tid, k.sec.role) → t.sec? tid role = s.sec? tid role) ∧
    (∀ d c, (t.coreAt d c).storeBuf = (s.coreAt d c).storeBuf ∧ (t.coreAt d c).dcache = (s.coreAt d c).dcache)

/-! ## Words, steps, invariants -/

namespace Sys2Proof.Claims

/-- A section's boundary at which nothing else is asked of it (R76), on the last port that its passes await: what stands when its next
instruction issues. -/
structure Issues (s : State) (d c port : Nat) (t : Team) (x : Section) (k : Iss) : Prop where
  port4  : port < 4
  picked : s.pick d c port = some (t, x)
  last   : portsLeft x port = []
  quiet  : asked s t x = false
  free   : s.uiHeld t x = false
  issuer : State.iss? { s with sel := some (.sect t.tid x.role) } = some k

/-- The state from which that instruction issues. -/
def issuing (s : State) (t : Team) (x : Section) : State := { s with sel := some (.sect t.tid x.role) }

end Sys2Proof.Claims

/-- R199, R200, R205, R209 to R211: an instruction's word decodes to it, and a word decodes to no instruction but the one that it encodes; no
event has a word. -/
def Obligations.DecodeEncode : Prop :=
  (∀ i : Instr, i.isEvent = false → ∃ w, encode i = some w ∧ decode w = .ok i) ∧
  (∀ (w : Word) (i : Instr), decode w = .ok i → i.isEvent = false ∧ encode i = some w)

/-- R200, R205, R209, R211: words put together from the fields of the spec's formats decode to the instructions they stand for, and words that are
no instruction have the fate the spec gives them. -/
def Obligations.DecodedWords : Prop :=
  decode 0x1211F502 = .ok (.icmp 2 1 0xF5 2) ∧ decode 0x18001000 = .ok (.movi false 0 0x1000) ∧ decode 0x58040200 = .ok (.frcp false 4 2) ∧
  decode 0xA0081013 = .ok (.ld false 8 2 2 3) ∧ decode 0xA2091010 = .ok (.st 9 2 2 0) ∧ decode 0x80002006 = .ok (.bra 4 6) ∧
  decode 0xFEE10001 = .ok (.svc true 0 1) ∧ decode 0xFE7BC6D7 = .ok (.spcast 3 0xC6 0xD7) ∧ decode 0xE02000C8 = .ok (.mma false 32 0 0xC8) ∧
  decode 0xFEB914D0 = .ok (.dtest 1 20 0xD0) ∧ decode 0 = .error .opc ∧ decode 0x84000001 = .error .opnd ∧ decode 0xFFFFFFFF = .error .opc

/-- R15, R17, R67, R76, R78, R129, R161, R194, R199, R205, R206: a step lets its time pass. When the agenda holds an event, the step is that
event; when it holds the failure of bytes of memory, they hold an uncorrected error from then on, until they are mended; when it holds a store
of the host or of firmware, memory holds its bytes; firmware sets a context's thrash parameters within their ranges, and clears a count of
corrected errors. A port that picks a section whose other ports have still to pick it leaves the turn to one of them. With the last
of them, and nothing asked of the section, the step is `exec` of the instruction that the word at its PC decodes to, and what the section's
passes on those ports do to other sections' latches and to the schedulers; a word that is none traps with its
fate, TRAPAUX being the word; a fetch that faults traps on the whole path at the PC, TRAPAUX being 0x403, or 0 with ECC; one whose page is to be
mapped waits. -/
def Obligations.StepRunsDecoded : Prop :=
  (∀ (s : State) (e : Event) (r : List Act), (tick s).agenda = .event e :: r →
    step s = exec e.val { tick s with agenda := r, sel := none, stalled := [] }) ∧
  (∀ (s : State) (sp : Spot) (r : List Act),
    ((tick s).agenda = .fail sp :: r → step s = .next { tick s with agenda := r, failed := sp :: (tick s).failed, stalled := [] }) ∧
    ((tick s).agenda = .mend sp :: r →
      step s = .next { tick s with agenda := r, failed := (tick s).failed.filter (fun x => x != sp), stalled := [] })) ∧
  (∀ (s : State) (pa : Nat) (bs : List Byte) (r : List Act), (tick s).agenda = .host pa bs :: r →
    (∀ i, i < bs.length → paOk (tick s).cxlBytes (pa + i) = true) →
    step s = .next { tick s with agenda := r, stalled := [], mem := writeBytes (tick s).mem pa bs }) ∧
  (∀ (s : State) (ctx m w th n : Nat) (r : List Act),
    let s0 : State := { tick s with agenda := r, stalled := [] }
    ((tick s).agenda = .thrash ctx m w th :: r → 1 ≤ m → m ≤ 255 → 10000 ≤ w → w ≤ 10 ^ 9 → 100000 ≤ th → th ≤ 10 ^ 10 →
      step s = .next (s0.modCtx ctx (fun x => { x with thrMoves := m, thrWindow := w, thrThrottle := th }))) ∧
    ((tick s).agenda = .eccClear n :: r → step s = .next { s0 with eccCounts := tset 0 s0.eccCounts n 0 })) ∧
  (∀ (s : State) (d c port : Nat) (t : Team) (x : Section) (k : Iss) (r : List Act),
    ((tick s).agenda = .issue d c port :: r ∨ ((tick s).agenda = [] ∧ r = [] ∧ s.focus = (d, c, port))) →
    let s0 : State := { tick s with agenda := r }
    let at_ := issuing s0 t x
    Issues s0 d c port t x k →
    (∀ w s1 i s2, fetchWord at_ k.team k.homeKey k.th.pc.toNat = .word w s1 → decode w = .ok i → (k.sec.taps = [] ∨ besideTaps i = true) →
      exec i s1 = .next s2 → step s = .next (settle k s2)) ∧
    (∀ w s1 f, fetchWord at_ k.team k.homeKey k.th.pc.toNat = .word w s1 → decode w = .error f →
      step s = .next (settle k (raise k s1 ⟨match f with
        | .opc => cOPC
        | .opnd => cOPND, if k.act = 0 then k.path else k.act, 0, w⟩))) ∧
    (∀ code, fetchWord at_ k.team k.homeKey k.th.pc.toNat = .fault code →
      step s = .next (settle k (raise k at_ ⟨code, k.path, k.th.pc, if code = cECC then 0 else 0x403⟩))) ∧
    (∀ s1, fetchWord at_ k.team k.homeKey k.th.pc.toNat = .wait s1 → step s = .next (settle k (waitOn k s1 .heldLoad .again)))) ∧
  (∀ (s : State) (d c port p : Nat) (t : Team) (x : Section) (r : List Act) (q : List Nat),
    ((tick s).agenda = .issue d c port :: r ∨ ((tick s).agenda = [] ∧ r = [] ∧ s.focus = (d, c, port))) → port < 4 →
    let s0 : State := { tick s with agenda := r }
    s0.pick d c port = some (t, x) → portsLeft x port = p :: q → asked s0 t x = false → s0.uiHeld t x = false →
    step s = .next { s0.modSec t.tid x.role (fun c => { c with granted := port :: c.granted }) with focus := (t.die, t.core, p), stalled := [] }) ∧
  (∀ (k : Iss) (s : State) (c : Section), s.sec? k.team.tid k.sec.role = some c → c.retired = k.sec.retired + 1 →
    settle k s = { markIssue (modOwn k s (fun c => { c with granted := [] })) k.team k.sec k.path with stalled := [] }) ∧
  (∀ (s : State) (t : Team) (role va pa : Nat) (pinned : Bool), va < 2 ^ 49 → va % 4 = 0 → s.translate t.die t.core t.ctx .fetch va = .ok pa pinned →
    (∀ x ∈ (s.coreAt t.die t.core).ibuf, x.1 ≠ pa / 4) → s.eccAt (.phys [(pa, 4)]) 4 = false →
    ∃ s1, fetchWord s t role va = .word (bytesWord (s.homeRead pa 4)) s1 ∧ s1.mem = s.mem ∧ s1.teams = s.teams ∧ s1.contexts = s.contexts)

/-- R206: an instruction word with an illegal operand field is OPND, on the active lanes, or on the path's with none active, its TRAPAUX being the
word: no instruction escapes. -/
def Obligations.IllFormedTraps : Prop :=
  ∀ (i : Instr) (s : State) (k : Iss), i.isEvent = false → i.wellFormed = false → s.iss? = some k →
    exec i s = .next (raise k s ⟨cOPND, if k.act = 0 then k.path else k.act, 0, (encode i).getD 0⟩)

/-- Every instruction that something issues, and every event, answers a next state; with no issuer an instruction meets the machine's one
fault, and nothing is ever refused. So every step of every state goes on (the model's own claim of completeness). -/
def Obligations.StepAnswersNext : Prop :=
  (∀ (i : Instr) (s : State), i.isEvent = true ∨ (∃ k, s.iss? = some k) → ∃ t, exec i s = .next t) ∧
  (∀ (i : Instr) (s : State), i.isEvent = false → s.iss? = none → exec i s = .fault .noIssuer) ∧
  (∀ s : State, ∃ t, step s = .next t)

/-- Every step keeps physical memory in its canonical form (the model's invariant, log entry 2): addresses rise, and no byte is listed that reads
as an unlisted one. -/
def Obligations.StepKeepsMemory : Prop := ∀ s t : State, s.MemOk → step s = .next t → t.MemOk

/-- R36, R62, R87, R161, R371, R373, R380, R382: what reset leaves: the module off, at 1.7 GHz and the power limit of 2,800 W, no context, launch or
team; AOPEN clear; CYCLE and WALL 0; the thrash parameters; memory canonical; a launched section's GMODE and predicates. -/
def Obligations.ResetState : Prop :=
  let s := State.reset
  s.MemOk ∧ s.stage = .off ∧ s.cfgReady = false ∧ s.clockMHz = 1700 ∧ s.plimit = 2800 ∧ s.aopen = false ∧ s.cycle = 0 ∧ s.wall = 0 ∧
  s.teams = [] ∧ s.launches = [] ∧ s.devErrLost = 0 ∧ s.invdone = 0 ∧
  (∀ c, (s.ctxAt c).enabled = false ∧ (s.ctxAt c).ptroot = 0 ∧ (s.ctxAt c).thrMoves = 4 ∧ (s.ctxAt c).thrWindow = 1000000 ∧ (s.ctxAt c).thrThrottle = 10000000) ∧
  (∀ q, (tget queue0 s.queues q).en = false ∧ (tget queue0 s.queues q).head = 0 ∧ (tget queue0 s.queues q).tail = 0) ∧
  gmodeReset = 0x27 ∧
  (∀ (l : Launch) (tid idx core slot : Nat) (u : Option Nat) (p : Bool), ∀ c ∈ (newTeam l tid idx core slot u p).secs,
    c.th.gmode = 0x27 ∧ c.th.fpflags = 0 ∧ c.th.path = fullMask c.th.groups ∧ c.hmode = false ∧ c.stack = [] ∧
    (∀ lane n, c.th.vreg lane n = 0) ∧ (∀ lane n, c.th.pred lane n = (n == 7)))
end

