-- ==== Sys2Proof/Laws/Masks.lean ====
section
/-!
SUPPORT. Masks of lanes: what a mask of a list holds, which lanes a mask lists, and that the active lanes of an issuer are the lanes that
their mask lists.
-/

namespace Sys2Proof.Machine

theorem getLsbD_foldl_or (ls : List Nat) (m : Mask) (i : Nat) :
    (ls.foldl (fun m l => m ||| BitVec.twoPow 1024 l) m).getLsbD i = (m.getLsbD i || (decide (i < 1024) && decide (i ∈ ls))) := by
  induction ls generalizing m with
  | nil => simp
  | cons l r ih =>
    rw [List.foldl_cons, ih, BitVec.getLsbD_or, BitVec.getLsbD_twoPow]
    by_cases h : i < 1024 <;> by_cases hl : l = i
    · subst hl; simp [h]
    · have hl' : ¬ i = l := fun e => hl e.symm
      simp [h, hl, hl']
    · subst hl; simp [h]
    · have hl' : ¬ i = l := fun e => hl e.symm
      simp [h, hl, hl']

/-- The mask of a list holds exactly its lanes. -/
theorem getLsbD_maskOf (ls : List Nat) (i : Nat) : (maskOf ls).getLsbD i = (decide (i < 1024) && decide (i ∈ ls)) := by
  unfold maskOf; rw [getLsbD_foldl_or]; simp

/-- The lanes that a mask lists. -/
theorem mem_lanesOf (m : Mask) (g l : Nat) : l ∈ lanesOf m g ↔ l < 32 * g ∧ m.getLsbD l = true := by
  simp [lanesOf]

/-- A mask of some of the lanes that another lists is the mask of the lanes that it lists itself. -/
theorem maskOf_lanesOf_maskOf (ls : List Nat) (g : Nat) (h : ∀ l ∈ ls, l < 32 * g) : maskOf (lanesOf (maskOf ls) g) = maskOf ls := by
  apply BitVec.eq_of_getLsbD_eq
  intro i hi
  rw [getLsbD_maskOf, getLsbD_maskOf]
  congr 1
  rw [decide_eq_decide, mem_lanesOf, getLsbD_maskOf]
  simp only [hi, decide_true, Bool.true_and, decide_eq_true_eq]
  exact ⟨fun x => x.2, fun x => ⟨h i x, x⟩⟩

/-- The active lanes of an issuer are those that their mask lists. -/
theorem iss_act {s : State} {k : Iss} (h : s.iss? = some k) : maskOf (k.th.lanes k.act) = k.act := by
  have go : ∀ (th : Thread) (p : Mask), maskOf (th.lanes (th.guarded p)) = th.guarded p := by
    intro th p
    unfold Thread.lanes Thread.guarded
    refine maskOf_lanesOf_maskOf _ _ ?_
    intro l hl
    exact ((mem_lanesOf p th.groups l).1 (List.mem_filter.1 hl).1).1
  unfold State.iss? at h
  split at h
  · cases h
  · split at h
    · cases h; exact go _ _
    · cases h
  · split at h
    · cases h
    · split at h
      · cases h; exact go _ _
      · cases h

end Sys2Proof.Machine
end

