-- ==== Sys2Proof/Laws/State.lean ====
section
/-!
SUPPORT. One lemma per field of State and update: what an update of one table leaves as it was.
-/

namespace Sys2Proof.Machine

/-! ## modTeam -/

@[simp] theorem modTeam_stage (s : State) (tid : Nat) (f : Team → Team) : (s.modTeam tid f).stage = s.stage := rfl
@[simp] theorem modTeam_cfgReady (s : State) (tid : Nat) (f : Team → Team) : (s.modTeam tid f).cfgReady = s.cfgReady := rfl
@[simp] theorem modTeam_cause (s : State) (tid : Nat) (f : Team → Team) : (s.modTeam tid f).cause = s.cause := rfl
@[simp] theorem modTeam_clockMHz (s : State) (tid : Nat) (f : Team → Team) : (s.modTeam tid f).clockMHz = s.clockMHz := rfl
@[simp] theorem modTeam_clockAt (s : State) (tid : Nat) (f : Team → Team) : (s.modTeam tid f).clockAt = s.clockAt := rfl
@[simp] theorem modTeam_plimit (s : State) (tid : Nat) (f : Team → Team) : (s.modTeam tid f).plimit = s.plimit := rfl
@[simp] theorem modTeam_aopen (s : State) (tid : Nat) (f : Team → Team) : (s.modTeam tid f).aopen = s.aopen := rfl
@[simp] theorem modTeam_invbase (s : State) (tid : Nat) (f : Team → Team) : (s.modTeam tid f).invbase = s.invbase := rfl
@[simp] theorem modTeam_invlen (s : State) (tid : Nat) (f : Team → Team) : (s.modTeam tid f).invlen = s.invlen := rfl
@[simp] theorem modTeam_invctx (s : State) (tid : Nat) (f : Team → Team) : (s.modTeam tid f).invctx = s.invctx := rfl
@[simp] theorem modTeam_invgo (s : State) (tid : Nat) (f : Team → Team) : (s.modTeam tid f).invgo = s.invgo := rfl
@[simp] theorem modTeam_invJob (s : State) (tid : Nat) (f : Team → Team) : (s.modTeam tid f).invJob = s.invJob := rfl
@[simp] theorem modTeam_inverr (s : State) (tid : Nat) (f : Team → Team) : (s.modTeam tid f).inverr = s.inverr := rfl
@[simp] theorem modTeam_invdone (s : State) (tid : Nat) (f : Team → Team) : (s.modTeam tid f).invdone = s.invdone := rfl
@[simp] theorem modTeam_fusedMin (s : State) (tid : Nat) (f : Team → Team) : (s.modTeam tid f).fusedMin = s.fusedMin := rfl
@[simp] theorem modTeam_cxlBytes (s : State) (tid : Nat) (f : Team → Team) : (s.modTeam tid f).cxlBytes = s.cxlBytes := rfl
@[simp] theorem modTeam_cxlPorts (s : State) (tid : Nat) (f : Team → Team) : (s.modTeam tid f).cxlPorts = s.cxlPorts := rfl
@[simp] theorem modTeam_peers (s : State) (tid : Nat) (f : Team → Team) : (s.modTeam tid f).peers = s.peers := rfl
@[simp] theorem modTeam_devErrHead (s : State) (tid : Nat) (f : Team → Team) : (s.modTeam tid f).devErrHead = s.devErrHead := rfl
@[simp] theorem modTeam_devErrTail (s : State) (tid : Nat) (f : Team → Team) : (s.modTeam tid f).devErrTail = s.devErrTail := rfl
@[simp] theorem modTeam_devErrLost (s : State) (tid : Nat) (f : Team → Team) : (s.modTeam tid f).devErrLost = s.devErrLost := rfl
@[simp] theorem modTeam_devErrs (s : State) (tid : Nat) (f : Team → Team) : (s.modTeam tid f).devErrs = s.devErrs := rfl
@[simp] theorem modTeam_staged (s : State) (tid : Nat) (f : Team → Team) : (s.modTeam tid f).staged = s.staged := rfl
@[simp] theorem modTeam_recover (s : State) (tid : Nat) (f : Team → Team) : (s.modTeam tid f).recover = s.recover := rfl
@[simp] theorem modTeam_ats (s : State) (tid : Nat) (f : Team → Team) : (s.modTeam tid f).ats = s.ats := rfl
@[simp] theorem modTeam_eccCounts (s : State) (tid : Nat) (f : Team → Team) : (s.modTeam tid f).eccCounts = s.eccCounts := rfl
@[simp] theorem modTeam_cycle (s : State) (tid : Nat) (f : Team → Team) : (s.modTeam tid f).cycle = s.cycle := rfl
@[simp] theorem modTeam_wall (s : State) (tid : Nat) (f : Team → Team) : (s.modTeam tid f).wall = s.wall := rfl
@[simp] theorem modTeam_queues (s : State) (tid : Nat) (f : Team → Team) : (s.modTeam tid f).queues = s.queues := rfl
@[simp] theorem modTeam_doorbells (s : State) (tid : Nat) (f : Team → Team) : (s.modTeam tid f).doorbells = s.doorbells := rfl
@[simp] theorem modTeam_parts (s : State) (tid : Nat) (f : Team → Team) : (s.modTeam tid f).parts = s.parts := rfl
@[simp] theorem modTeam_turn (s : State) (tid : Nat) (f : Team → Team) : (s.modTeam tid f).turn = s.turn := rfl
@[simp] theorem modTeam_contexts (s : State) (tid : Nat) (f : Team → Team) : (s.modTeam tid f).contexts = s.contexts := rfl
@[simp] theorem modTeam_launches (s : State) (tid : Nat) (f : Team → Team) : (s.modTeam tid f).launches = s.launches := rfl
@[simp] theorem modTeam_gangs (s : State) (tid : Nat) (f : Team → Team) : (s.modTeam tid f).gangs = s.gangs := rfl
@[simp] theorem modTeam_cores (s : State) (tid : Nat) (f : Team → Team) : (s.modTeam tid f).cores = s.cores := rfl
@[simp] theorem modTeam_diesT (s : State) (tid : Nat) (f : Team → Team) : (s.modTeam tid f).diesT = s.diesT := rfl
@[simp] theorem modTeam_slices (s : State) (tid : Nat) (f : Team → Team) : (s.modTeam tid f).slices = s.slices := rfl
@[simp] theorem modTeam_homes (s : State) (tid : Nat) (f : Team → Team) : (s.modTeam tid f).homes = s.homes := rfl
@[simp] theorem modTeam_remote (s : State) (tid : Nat) (f : Team → Team) : (s.modTeam tid f).remote = s.remote := rfl
@[simp] theorem modTeam_sysOps (s : State) (tid : Nat) (f : Team → Team) : (s.modTeam tid f).sysOps = s.sysOps := rfl
@[simp] theorem modTeam_broken (s : State) (tid : Nat) (f : Team → Team) : (s.modTeam tid f).broken = s.broken := rfl
@[simp] theorem modTeam_orphans (s : State) (tid : Nat) (f : Team → Team) : (s.modTeam tid f).orphans = s.orphans := rfl
@[simp] theorem modTeam_failed (s : State) (tid : Nat) (f : Team → Team) : (s.modTeam tid f).failed = s.failed := rfl
@[simp] theorem modTeam_peerReplies (s : State) (tid : Nat) (f : Team → Team) : (s.modTeam tid f).peerReplies = s.peerReplies := rfl
@[simp] theorem modTeam_stalled (s : State) (tid : Nat) (f : Team → Team) : (s.modTeam tid f).stalled = s.stalled := rfl
@[simp] theorem modTeam_mem (s : State) (tid : Nat) (f : Team → Team) : (s.modTeam tid f).mem = s.mem := rfl
@[simp] theorem modTeam_agenda (s : State) (tid : Nat) (f : Team → Team) : (s.modTeam tid f).agenda = s.agenda := rfl
@[simp] theorem modTeam_focus (s : State) (tid : Nat) (f : Team → Team) : (s.modTeam tid f).focus = s.focus := rfl
@[simp] theorem modTeam_sel (s : State) (tid : Nat) (f : Team → Team) : (s.modTeam tid f).sel = s.sel := rfl
@[simp] theorem modTeam_stepNo (s : State) (tid : Nat) (f : Team → Team) : (s.modTeam tid f).stepNo = s.stepNo := rfl
@[simp] theorem modTeam_nextTid (s : State) (tid : Nat) (f : Team → Team) : (s.modTeam tid f).nextTid = s.nextTid := rfl
@[simp] theorem modTeam_nextLid (s : State) (tid : Nat) (f : Team → Team) : (s.modTeam tid f).nextLid = s.nextLid := rfl
@[simp] theorem modTeam_nextOp (s : State) (tid : Nat) (f : Team → Team) : (s.modTeam tid f).nextOp = s.nextOp := rfl

/-! ## modLaunch -/

@[simp] theorem modLaunch_stage (s : State) (lid : Nat) (f : Launch → Launch) : (s.modLaunch lid f).stage = s.stage := rfl
@[simp] theorem modLaunch_cfgReady (s : State) (lid : Nat) (f : Launch → Launch) : (s.modLaunch lid f).cfgReady = s.cfgReady := rfl
@[simp] theorem modLaunch_cause (s : State) (lid : Nat) (f : Launch → Launch) : (s.modLaunch lid f).cause = s.cause := rfl
@[simp] theorem modLaunch_clockMHz (s : State) (lid : Nat) (f : Launch → Launch) : (s.modLaunch lid f).clockMHz = s.clockMHz := rfl
@[simp] theorem modLaunch_clockAt (s : State) (lid : Nat) (f : Launch → Launch) : (s.modLaunch lid f).clockAt = s.clockAt := rfl
@[simp] theorem modLaunch_plimit (s : State) (lid : Nat) (f : Launch → Launch) : (s.modLaunch lid f).plimit = s.plimit := rfl
@[simp] theorem modLaunch_aopen (s : State) (lid : Nat) (f : Launch → Launch) : (s.modLaunch lid f).aopen = s.aopen := rfl
@[simp] theorem modLaunch_invbase (s : State) (lid : Nat) (f : Launch → Launch) : (s.modLaunch lid f).invbase = s.invbase := rfl
@[simp] theorem modLaunch_invlen (s : State) (lid : Nat) (f : Launch → Launch) : (s.modLaunch lid f).invlen = s.invlen := rfl
@[simp] theorem modLaunch_invctx (s : State) (lid : Nat) (f : Launch → Launch) : (s.modLaunch lid f).invctx = s.invctx := rfl
@[simp] theorem modLaunch_invgo (s : State) (lid : Nat) (f : Launch → Launch) : (s.modLaunch lid f).invgo = s.invgo := rfl
@[simp] theorem modLaunch_invJob (s : State) (lid : Nat) (f : Launch → Launch) : (s.modLaunch lid f).invJob = s.invJob := rfl
@[simp] theorem modLaunch_inverr (s : State) (lid : Nat) (f : Launch → Launch) : (s.modLaunch lid f).inverr = s.inverr := rfl
@[simp] theorem modLaunch_invdone (s : State) (lid : Nat) (f : Launch → Launch) : (s.modLaunch lid f).invdone = s.invdone := rfl
@[simp] theorem modLaunch_fusedMin (s : State) (lid : Nat) (f : Launch → Launch) : (s.modLaunch lid f).fusedMin = s.fusedMin := rfl
@[simp] theorem modLaunch_cxlBytes (s : State) (lid : Nat) (f : Launch → Launch) : (s.modLaunch lid f).cxlBytes = s.cxlBytes := rfl
@[simp] theorem modLaunch_cxlPorts (s : State) (lid : Nat) (f : Launch → Launch) : (s.modLaunch lid f).cxlPorts = s.cxlPorts := rfl
@[simp] theorem modLaunch_peers (s : State) (lid : Nat) (f : Launch → Launch) : (s.modLaunch lid f).peers = s.peers := rfl
@[simp] theorem modLaunch_devErrHead (s : State) (lid : Nat) (f : Launch → Launch) : (s.modLaunch lid f).devErrHead = s.devErrHead := rfl
@[simp] theorem modLaunch_devErrTail (s : State) (lid : Nat) (f : Launch → Launch) : (s.modLaunch lid f).devErrTail = s.devErrTail := rfl
@[simp] theorem modLaunch_devErrLost (s : State) (lid : Nat) (f : Launch → Launch) : (s.modLaunch lid f).devErrLost = s.devErrLost := rfl
@[simp] theorem modLaunch_devErrs (s : State) (lid : Nat) (f : Launch → Launch) : (s.modLaunch lid f).devErrs = s.devErrs := rfl
@[simp] theorem modLaunch_staged (s : State) (lid : Nat) (f : Launch → Launch) : (s.modLaunch lid f).staged = s.staged := rfl
@[simp] theorem modLaunch_recover (s : State) (lid : Nat) (f : Launch → Launch) : (s.modLaunch lid f).recover = s.recover := rfl
@[simp] theorem modLaunch_ats (s : State) (lid : Nat) (f : Launch → Launch) : (s.modLaunch lid f).ats = s.ats := rfl
@[simp] theorem modLaunch_eccCounts (s : State) (lid : Nat) (f : Launch → Launch) : (s.modLaunch lid f).eccCounts = s.eccCounts := rfl
@[simp] theorem modLaunch_cycle (s : State) (lid : Nat) (f : Launch → Launch) : (s.modLaunch lid f).cycle = s.cycle := rfl
@[simp] theorem modLaunch_wall (s : State) (lid : Nat) (f : Launch → Launch) : (s.modLaunch lid f).wall = s.wall := rfl
@[simp] theorem modLaunch_queues (s : State) (lid : Nat) (f : Launch → Launch) : (s.modLaunch lid f).queues = s.queues := rfl
@[simp] theorem modLaunch_doorbells (s : State) (lid : Nat) (f : Launch → Launch) : (s.modLaunch lid f).doorbells = s.doorbells := rfl
@[simp] theorem modLaunch_parts (s : State) (lid : Nat) (f : Launch → Launch) : (s.modLaunch lid f).parts = s.parts := rfl
@[simp] theorem modLaunch_turn (s : State) (lid : Nat) (f : Launch → Launch) : (s.modLaunch lid f).turn = s.turn := rfl
@[simp] theorem modLaunch_contexts (s : State) (lid : Nat) (f : Launch → Launch) : (s.modLaunch lid f).contexts = s.contexts := rfl
@[simp] theorem modLaunch_teams (s : State) (lid : Nat) (f : Launch → Launch) : (s.modLaunch lid f).teams = s.teams := rfl
@[simp] theorem modLaunch_gangs (s : State) (lid : Nat) (f : Launch → Launch) : (s.modLaunch lid f).gangs = s.gangs := rfl
@[simp] theorem modLaunch_cores (s : State) (lid : Nat) (f : Launch → Launch) : (s.modLaunch lid f).cores = s.cores := rfl
@[simp] theorem modLaunch_diesT (s : State) (lid : Nat) (f : Launch → Launch) : (s.modLaunch lid f).diesT = s.diesT := rfl
@[simp] theorem modLaunch_slices (s : State) (lid : Nat) (f : Launch → Launch) : (s.modLaunch lid f).slices = s.slices := rfl
@[simp] theorem modLaunch_homes (s : State) (lid : Nat) (f : Launch → Launch) : (s.modLaunch lid f).homes = s.homes := rfl
@[simp] theorem modLaunch_remote (s : State) (lid : Nat) (f : Launch → Launch) : (s.modLaunch lid f).remote = s.remote := rfl
@[simp] theorem modLaunch_sysOps (s : State) (lid : Nat) (f : Launch → Launch) : (s.modLaunch lid f).sysOps = s.sysOps := rfl
@[simp] theorem modLaunch_broken (s : State) (lid : Nat) (f : Launch → Launch) : (s.modLaunch lid f).broken = s.broken := rfl
@[simp] theorem modLaunch_orphans (s : State) (lid : Nat) (f : Launch → Launch) : (s.modLaunch lid f).orphans = s.orphans := rfl
@[simp] theorem modLaunch_failed (s : State) (lid : Nat) (f : Launch → Launch) : (s.modLaunch lid f).failed = s.failed := rfl
@[simp] theorem modLaunch_peerReplies (s : State) (lid : Nat) (f : Launch → Launch) : (s.modLaunch lid f).peerReplies = s.peerReplies := rfl
@[simp] theorem modLaunch_stalled (s : State) (lid : Nat) (f : Launch → Launch) : (s.modLaunch lid f).stalled = s.stalled := rfl
@[simp] theorem modLaunch_mem (s : State) (lid : Nat) (f : Launch → Launch) : (s.modLaunch lid f).mem = s.mem := rfl
@[simp] theorem modLaunch_agenda (s : State) (lid : Nat) (f : Launch → Launch) : (s.modLaunch lid f).agenda = s.agenda := rfl
@[simp] theorem modLaunch_focus (s : State) (lid : Nat) (f : Launch → Launch) : (s.modLaunch lid f).focus = s.focus := rfl
@[simp] theorem modLaunch_sel (s : State) (lid : Nat) (f : Launch → Launch) : (s.modLaunch lid f).sel = s.sel := rfl
@[simp] theorem modLaunch_stepNo (s : State) (lid : Nat) (f : Launch → Launch) : (s.modLaunch lid f).stepNo = s.stepNo := rfl
@[simp] theorem modLaunch_nextTid (s : State) (lid : Nat) (f : Launch → Launch) : (s.modLaunch lid f).nextTid = s.nextTid := rfl
@[simp] theorem modLaunch_nextLid (s : State) (lid : Nat) (f : Launch → Launch) : (s.modLaunch lid f).nextLid = s.nextLid := rfl
@[simp] theorem modLaunch_nextOp (s : State) (lid : Nat) (f : Launch → Launch) : (s.modLaunch lid f).nextOp = s.nextOp := rfl

/-! ## modCore -/

@[simp] theorem modCore_stage (s : State) (d c : Nat) (f : Core → Core) : (s.modCore d c f).stage = s.stage := rfl
@[simp] theorem modCore_cfgReady (s : State) (d c : Nat) (f : Core → Core) : (s.modCore d c f).cfgReady = s.cfgReady := rfl
@[simp] theorem modCore_cause (s : State) (d c : Nat) (f : Core → Core) : (s.modCore d c f).cause = s.cause := rfl
@[simp] theorem modCore_clockMHz (s : State) (d c : Nat) (f : Core → Core) : (s.modCore d c f).clockMHz = s.clockMHz := rfl
@[simp] theorem modCore_clockAt (s : State) (d c : Nat) (f : Core → Core) : (s.modCore d c f).clockAt = s.clockAt := rfl
@[simp] theorem modCore_plimit (s : State) (d c : Nat) (f : Core → Core) : (s.modCore d c f).plimit = s.plimit := rfl
@[simp] theorem modCore_aopen (s : State) (d c : Nat) (f : Core → Core) : (s.modCore d c f).aopen = s.aopen := rfl
@[simp] theorem modCore_invbase (s : State) (d c : Nat) (f : Core → Core) : (s.modCore d c f).invbase = s.invbase := rfl
@[simp] theorem modCore_invlen (s : State) (d c : Nat) (f : Core → Core) : (s.modCore d c f).invlen = s.invlen := rfl
@[simp] theorem modCore_invctx (s : State) (d c : Nat) (f : Core → Core) : (s.modCore d c f).invctx = s.invctx := rfl
@[simp] theorem modCore_invgo (s : State) (d c : Nat) (f : Core → Core) : (s.modCore d c f).invgo = s.invgo := rfl
@[simp] theorem modCore_invJob (s : State) (d c : Nat) (f : Core → Core) : (s.modCore d c f).invJob = s.invJob := rfl
@[simp] theorem modCore_inverr (s : State) (d c : Nat) (f : Core → Core) : (s.modCore d c f).inverr = s.inverr := rfl
@[simp] theorem modCore_invdone (s : State) (d c : Nat) (f : Core → Core) : (s.modCore d c f).invdone = s.invdone := rfl
@[simp] theorem modCore_fusedMin (s : State) (d c : Nat) (f : Core → Core) : (s.modCore d c f).fusedMin = s.fusedMin := rfl
@[simp] theorem modCore_cxlBytes (s : State) (d c : Nat) (f : Core → Core) : (s.modCore d c f).cxlBytes = s.cxlBytes := rfl
@[simp] theorem modCore_cxlPorts (s : State) (d c : Nat) (f : Core → Core) : (s.modCore d c f).cxlPorts = s.cxlPorts := rfl
@[simp] theorem modCore_peers (s : State) (d c : Nat) (f : Core → Core) : (s.modCore d c f).peers = s.peers := rfl
@[simp] theorem modCore_devErrHead (s : State) (d c : Nat) (f : Core → Core) : (s.modCore d c f).devErrHead = s.devErrHead := rfl
@[simp] theorem modCore_devErrTail (s : State) (d c : Nat) (f : Core → Core) : (s.modCore d c f).devErrTail = s.devErrTail := rfl
@[simp] theorem modCore_devErrLost (s : State) (d c : Nat) (f : Core → Core) : (s.modCore d c f).devErrLost = s.devErrLost := rfl
@[simp] theorem modCore_devErrs (s : State) (d c : Nat) (f : Core → Core) : (s.modCore d c f).devErrs = s.devErrs := rfl
@[simp] theorem modCore_staged (s : State) (d c : Nat) (f : Core → Core) : (s.modCore d c f).staged = s.staged := rfl
@[simp] theorem modCore_recover (s : State) (d c : Nat) (f : Core → Core) : (s.modCore d c f).recover = s.recover := rfl
@[simp] theorem modCore_ats (s : State) (d c : Nat) (f : Core → Core) : (s.modCore d c f).ats = s.ats := rfl
@[simp] theorem modCore_eccCounts (s : State) (d c : Nat) (f : Core → Core) : (s.modCore d c f).eccCounts = s.eccCounts := rfl
@[simp] theorem modCore_cycle (s : State) (d c : Nat) (f : Core → Core) : (s.modCore d c f).cycle = s.cycle := rfl
@[simp] theorem modCore_wall (s : State) (d c : Nat) (f : Core → Core) : (s.modCore d c f).wall = s.wall := rfl
@[simp] theorem modCore_queues (s : State) (d c : Nat) (f : Core → Core) : (s.modCore d c f).queues = s.queues := rfl
@[simp] theorem modCore_doorbells (s : State) (d c : Nat) (f : Core → Core) : (s.modCore d c f).doorbells = s.doorbells := rfl
@[simp] theorem modCore_parts (s : State) (d c : Nat) (f : Core → Core) : (s.modCore d c f).parts = s.parts := rfl
@[simp] theorem modCore_turn (s : State) (d c : Nat) (f : Core → Core) : (s.modCore d c f).turn = s.turn := rfl
@[simp] theorem modCore_contexts (s : State) (d c : Nat) (f : Core → Core) : (s.modCore d c f).contexts = s.contexts := rfl
@[simp] theorem modCore_launches (s : State) (d c : Nat) (f : Core → Core) : (s.modCore d c f).launches = s.launches := rfl
@[simp] theorem modCore_teams (s : State) (d c : Nat) (f : Core → Core) : (s.modCore d c f).teams = s.teams := rfl
@[simp] theorem modCore_gangs (s : State) (d c : Nat) (f : Core → Core) : (s.modCore d c f).gangs = s.gangs := rfl
@[simp] theorem modCore_diesT (s : State) (d c : Nat) (f : Core → Core) : (s.modCore d c f).diesT = s.diesT := rfl
@[simp] theorem modCore_slices (s : State) (d c : Nat) (f : Core → Core) : (s.modCore d c f).slices = s.slices := rfl
@[simp] theorem modCore_homes (s : State) (d c : Nat) (f : Core → Core) : (s.modCore d c f).homes = s.homes := rfl
@[simp] theorem modCore_remote (s : State) (d c : Nat) (f : Core → Core) : (s.modCore d c f).remote = s.remote := rfl
@[simp] theorem modCore_sysOps (s : State) (d c : Nat) (f : Core → Core) : (s.modCore d c f).sysOps = s.sysOps := rfl
@[simp] theorem modCore_broken (s : State) (d c : Nat) (f : Core → Core) : (s.modCore d c f).broken = s.broken := rfl
@[simp] theorem modCore_orphans (s : State) (d c : Nat) (f : Core → Core) : (s.modCore d c f).orphans = s.orphans := rfl
@[simp] theorem modCore_failed (s : State) (d c : Nat) (f : Core → Core) : (s.modCore d c f).failed = s.failed := rfl
@[simp] theorem modCore_peerReplies (s : State) (d c : Nat) (f : Core → Core) : (s.modCore d c f).peerReplies = s.peerReplies := rfl
@[simp] theorem modCore_stalled (s : State) (d c : Nat) (f : Core → Core) : (s.modCore d c f).stalled = s.stalled := rfl
@[simp] theorem modCore_mem (s : State) (d c : Nat) (f : Core → Core) : (s.modCore d c f).mem = s.mem := rfl
@[simp] theorem modCore_agenda (s : State) (d c : Nat) (f : Core → Core) : (s.modCore d c f).agenda = s.agenda := rfl
@[simp] theorem modCore_focus (s : State) (d c : Nat) (f : Core → Core) : (s.modCore d c f).focus = s.focus := rfl
@[simp] theorem modCore_sel (s : State) (d c : Nat) (f : Core → Core) : (s.modCore d c f).sel = s.sel := rfl
@[simp] theorem modCore_stepNo (s : State) (d c : Nat) (f : Core → Core) : (s.modCore d c f).stepNo = s.stepNo := rfl
@[simp] theorem modCore_nextTid (s : State) (d c : Nat) (f : Core → Core) : (s.modCore d c f).nextTid = s.nextTid := rfl
@[simp] theorem modCore_nextLid (s : State) (d c : Nat) (f : Core → Core) : (s.modCore d c f).nextLid = s.nextLid := rfl
@[simp] theorem modCore_nextOp (s : State) (d c : Nat) (f : Core → Core) : (s.modCore d c f).nextOp = s.nextOp := rfl

/-! ## modDie -/

@[simp] theorem modDie_stage (s : State) (d : Nat) (f : Die → Die) : (s.modDie d f).stage = s.stage := rfl
@[simp] theorem modDie_cfgReady (s : State) (d : Nat) (f : Die → Die) : (s.modDie d f).cfgReady = s.cfgReady := rfl
@[simp] theorem modDie_cause (s : State) (d : Nat) (f : Die → Die) : (s.modDie d f).cause = s.cause := rfl
@[simp] theorem modDie_clockMHz (s : State) (d : Nat) (f : Die → Die) : (s.modDie d f).clockMHz = s.clockMHz := rfl
@[simp] theorem modDie_clockAt (s : State) (d : Nat) (f : Die → Die) : (s.modDie d f).clockAt = s.clockAt := rfl
@[simp] theorem modDie_plimit (s : State) (d : Nat) (f : Die → Die) : (s.modDie d f).plimit = s.plimit := rfl
@[simp] theorem modDie_aopen (s : State) (d : Nat) (f : Die → Die) : (s.modDie d f).aopen = s.aopen := rfl
@[simp] theorem modDie_invbase (s : State) (d : Nat) (f : Die → Die) : (s.modDie d f).invbase = s.invbase := rfl
@[simp] theorem modDie_invlen (s : State) (d : Nat) (f : Die → Die) : (s.modDie d f).invlen = s.invlen := rfl
@[simp] theorem modDie_invctx (s : State) (d : Nat) (f : Die → Die) : (s.modDie d f).invctx = s.invctx := rfl
@[simp] theorem modDie_invgo (s : State) (d : Nat) (f : Die → Die) : (s.modDie d f).invgo = s.invgo := rfl
@[simp] theorem modDie_invJob (s : State) (d : Nat) (f : Die → Die) : (s.modDie d f).invJob = s.invJob := rfl
@[simp] theorem modDie_inverr (s : State) (d : Nat) (f : Die → Die) : (s.modDie d f).inverr = s.inverr := rfl
@[simp] theorem modDie_invdone (s : State) (d : Nat) (f : Die → Die) : (s.modDie d f).invdone = s.invdone := rfl
@[simp] theorem modDie_fusedMin (s : State) (d : Nat) (f : Die → Die) : (s.modDie d f).fusedMin = s.fusedMin := rfl
@[simp] theorem modDie_cxlBytes (s : State) (d : Nat) (f : Die → Die) : (s.modDie d f).cxlBytes = s.cxlBytes := rfl
@[simp] theorem modDie_cxlPorts (s : State) (d : Nat) (f : Die → Die) : (s.modDie d f).cxlPorts = s.cxlPorts := rfl
@[simp] theorem modDie_peers (s : State) (d : Nat) (f : Die → Die) : (s.modDie d f).peers = s.peers := rfl
@[simp] theorem modDie_devErrHead (s : State) (d : Nat) (f : Die → Die) : (s.modDie d f).devErrHead = s.devErrHead := rfl
@[simp] theorem modDie_devErrTail (s : State) (d : Nat) (f : Die → Die) : (s.modDie d f).devErrTail = s.devErrTail := rfl
@[simp] theorem modDie_devErrLost (s : State) (d : Nat) (f : Die → Die) : (s.modDie d f).devErrLost = s.devErrLost := rfl
@[simp] theorem modDie_devErrs (s : State) (d : Nat) (f : Die → Die) : (s.modDie d f).devErrs = s.devErrs := rfl
@[simp] theorem modDie_staged (s : State) (d : Nat) (f : Die → Die) : (s.modDie d f).staged = s.staged := rfl
@[simp] theorem modDie_recover (s : State) (d : Nat) (f : Die → Die) : (s.modDie d f).recover = s.recover := rfl
@[simp] theorem modDie_ats (s : State) (d : Nat) (f : Die → Die) : (s.modDie d f).ats = s.ats := rfl
@[simp] theorem modDie_eccCounts (s : State) (d : Nat) (f : Die → Die) : (s.modDie d f).eccCounts = s.eccCounts := rfl
@[simp] theorem modDie_cycle (s : State) (d : Nat) (f : Die → Die) : (s.modDie d f).cycle = s.cycle := rfl
@[simp] theorem modDie_wall (s : State) (d : Nat) (f : Die → Die) : (s.modDie d f).wall = s.wall := rfl
@[simp] theorem modDie_queues (s : State) (d : Nat) (f : Die → Die) : (s.modDie d f).queues = s.queues := rfl
@[simp] theorem modDie_doorbells (s : State) (d : Nat) (f : Die → Die) : (s.modDie d f).doorbells = s.doorbells := rfl
@[simp] theorem modDie_parts (s : State) (d : Nat) (f : Die → Die) : (s.modDie d f).parts = s.parts := rfl
@[simp] theorem modDie_turn (s : State) (d : Nat) (f : Die → Die) : (s.modDie d f).turn = s.turn := rfl
@[simp] theorem modDie_contexts (s : State) (d : Nat) (f : Die → Die) : (s.modDie d f).contexts = s.contexts := rfl
@[simp] theorem modDie_launches (s : State) (d : Nat) (f : Die → Die) : (s.modDie d f).launches = s.launches := rfl
@[simp] theorem modDie_teams (s : State) (d : Nat) (f : Die → Die) : (s.modDie d f).teams = s.teams := rfl
@[simp] theorem modDie_gangs (s : State) (d : Nat) (f : Die → Die) : (s.modDie d f).gangs = s.gangs := rfl
@[simp] theorem modDie_cores (s : State) (d : Nat) (f : Die → Die) : (s.modDie d f).cores = s.cores := rfl
@[simp] theorem modDie_slices (s : State) (d : Nat) (f : Die → Die) : (s.modDie d f).slices = s.slices := rfl
@[simp] theorem modDie_homes (s : State) (d : Nat) (f : Die → Die) : (s.modDie d f).homes = s.homes := rfl
@[simp] theorem modDie_remote (s : State) (d : Nat) (f : Die → Die) : (s.modDie d f).remote = s.remote := rfl
@[simp] theorem modDie_sysOps (s : State) (d : Nat) (f : Die → Die) : (s.modDie d f).sysOps = s.sysOps := rfl
@[simp] theorem modDie_broken (s : State) (d : Nat) (f : Die → Die) : (s.modDie d f).broken = s.broken := rfl
@[simp] theorem modDie_orphans (s : State) (d : Nat) (f : Die → Die) : (s.modDie d f).orphans = s.orphans := rfl
@[simp] theorem modDie_failed (s : State) (d : Nat) (f : Die → Die) : (s.modDie d f).failed = s.failed := rfl
@[simp] theorem modDie_peerReplies (s : State) (d : Nat) (f : Die → Die) : (s.modDie d f).peerReplies = s.peerReplies := rfl
@[simp] theorem modDie_stalled (s : State) (d : Nat) (f : Die → Die) : (s.modDie d f).stalled = s.stalled := rfl
@[simp] theorem modDie_mem (s : State) (d : Nat) (f : Die → Die) : (s.modDie d f).mem = s.mem := rfl
@[simp] theorem modDie_agenda (s : State) (d : Nat) (f : Die → Die) : (s.modDie d f).agenda = s.agenda := rfl
@[simp] theorem modDie_focus (s : State) (d : Nat) (f : Die → Die) : (s.modDie d f).focus = s.focus := rfl
@[simp] theorem modDie_sel (s : State) (d : Nat) (f : Die → Die) : (s.modDie d f).sel = s.sel := rfl
@[simp] theorem modDie_stepNo (s : State) (d : Nat) (f : Die → Die) : (s.modDie d f).stepNo = s.stepNo := rfl
@[simp] theorem modDie_nextTid (s : State) (d : Nat) (f : Die → Die) : (s.modDie d f).nextTid = s.nextTid := rfl
@[simp] theorem modDie_nextLid (s : State) (d : Nat) (f : Die → Die) : (s.modDie d f).nextLid = s.nextLid := rfl
@[simp] theorem modDie_nextOp (s : State) (d : Nat) (f : Die → Die) : (s.modDie d f).nextOp = s.nextOp := rfl

/-! ## modSlice -/

@[simp] theorem modSlice_stage (s : State) (d i : Nat) (f : Slice → Slice) : (s.modSlice d i f).stage = s.stage := rfl
@[simp] theorem modSlice_cfgReady (s : State) (d i : Nat) (f : Slice → Slice) : (s.modSlice d i f).cfgReady = s.cfgReady := rfl
@[simp] theorem modSlice_cause (s : State) (d i : Nat) (f : Slice → Slice) : (s.modSlice d i f).cause = s.cause := rfl
@[simp] theorem modSlice_clockMHz (s : State) (d i : Nat) (f : Slice → Slice) : (s.modSlice d i f).clockMHz = s.clockMHz := rfl
@[simp] theorem modSlice_clockAt (s : State) (d i : Nat) (f : Slice → Slice) : (s.modSlice d i f).clockAt = s.clockAt := rfl
@[simp] theorem modSlice_plimit (s : State) (d i : Nat) (f : Slice → Slice) : (s.modSlice d i f).plimit = s.plimit := rfl
@[simp] theorem modSlice_aopen (s : State) (d i : Nat) (f : Slice → Slice) : (s.modSlice d i f).aopen = s.aopen := rfl
@[simp] theorem modSlice_invbase (s : State) (d i : Nat) (f : Slice → Slice) : (s.modSlice d i f).invbase = s.invbase := rfl
@[simp] theorem modSlice_invlen (s : State) (d i : Nat) (f : Slice → Slice) : (s.modSlice d i f).invlen = s.invlen := rfl
@[simp] theorem modSlice_invctx (s : State) (d i : Nat) (f : Slice → Slice) : (s.modSlice d i f).invctx = s.invctx := rfl
@[simp] theorem modSlice_invgo (s : State) (d i : Nat) (f : Slice → Slice) : (s.modSlice d i f).invgo = s.invgo := rfl
@[simp] theorem modSlice_invJob (s : State) (d i : Nat) (f : Slice → Slice) : (s.modSlice d i f).invJob = s.invJob := rfl
@[simp] theorem modSlice_inverr (s : State) (d i : Nat) (f : Slice → Slice) : (s.modSlice d i f).inverr = s.inverr := rfl
@[simp] theorem modSlice_invdone (s : State) (d i : Nat) (f : Slice → Slice) : (s.modSlice d i f).invdone = s.invdone := rfl
@[simp] theorem modSlice_fusedMin (s : State) (d i : Nat) (f : Slice → Slice) : (s.modSlice d i f).fusedMin = s.fusedMin := rfl
@[simp] theorem modSlice_cxlBytes (s : State) (d i : Nat) (f : Slice → Slice) : (s.modSlice d i f).cxlBytes = s.cxlBytes := rfl
@[simp] theorem modSlice_cxlPorts (s : State) (d i : Nat) (f : Slice → Slice) : (s.modSlice d i f).cxlPorts = s.cxlPorts := rfl
@[simp] theorem modSlice_peers (s : State) (d i : Nat) (f : Slice → Slice) : (s.modSlice d i f).peers = s.peers := rfl
@[simp] theorem modSlice_devErrHead (s : State) (d i : Nat) (f : Slice → Slice) : (s.modSlice d i f).devErrHead = s.devErrHead := rfl
@[simp] theorem modSlice_devErrTail (s : State) (d i : Nat) (f : Slice → Slice) : (s.modSlice d i f).devErrTail = s.devErrTail := rfl
@[simp] theorem modSlice_devErrLost (s : State) (d i : Nat) (f : Slice → Slice) : (s.modSlice d i f).devErrLost = s.devErrLost := rfl
@[simp] theorem modSlice_devErrs (s : State) (d i : Nat) (f : Slice → Slice) : (s.modSlice d i f).devErrs = s.devErrs := rfl
@[simp] theorem modSlice_staged (s : State) (d i : Nat) (f : Slice → Slice) : (s.modSlice d i f).staged = s.staged := rfl
@[simp] theorem modSlice_recover (s : State) (d i : Nat) (f : Slice → Slice) : (s.modSlice d i f).recover = s.recover := rfl
@[simp] theorem modSlice_ats (s : State) (d i : Nat) (f : Slice → Slice) : (s.modSlice d i f).ats = s.ats := rfl
@[simp] theorem modSlice_eccCounts (s : State) (d i : Nat) (f : Slice → Slice) : (s.modSlice d i f).eccCounts = s.eccCounts := rfl
@[simp] theorem modSlice_cycle (s : State) (d i : Nat) (f : Slice → Slice) : (s.modSlice d i f).cycle = s.cycle := rfl
@[simp] theorem modSlice_wall (s : State) (d i : Nat) (f : Slice → Slice) : (s.modSlice d i f).wall = s.wall := rfl
@[simp] theorem modSlice_queues (s : State) (d i : Nat) (f : Slice → Slice) : (s.modSlice d i f).queues = s.queues := rfl
@[simp] theorem modSlice_doorbells (s : State) (d i : Nat) (f : Slice → Slice) : (s.modSlice d i f).doorbells = s.doorbells := rfl
@[simp] theorem modSlice_parts (s : State) (d i : Nat) (f : Slice → Slice) : (s.modSlice d i f).parts = s.parts := rfl
@[simp] theorem modSlice_turn (s : State) (d i : Nat) (f : Slice → Slice) : (s.modSlice d i f).turn = s.turn := rfl
@[simp] theorem modSlice_contexts (s : State) (d i : Nat) (f : Slice → Slice) : (s.modSlice d i f).contexts = s.contexts := rfl
@[simp] theorem modSlice_launches (s : State) (d i : Nat) (f : Slice → Slice) : (s.modSlice d i f).launches = s.launches := rfl
@[simp] theorem modSlice_teams (s : State) (d i : Nat) (f : Slice → Slice) : (s.modSlice d i f).teams = s.teams := rfl
@[simp] theorem modSlice_gangs (s : State) (d i : Nat) (f : Slice → Slice) : (s.modSlice d i f).gangs = s.gangs := rfl
@[simp] theorem modSlice_cores (s : State) (d i : Nat) (f : Slice → Slice) : (s.modSlice d i f).cores = s.cores := rfl
@[simp] theorem modSlice_diesT (s : State) (d i : Nat) (f : Slice → Slice) : (s.modSlice d i f).diesT = s.diesT := rfl
@[simp] theorem modSlice_homes (s : State) (d i : Nat) (f : Slice → Slice) : (s.modSlice d i f).homes = s.homes := rfl
@[simp] theorem modSlice_remote (s : State) (d i : Nat) (f : Slice → Slice) : (s.modSlice d i f).remote = s.remote := rfl
@[simp] theorem modSlice_sysOps (s : State) (d i : Nat) (f : Slice → Slice) : (s.modSlice d i f).sysOps = s.sysOps := rfl
@[simp] theorem modSlice_broken (s : State) (d i : Nat) (f : Slice → Slice) : (s.modSlice d i f).broken = s.broken := rfl
@[simp] theorem modSlice_orphans (s : State) (d i : Nat) (f : Slice → Slice) : (s.modSlice d i f).orphans = s.orphans := rfl
@[simp] theorem modSlice_failed (s : State) (d i : Nat) (f : Slice → Slice) : (s.modSlice d i f).failed = s.failed := rfl
@[simp] theorem modSlice_peerReplies (s : State) (d i : Nat) (f : Slice → Slice) : (s.modSlice d i f).peerReplies = s.peerReplies := rfl
@[simp] theorem modSlice_stalled (s : State) (d i : Nat) (f : Slice → Slice) : (s.modSlice d i f).stalled = s.stalled := rfl
@[simp] theorem modSlice_mem (s : State) (d i : Nat) (f : Slice → Slice) : (s.modSlice d i f).mem = s.mem := rfl
@[simp] theorem modSlice_agenda (s : State) (d i : Nat) (f : Slice → Slice) : (s.modSlice d i f).agenda = s.agenda := rfl
@[simp] theorem modSlice_focus (s : State) (d i : Nat) (f : Slice → Slice) : (s.modSlice d i f).focus = s.focus := rfl
@[simp] theorem modSlice_sel (s : State) (d i : Nat) (f : Slice → Slice) : (s.modSlice d i f).sel = s.sel := rfl
@[simp] theorem modSlice_stepNo (s : State) (d i : Nat) (f : Slice → Slice) : (s.modSlice d i f).stepNo = s.stepNo := rfl
@[simp] theorem modSlice_nextTid (s : State) (d i : Nat) (f : Slice → Slice) : (s.modSlice d i f).nextTid = s.nextTid := rfl
@[simp] theorem modSlice_nextLid (s : State) (d i : Nat) (f : Slice → Slice) : (s.modSlice d i f).nextLid = s.nextLid := rfl
@[simp] theorem modSlice_nextOp (s : State) (d i : Nat) (f : Slice → Slice) : (s.modSlice d i f).nextOp = s.nextOp := rfl

/-! ## modCtx -/

@[simp] theorem modCtx_stage (s : State) (c : Nat) (f : Context → Context) : (s.modCtx c f).stage = s.stage := rfl
@[simp] theorem modCtx_cfgReady (s : State) (c : Nat) (f : Context → Context) : (s.modCtx c f).cfgReady = s.cfgReady := rfl
@[simp] theorem modCtx_cause (s : State) (c : Nat) (f : Context → Context) : (s.modCtx c f).cause = s.cause := rfl
@[simp] theorem modCtx_clockMHz (s : State) (c : Nat) (f : Context → Context) : (s.modCtx c f).clockMHz = s.clockMHz := rfl
@[simp] theorem modCtx_clockAt (s : State) (c : Nat) (f : Context → Context) : (s.modCtx c f).clockAt = s.clockAt := rfl
@[simp] theorem modCtx_plimit (s : State) (c : Nat) (f : Context → Context) : (s.modCtx c f).plimit = s.plimit := rfl
@[simp] theorem modCtx_aopen (s : State) (c : Nat) (f : Context → Context) : (s.modCtx c f).aopen = s.aopen := rfl
@[simp] theorem modCtx_invbase (s : State) (c : Nat) (f : Context → Context) : (s.modCtx c f).invbase = s.invbase := rfl
@[simp] theorem modCtx_invlen (s : State) (c : Nat) (f : Context → Context) : (s.modCtx c f).invlen = s.invlen := rfl
@[simp] theorem modCtx_invctx (s : State) (c : Nat) (f : Context → Context) : (s.modCtx c f).invctx = s.invctx := rfl
@[simp] theorem modCtx_invgo (s : State) (c : Nat) (f : Context → Context) : (s.modCtx c f).invgo = s.invgo := rfl
@[simp] theorem modCtx_invJob (s : State) (c : Nat) (f : Context → Context) : (s.modCtx c f).invJob = s.invJob := rfl
@[simp] theorem modCtx_inverr (s : State) (c : Nat) (f : Context → Context) : (s.modCtx c f).inverr = s.inverr := rfl
@[simp] theorem modCtx_invdone (s : State) (c : Nat) (f : Context → Context) : (s.modCtx c f).invdone = s.invdone := rfl
@[simp] theorem modCtx_fusedMin (s : State) (c : Nat) (f : Context → Context) : (s.modCtx c f).fusedMin = s.fusedMin := rfl
@[simp] theorem modCtx_cxlBytes (s : State) (c : Nat) (f : Context → Context) : (s.modCtx c f).cxlBytes = s.cxlBytes := rfl
@[simp] theorem modCtx_cxlPorts (s : State) (c : Nat) (f : Context → Context) : (s.modCtx c f).cxlPorts = s.cxlPorts := rfl
@[simp] theorem modCtx_peers (s : State) (c : Nat) (f : Context → Context) : (s.modCtx c f).peers = s.peers := rfl
@[simp] theorem modCtx_devErrHead (s : State) (c : Nat) (f : Context → Context) : (s.modCtx c f).devErrHead = s.devErrHead := rfl
@[simp] theorem modCtx_devErrTail (s : State) (c : Nat) (f : Context → Context) : (s.modCtx c f).devErrTail = s.devErrTail := rfl
@[simp] theorem modCtx_devErrLost (s : State) (c : Nat) (f : Context → Context) : (s.modCtx c f).devErrLost = s.devErrLost := rfl
@[simp] theorem modCtx_devErrs (s : State) (c : Nat) (f : Context → Context) : (s.modCtx c f).devErrs = s.devErrs := rfl
@[simp] theorem modCtx_staged (s : State) (c : Nat) (f : Context → Context) : (s.modCtx c f).staged = s.staged := rfl
@[simp] theorem modCtx_recover (s : State) (c : Nat) (f : Context → Context) : (s.modCtx c f).recover = s.recover := rfl
@[simp] theorem modCtx_ats (s : State) (c : Nat) (f : Context → Context) : (s.modCtx c f).ats = s.ats := rfl
@[simp] theorem modCtx_eccCounts (s : State) (c : Nat) (f : Context → Context) : (s.modCtx c f).eccCounts = s.eccCounts := rfl
@[simp] theorem modCtx_cycle (s : State) (c : Nat) (f : Context → Context) : (s.modCtx c f).cycle = s.cycle := rfl
@[simp] theorem modCtx_wall (s : State) (c : Nat) (f : Context → Context) : (s.modCtx c f).wall = s.wall := rfl
@[simp] theorem modCtx_queues (s : State) (c : Nat) (f : Context → Context) : (s.modCtx c f).queues = s.queues := rfl
@[simp] theorem modCtx_doorbells (s : State) (c : Nat) (f : Context → Context) : (s.modCtx c f).doorbells = s.doorbells := rfl
@[simp] theorem modCtx_parts (s : State) (c : Nat) (f : Context → Context) : (s.modCtx c f).parts = s.parts := rfl
@[simp] theorem modCtx_turn (s : State) (c : Nat) (f : Context → Context) : (s.modCtx c f).turn = s.turn := rfl
@[simp] theorem modCtx_launches (s : State) (c : Nat) (f : Context → Context) : (s.modCtx c f).launches = s.launches := rfl
@[simp] theorem modCtx_teams (s : State) (c : Nat) (f : Context → Context) : (s.modCtx c f).teams = s.teams := rfl
@[simp] theorem modCtx_gangs (s : State) (c : Nat) (f : Context → Context) : (s.modCtx c f).gangs = s.gangs := rfl
@[simp] theorem modCtx_cores (s : State) (c : Nat) (f : Context → Context) : (s.modCtx c f).cores = s.cores := rfl
@[simp] theorem modCtx_diesT (s : State) (c : Nat) (f : Context → Context) : (s.modCtx c f).diesT = s.diesT := rfl
@[simp] theorem modCtx_slices (s : State) (c : Nat) (f : Context → Context) : (s.modCtx c f).slices = s.slices := rfl
@[simp] theorem modCtx_homes (s : State) (c : Nat) (f : Context → Context) : (s.modCtx c f).homes = s.homes := rfl
@[simp] theorem modCtx_remote (s : State) (c : Nat) (f : Context → Context) : (s.modCtx c f).remote = s.remote := rfl
@[simp] theorem modCtx_sysOps (s : State) (c : Nat) (f : Context → Context) : (s.modCtx c f).sysOps = s.sysOps := rfl
@[simp] theorem modCtx_broken (s : State) (c : Nat) (f : Context → Context) : (s.modCtx c f).broken = s.broken := rfl
@[simp] theorem modCtx_orphans (s : State) (c : Nat) (f : Context → Context) : (s.modCtx c f).orphans = s.orphans := rfl
@[simp] theorem modCtx_failed (s : State) (c : Nat) (f : Context → Context) : (s.modCtx c f).failed = s.failed := rfl
@[simp] theorem modCtx_peerReplies (s : State) (c : Nat) (f : Context → Context) : (s.modCtx c f).peerReplies = s.peerReplies := rfl
@[simp] theorem modCtx_stalled (s : State) (c : Nat) (f : Context → Context) : (s.modCtx c f).stalled = s.stalled := rfl
@[simp] theorem modCtx_mem (s : State) (c : Nat) (f : Context → Context) : (s.modCtx c f).mem = s.mem := rfl
@[simp] theorem modCtx_agenda (s : State) (c : Nat) (f : Context → Context) : (s.modCtx c f).agenda = s.agenda := rfl
@[simp] theorem modCtx_focus (s : State) (c : Nat) (f : Context → Context) : (s.modCtx c f).focus = s.focus := rfl
@[simp] theorem modCtx_sel (s : State) (c : Nat) (f : Context → Context) : (s.modCtx c f).sel = s.sel := rfl
@[simp] theorem modCtx_stepNo (s : State) (c : Nat) (f : Context → Context) : (s.modCtx c f).stepNo = s.stepNo := rfl
@[simp] theorem modCtx_nextTid (s : State) (c : Nat) (f : Context → Context) : (s.modCtx c f).nextTid = s.nextTid := rfl
@[simp] theorem modCtx_nextLid (s : State) (c : Nat) (f : Context → Context) : (s.modCtx c f).nextLid = s.nextLid := rfl
@[simp] theorem modCtx_nextOp (s : State) (c : Nat) (f : Context → Context) : (s.modCtx c f).nextOp = s.nextOp := rfl

/-! ## modSec -/

@[simp] theorem modSec_stage (s : State) (tid role : Nat) (f : Section → Section) : (s.modSec tid role f).stage = s.stage := rfl
@[simp] theorem modSec_cfgReady (s : State) (tid role : Nat) (f : Section → Section) : (s.modSec tid role f).cfgReady = s.cfgReady := rfl
@[simp] theorem modSec_cause (s : State) (tid role : Nat) (f : Section → Section) : (s.modSec tid role f).cause = s.cause := rfl
@[simp] theorem modSec_clockMHz (s : State) (tid role : Nat) (f : Section → Section) : (s.modSec tid role f).clockMHz = s.clockMHz := rfl
@[simp] theorem modSec_clockAt (s : State) (tid role : Nat) (f : Section → Section) : (s.modSec tid role f).clockAt = s.clockAt := rfl
@[simp] theorem modSec_plimit (s : State) (tid role : Nat) (f : Section → Section) : (s.modSec tid role f).plimit = s.plimit := rfl
@[simp] theorem modSec_aopen (s : State) (tid role : Nat) (f : Section → Section) : (s.modSec tid role f).aopen = s.aopen := rfl
@[simp] theorem modSec_invbase (s : State) (tid role : Nat) (f : Section → Section) : (s.modSec tid role f).invbase = s.invbase := rfl
@[simp] theorem modSec_invlen (s : State) (tid role : Nat) (f : Section → Section) : (s.modSec tid role f).invlen = s.invlen := rfl
@[simp] theorem modSec_invctx (s : State) (tid role : Nat) (f : Section → Section) : (s.modSec tid role f).invctx = s.invctx := rfl
@[simp] theorem modSec_invgo (s : State) (tid role : Nat) (f : Section → Section) : (s.modSec tid role f).invgo = s.invgo := rfl
@[simp] theorem modSec_invJob (s : State) (tid role : Nat) (f : Section → Section) : (s.modSec tid role f).invJob = s.invJob := rfl
@[simp] theorem modSec_inverr (s : State) (tid role : Nat) (f : Section → Section) : (s.modSec tid role f).inverr = s.inverr := rfl
@[simp] theorem modSec_invdone (s : State) (tid role : Nat) (f : Section → Section) : (s.modSec tid role f).invdone = s.invdone := rfl
@[simp] theorem modSec_fusedMin (s : State) (tid role : Nat) (f : Section → Section) : (s.modSec tid role f).fusedMin = s.fusedMin := rfl
@[simp] theorem modSec_cxlBytes (s : State) (tid role : Nat) (f : Section → Section) : (s.modSec tid role f).cxlBytes = s.cxlBytes := rfl
@[simp] theorem modSec_cxlPorts (s : State) (tid role : Nat) (f : Section → Section) : (s.modSec tid role f).cxlPorts = s.cxlPorts := rfl
@[simp] theorem modSec_peers (s : State) (tid role : Nat) (f : Section → Section) : (s.modSec tid role f).peers = s.peers := rfl
@[simp] theorem modSec_devErrHead (s : State) (tid role : Nat) (f : Section → Section) : (s.modSec tid role f).devErrHead = s.devErrHead := rfl
@[simp] theorem modSec_devErrTail (s : State) (tid role : Nat) (f : Section → Section) : (s.modSec tid role f).devErrTail = s.devErrTail := rfl
@[simp] theorem modSec_devErrLost (s : State) (tid role : Nat) (f : Section → Section) : (s.modSec tid role f).devErrLost = s.devErrLost := rfl
@[simp] theorem modSec_devErrs (s : State) (tid role : Nat) (f : Section → Section) : (s.modSec tid role f).devErrs = s.devErrs := rfl
@[simp] theorem modSec_staged (s : State) (tid role : Nat) (f : Section → Section) : (s.modSec tid role f).staged = s.staged := rfl
@[simp] theorem modSec_recover (s : State) (tid role : Nat) (f : Section → Section) : (s.modSec tid role f).recover = s.recover := rfl
@[simp] theorem modSec_ats (s : State) (tid role : Nat) (f : Section → Section) : (s.modSec tid role f).ats = s.ats := rfl
@[simp] theorem modSec_eccCounts (s : State) (tid role : Nat) (f : Section → Section) : (s.modSec tid role f).eccCounts = s.eccCounts := rfl
@[simp] theorem modSec_cycle (s : State) (tid role : Nat) (f : Section → Section) : (s.modSec tid role f).cycle = s.cycle := rfl
@[simp] theorem modSec_wall (s : State) (tid role : Nat) (f : Section → Section) : (s.modSec tid role f).wall = s.wall := rfl
@[simp] theorem modSec_queues (s : State) (tid role : Nat) (f : Section → Section) : (s.modSec tid role f).queues = s.queues := rfl
@[simp] theorem modSec_doorbells (s : State) (tid role : Nat) (f : Section → Section) : (s.modSec tid role f).doorbells = s.doorbells := rfl
@[simp] theorem modSec_parts (s : State) (tid role : Nat) (f : Section → Section) : (s.modSec tid role f).parts = s.parts := rfl
@[simp] theorem modSec_turn (s : State) (tid role : Nat) (f : Section → Section) : (s.modSec tid role f).turn = s.turn := rfl
@[simp] theorem modSec_contexts (s : State) (tid role : Nat) (f : Section → Section) : (s.modSec tid role f).contexts = s.contexts := rfl
@[simp] theorem modSec_launches (s : State) (tid role : Nat) (f : Section → Section) : (s.modSec tid role f).launches = s.launches := rfl
@[simp] theorem modSec_gangs (s : State) (tid role : Nat) (f : Section → Section) : (s.modSec tid role f).gangs = s.gangs := rfl
@[simp] theorem modSec_cores (s : State) (tid role : Nat) (f : Section → Section) : (s.modSec tid role f).cores = s.cores := rfl
@[simp] theorem modSec_diesT (s : State) (tid role : Nat) (f : Section → Section) : (s.modSec tid role f).diesT = s.diesT := rfl
@[simp] theorem modSec_slices (s : State) (tid role : Nat) (f : Section → Section) : (s.modSec tid role f).slices = s.slices := rfl
@[simp] theorem modSec_homes (s : State) (tid role : Nat) (f : Section → Section) : (s.modSec tid role f).homes = s.homes := rfl
@[simp] theorem modSec_remote (s : State) (tid role : Nat) (f : Section → Section) : (s.modSec tid role f).remote = s.remote := rfl
@[simp] theorem modSec_sysOps (s : State) (tid role : Nat) (f : Section → Section) : (s.modSec tid role f).sysOps = s.sysOps := rfl
@[simp] theorem modSec_broken (s : State) (tid role : Nat) (f : Section → Section) : (s.modSec tid role f).broken = s.broken := rfl
@[simp] theorem modSec_orphans (s : State) (tid role : Nat) (f : Section → Section) : (s.modSec tid role f).orphans = s.orphans := rfl
@[simp] theorem modSec_failed (s : State) (tid role : Nat) (f : Section → Section) : (s.modSec tid role f).failed = s.failed := rfl
@[simp] theorem modSec_peerReplies (s : State) (tid role : Nat) (f : Section → Section) : (s.modSec tid role f).peerReplies = s.peerReplies := rfl
@[simp] theorem modSec_stalled (s : State) (tid role : Nat) (f : Section → Section) : (s.modSec tid role f).stalled = s.stalled := rfl
@[simp] theorem modSec_mem (s : State) (tid role : Nat) (f : Section → Section) : (s.modSec tid role f).mem = s.mem := rfl
@[simp] theorem modSec_agenda (s : State) (tid role : Nat) (f : Section → Section) : (s.modSec tid role f).agenda = s.agenda := rfl
@[simp] theorem modSec_focus (s : State) (tid role : Nat) (f : Section → Section) : (s.modSec tid role f).focus = s.focus := rfl
@[simp] theorem modSec_sel (s : State) (tid role : Nat) (f : Section → Section) : (s.modSec tid role f).sel = s.sel := rfl
@[simp] theorem modSec_stepNo (s : State) (tid role : Nat) (f : Section → Section) : (s.modSec tid role f).stepNo = s.stepNo := rfl
@[simp] theorem modSec_nextTid (s : State) (tid role : Nat) (f : Section → Section) : (s.modSec tid role f).nextTid = s.nextTid := rfl
@[simp] theorem modSec_nextLid (s : State) (tid role : Nat) (f : Section → Section) : (s.modSec tid role f).nextLid = s.nextLid := rfl
@[simp] theorem modSec_nextOp (s : State) (tid role : Nat) (f : Section → Section) : (s.modSec tid role f).nextOp = s.nextOp := rfl

/-! ## physWrite -/

@[simp] theorem physWrite_stage (s : State) (pa : Nat) (bs : List Byte) : (s.physWrite pa bs).stage = s.stage := rfl
@[simp] theorem physWrite_cfgReady (s : State) (pa : Nat) (bs : List Byte) : (s.physWrite pa bs).cfgReady = s.cfgReady := rfl
@[simp] theorem physWrite_cause (s : State) (pa : Nat) (bs : List Byte) : (s.physWrite pa bs).cause = s.cause := rfl
@[simp] theorem physWrite_clockMHz (s : State) (pa : Nat) (bs : List Byte) : (s.physWrite pa bs).clockMHz = s.clockMHz := rfl
@[simp] theorem physWrite_clockAt (s : State) (pa : Nat) (bs : List Byte) : (s.physWrite pa bs).clockAt = s.clockAt := rfl
@[simp] theorem physWrite_plimit (s : State) (pa : Nat) (bs : List Byte) : (s.physWrite pa bs).plimit = s.plimit := rfl
@[simp] theorem physWrite_aopen (s : State) (pa : Nat) (bs : List Byte) : (s.physWrite pa bs).aopen = s.aopen := rfl
@[simp] theorem physWrite_invbase (s : State) (pa : Nat) (bs : List Byte) : (s.physWrite pa bs).invbase = s.invbase := rfl
@[simp] theorem physWrite_invlen (s : State) (pa : Nat) (bs : List Byte) : (s.physWrite pa bs).invlen = s.invlen := rfl
@[simp] theorem physWrite_invctx (s : State) (pa : Nat) (bs : List Byte) : (s.physWrite pa bs).invctx = s.invctx := rfl
@[simp] theorem physWrite_invgo (s : State) (pa : Nat) (bs : List Byte) : (s.physWrite pa bs).invgo = s.invgo := rfl
@[simp] theorem physWrite_invJob (s : State) (pa : Nat) (bs : List Byte) : (s.physWrite pa bs).invJob = s.invJob := rfl
@[simp] theorem physWrite_inverr (s : State) (pa : Nat) (bs : List Byte) : (s.physWrite pa bs).inverr = s.inverr := rfl
@[simp] theorem physWrite_invdone (s : State) (pa : Nat) (bs : List Byte) : (s.physWrite pa bs).invdone = s.invdone := rfl
@[simp] theorem physWrite_fusedMin (s : State) (pa : Nat) (bs : List Byte) : (s.physWrite pa bs).fusedMin = s.fusedMin := rfl
@[simp] theorem physWrite_cxlBytes (s : State) (pa : Nat) (bs : List Byte) : (s.physWrite pa bs).cxlBytes = s.cxlBytes := rfl
@[simp] theorem physWrite_cxlPorts (s : State) (pa : Nat) (bs : List Byte) : (s.physWrite pa bs).cxlPorts = s.cxlPorts := rfl
@[simp] theorem physWrite_peers (s : State) (pa : Nat) (bs : List Byte) : (s.physWrite pa bs).peers = s.peers := rfl
@[simp] theorem physWrite_devErrHead (s : State) (pa : Nat) (bs : List Byte) : (s.physWrite pa bs).devErrHead = s.devErrHead := rfl
@[simp] theorem physWrite_devErrTail (s : State) (pa : Nat) (bs : List Byte) : (s.physWrite pa bs).devErrTail = s.devErrTail := rfl
@[simp] theorem physWrite_devErrLost (s : State) (pa : Nat) (bs : List Byte) : (s.physWrite pa bs).devErrLost = s.devErrLost := rfl
@[simp] theorem physWrite_devErrs (s : State) (pa : Nat) (bs : List Byte) : (s.physWrite pa bs).devErrs = s.devErrs := rfl
@[simp] theorem physWrite_staged (s : State) (pa : Nat) (bs : List Byte) : (s.physWrite pa bs).staged = s.staged := rfl
@[simp] theorem physWrite_recover (s : State) (pa : Nat) (bs : List Byte) : (s.physWrite pa bs).recover = s.recover := rfl
@[simp] theorem physWrite_ats (s : State) (pa : Nat) (bs : List Byte) : (s.physWrite pa bs).ats = s.ats := rfl
@[simp] theorem physWrite_eccCounts (s : State) (pa : Nat) (bs : List Byte) : (s.physWrite pa bs).eccCounts = s.eccCounts := rfl
@[simp] theorem physWrite_cycle (s : State) (pa : Nat) (bs : List Byte) : (s.physWrite pa bs).cycle = s.cycle := rfl
@[simp] theorem physWrite_wall (s : State) (pa : Nat) (bs : List Byte) : (s.physWrite pa bs).wall = s.wall := rfl
@[simp] theorem physWrite_queues (s : State) (pa : Nat) (bs : List Byte) : (s.physWrite pa bs).queues = s.queues := rfl
@[simp] theorem physWrite_doorbells (s : State) (pa : Nat) (bs : List Byte) : (s.physWrite pa bs).doorbells = s.doorbells := rfl
@[simp] theorem physWrite_parts (s : State) (pa : Nat) (bs : List Byte) : (s.physWrite pa bs).parts = s.parts := rfl
@[simp] theorem physWrite_turn (s : State) (pa : Nat) (bs : List Byte) : (s.physWrite pa bs).turn = s.turn := rfl
@[simp] theorem physWrite_contexts (s : State) (pa : Nat) (bs : List Byte) : (s.physWrite pa bs).contexts = s.contexts := rfl
@[simp] theorem physWrite_launches (s : State) (pa : Nat) (bs : List Byte) : (s.physWrite pa bs).launches = s.launches := rfl
@[simp] theorem physWrite_teams (s : State) (pa : Nat) (bs : List Byte) : (s.physWrite pa bs).teams = s.teams := rfl
@[simp] theorem physWrite_gangs (s : State) (pa : Nat) (bs : List Byte) : (s.physWrite pa bs).gangs = s.gangs := rfl
@[simp] theorem physWrite_cores (s : State) (pa : Nat) (bs : List Byte) : (s.physWrite pa bs).cores = s.cores := rfl
@[simp] theorem physWrite_diesT (s : State) (pa : Nat) (bs : List Byte) : (s.physWrite pa bs).diesT = s.diesT := rfl
@[simp] theorem physWrite_slices (s : State) (pa : Nat) (bs : List Byte) : (s.physWrite pa bs).slices = s.slices := rfl
@[simp] theorem physWrite_homes (s : State) (pa : Nat) (bs : List Byte) : (s.physWrite pa bs).homes = s.homes := rfl
@[simp] theorem physWrite_remote (s : State) (pa : Nat) (bs : List Byte) : (s.physWrite pa bs).remote = s.remote := rfl
@[simp] theorem physWrite_sysOps (s : State) (pa : Nat) (bs : List Byte) : (s.physWrite pa bs).sysOps = s.sysOps := rfl
@[simp] theorem physWrite_broken (s : State) (pa : Nat) (bs : List Byte) : (s.physWrite pa bs).broken = s.broken := rfl
@[simp] theorem physWrite_orphans (s : State) (pa : Nat) (bs : List Byte) : (s.physWrite pa bs).orphans = s.orphans := rfl
@[simp] theorem physWrite_failed (s : State) (pa : Nat) (bs : List Byte) : (s.physWrite pa bs).failed = s.failed := rfl
@[simp] theorem physWrite_peerReplies (s : State) (pa : Nat) (bs : List Byte) : (s.physWrite pa bs).peerReplies = s.peerReplies := rfl
@[simp] theorem physWrite_stalled (s : State) (pa : Nat) (bs : List Byte) : (s.physWrite pa bs).stalled = s.stalled := rfl
@[simp] theorem physWrite_agenda (s : State) (pa : Nat) (bs : List Byte) : (s.physWrite pa bs).agenda = s.agenda := rfl
@[simp] theorem physWrite_focus (s : State) (pa : Nat) (bs : List Byte) : (s.physWrite pa bs).focus = s.focus := rfl
@[simp] theorem physWrite_sel (s : State) (pa : Nat) (bs : List Byte) : (s.physWrite pa bs).sel = s.sel := rfl
@[simp] theorem physWrite_stepNo (s : State) (pa : Nat) (bs : List Byte) : (s.physWrite pa bs).stepNo = s.stepNo := rfl
@[simp] theorem physWrite_nextTid (s : State) (pa : Nat) (bs : List Byte) : (s.physWrite pa bs).nextTid = s.nextTid := rfl
@[simp] theorem physWrite_nextLid (s : State) (pa : Nat) (bs : List Byte) : (s.physWrite pa bs).nextLid = s.nextLid := rfl
@[simp] theorem physWrite_nextOp (s : State) (pa : Nat) (bs : List Byte) : (s.physWrite pa bs).nextOp = s.nextOp := rfl

/-! ## The issuing section -/

@[simp] theorem modOwn_stage (k : Iss) (s : State) (f : Section → Section) : (modOwn k s f).stage = s.stage := rfl
@[simp] theorem modOwn_cfgReady (k : Iss) (s : State) (f : Section → Section) : (modOwn k s f).cfgReady = s.cfgReady := rfl
@[simp] theorem modOwn_cause (k : Iss) (s : State) (f : Section → Section) : (modOwn k s f).cause = s.cause := rfl
@[simp] theorem modOwn_clockMHz (k : Iss) (s : State) (f : Section → Section) : (modOwn k s f).clockMHz = s.clockMHz := rfl
@[simp] theorem modOwn_clockAt (k : Iss) (s : State) (f : Section → Section) : (modOwn k s f).clockAt = s.clockAt := rfl
@[simp] theorem modOwn_plimit (k : Iss) (s : State) (f : Section → Section) : (modOwn k s f).plimit = s.plimit := rfl
@[simp] theorem modOwn_aopen (k : Iss) (s : State) (f : Section → Section) : (modOwn k s f).aopen = s.aopen := rfl
@[simp] theorem modOwn_invbase (k : Iss) (s : State) (f : Section → Section) : (modOwn k s f).invbase = s.invbase := rfl
@[simp] theorem modOwn_invlen (k : Iss) (s : State) (f : Section → Section) : (modOwn k s f).invlen = s.invlen := rfl
@[simp] theorem modOwn_invctx (k : Iss) (s : State) (f : Section → Section) : (modOwn k s f).invctx = s.invctx := rfl
@[simp] theorem modOwn_invgo (k : Iss) (s : State) (f : Section → Section) : (modOwn k s f).invgo = s.invgo := rfl
@[simp] theorem modOwn_invJob (k : Iss) (s : State) (f : Section → Section) : (modOwn k s f).invJob = s.invJob := rfl
@[simp] theorem modOwn_inverr (k : Iss) (s : State) (f : Section → Section) : (modOwn k s f).inverr = s.inverr := rfl
@[simp] theorem modOwn_invdone (k : Iss) (s : State) (f : Section → Section) : (modOwn k s f).invdone = s.invdone := rfl
@[simp] theorem modOwn_fusedMin (k : Iss) (s : State) (f : Section → Section) : (modOwn k s f).fusedMin = s.fusedMin := rfl
@[simp] theorem modOwn_cxlBytes (k : Iss) (s : State) (f : Section → Section) : (modOwn k s f).cxlBytes = s.cxlBytes := rfl
@[simp] theorem modOwn_cxlPorts (k : Iss) (s : State) (f : Section → Section) : (modOwn k s f).cxlPorts = s.cxlPorts := rfl
@[simp] theorem modOwn_peers (k : Iss) (s : State) (f : Section → Section) : (modOwn k s f).peers = s.peers := rfl
@[simp] theorem modOwn_devErrHead (k : Iss) (s : State) (f : Section → Section) : (modOwn k s f).devErrHead = s.devErrHead := rfl
@[simp] theorem modOwn_devErrTail (k : Iss) (s : State) (f : Section → Section) : (modOwn k s f).devErrTail = s.devErrTail := rfl
@[simp] theorem modOwn_devErrLost (k : Iss) (s : State) (f : Section → Section) : (modOwn k s f).devErrLost = s.devErrLost := rfl
@[simp] theorem modOwn_devErrs (k : Iss) (s : State) (f : Section → Section) : (modOwn k s f).devErrs = s.devErrs := rfl
@[simp] theorem modOwn_staged (k : Iss) (s : State) (f : Section → Section) : (modOwn k s f).staged = s.staged := rfl
@[simp] theorem modOwn_recover (k : Iss) (s : State) (f : Section → Section) : (modOwn k s f).recover = s.recover := rfl
@[simp] theorem modOwn_ats (k : Iss) (s : State) (f : Section → Section) : (modOwn k s f).ats = s.ats := rfl
@[simp] theorem modOwn_eccCounts (k : Iss) (s : State) (f : Section → Section) : (modOwn k s f).eccCounts = s.eccCounts := rfl
@[simp] theorem modOwn_cycle (k : Iss) (s : State) (f : Section → Section) : (modOwn k s f).cycle = s.cycle := rfl
@[simp] theorem modOwn_wall (k : Iss) (s : State) (f : Section → Section) : (modOwn k s f).wall = s.wall := rfl
@[simp] theorem modOwn_queues (k : Iss) (s : State) (f : Section → Section) : (modOwn k s f).queues = s.queues := rfl
@[simp] theorem modOwn_doorbells (k : Iss) (s : State) (f : Section → Section) : (modOwn k s f).doorbells = s.doorbells := rfl
@[simp] theorem modOwn_parts (k : Iss) (s : State) (f : Section → Section) : (modOwn k s f).parts = s.parts := rfl
@[simp] theorem modOwn_turn (k : Iss) (s : State) (f : Section → Section) : (modOwn k s f).turn = s.turn := rfl
@[simp] theorem modOwn_contexts (k : Iss) (s : State) (f : Section → Section) : (modOwn k s f).contexts = s.contexts := rfl
@[simp] theorem modOwn_launches (k : Iss) (s : State) (f : Section → Section) : (modOwn k s f).launches = s.launches := rfl
@[simp] theorem modOwn_gangs (k : Iss) (s : State) (f : Section → Section) : (modOwn k s f).gangs = s.gangs := rfl
@[simp] theorem modOwn_cores (k : Iss) (s : State) (f : Section → Section) : (modOwn k s f).cores = s.cores := rfl
@[simp] theorem modOwn_diesT (k : Iss) (s : State) (f : Section → Section) : (modOwn k s f).diesT = s.diesT := rfl
@[simp] theorem modOwn_slices (k : Iss) (s : State) (f : Section → Section) : (modOwn k s f).slices = s.slices := rfl
@[simp] theorem modOwn_homes (k : Iss) (s : State) (f : Section → Section) : (modOwn k s f).homes = s.homes := rfl
@[simp] theorem modOwn_remote (k : Iss) (s : State) (f : Section → Section) : (modOwn k s f).remote = s.remote := rfl
@[simp] theorem modOwn_sysOps (k : Iss) (s : State) (f : Section → Section) : (modOwn k s f).sysOps = s.sysOps := rfl
@[simp] theorem modOwn_broken (k : Iss) (s : State) (f : Section → Section) : (modOwn k s f).broken = s.broken := rfl
@[simp] theorem modOwn_orphans (k : Iss) (s : State) (f : Section → Section) : (modOwn k s f).orphans = s.orphans := rfl
@[simp] theorem modOwn_failed (k : Iss) (s : State) (f : Section → Section) : (modOwn k s f).failed = s.failed := rfl
@[simp] theorem modOwn_peerReplies (k : Iss) (s : State) (f : Section → Section) : (modOwn k s f).peerReplies = s.peerReplies := rfl
@[simp] theorem modOwn_stalled (k : Iss) (s : State) (f : Section → Section) : (modOwn k s f).stalled = s.stalled := rfl
@[simp] theorem modOwn_mem (k : Iss) (s : State) (f : Section → Section) : (modOwn k s f).mem = s.mem := rfl
@[simp] theorem modOwn_agenda (k : Iss) (s : State) (f : Section → Section) : (modOwn k s f).agenda = s.agenda := rfl
@[simp] theorem modOwn_focus (k : Iss) (s : State) (f : Section → Section) : (modOwn k s f).focus = s.focus := rfl
@[simp] theorem modOwn_sel (k : Iss) (s : State) (f : Section → Section) : (modOwn k s f).sel = s.sel := rfl
@[simp] theorem modOwn_stepNo (k : Iss) (s : State) (f : Section → Section) : (modOwn k s f).stepNo = s.stepNo := rfl
@[simp] theorem modOwn_nextTid (k : Iss) (s : State) (f : Section → Section) : (modOwn k s f).nextTid = s.nextTid := rfl
@[simp] theorem modOwn_nextLid (k : Iss) (s : State) (f : Section → Section) : (modOwn k s f).nextLid = s.nextLid := rfl
@[simp] theorem modOwn_nextOp (k : Iss) (s : State) (f : Section → Section) : (modOwn k s f).nextOp = s.nextOp := rfl

end Sys2Proof.Machine
end

