-- ==== Sys2Proof/Laws/Store.lean ====
section
/-!
SUPPORT. Tables: reading after writing, and the canonical form that every write keeps; bytes and numbers; the canonical form of
physical memory.
-/

namespace Sys2Proof.Machine

/-! ## Canonical tables -/

/-- A key below every key of a table. -/
def Table.Below {α : Type} (k : Nat) (t : Table α) : Prop := ∀ e ∈ t, k < e.1

theorem table_wf_cons {α : Type} [DecidableEq α] (d : α) (k : Nat) (v : α) (t : Table α) :
    Table.wf d ((k, v) :: t) = true ↔ v ≠ d ∧ Table.Below k t ∧ Table.wf d t = true := by
  induction t generalizing k v with
  | nil => simp [Table.wf, Table.Below]
  | cons e r ih =>
    obtain ⟨k', v'⟩ := e
    have h' := ih k' v'
    simp only [Table.wf, Bool.and_eq_true, decide_eq_true_eq]
    constructor
    · rintro ⟨⟨hk, hv⟩, hw⟩
      exact ⟨hv, List.forall_mem_cons.2 ⟨hk, fun e he => Nat.lt_trans hk ((h'.mp hw).2.1 e he)⟩, hw⟩
    · rintro ⟨hv, hb, hw⟩
      exact ⟨⟨hb (k', v') (by simp), hv⟩, hw⟩

theorem table_wf_tail {α : Type} [DecidableEq α] {d : α} {e : Nat × α} {t : Table α} (h : Table.wf d (e :: t) = true) :
    Table.wf d t = true := ((table_wf_cons d e.1 e.2 t).mp h).2.2

theorem mem_tset {α : Type} [DecidableEq α] (d : α) (t : Table α) (k : Nat) (v : α) (e : Nat × α) (h : e ∈ tset d t k v) :
    e.1 = k ∨ e ∈ t := by
  induction t with
  | nil => by_cases hv : v = d <;> simp_all [tset]
  | cons x r ih => grind [tset]

theorem filter_wf {α : Type} [DecidableEq α] (d : α) (p : Nat × α → Bool) (t : Table α) (h : Table.wf d t = true) :
    Table.wf d (t.filter p) = true := by
  induction t with
  | nil => rfl
  | cons x r ih =>
    obtain ⟨k', v'⟩ := x
    obtain ⟨hv', hb, hr⟩ := (table_wf_cons d k' v' r).mp h
    by_cases hp : p (k', v') = true
    · rw [List.filter_cons_of_pos hp]
      exact (table_wf_cons _ _ _ _).mpr ⟨hv', fun e he => hb e (List.mem_filter.mp he).1, ih hr⟩
    · rw [List.filter_cons_of_neg hp]
      exact ih hr

/-- A write keeps the canonical form. -/
theorem tset_wf {α : Type} [DecidableEq α] (d : α) (t : Table α) (k : Nat) (v : α) (h : Table.wf d t = true) :
    Table.wf d (tset d t k v) = true := by
  induction t with
  | nil => by_cases hv : v = d <;> simp [tset, hv, Table.wf]
  | cons x r ih =>
    obtain ⟨k', v'⟩ := x
    obtain ⟨hv', hb, hr⟩ := (table_wf_cons d k' v' r).mp h
    simp only [tset]
    split
    · next hlt =>
      split
      · exact (table_wf_cons _ _ _ _).mpr ⟨hv', fun e he => hb e (List.mem_filter.mp he).1, filter_wf d _ r hr⟩
      · next hv =>
        exact (table_wf_cons _ _ _ _).mpr ⟨hv, List.forall_mem_cons.2 ⟨hlt, fun e he => Nat.lt_trans hlt (hb e he)⟩, h⟩
    · split
      · next heq =>
        split
        · exact filter_wf d _ r hr
        · next hv => exact (table_wf_cons _ _ _ _).mpr ⟨hv, heq ▸ hb, hr⟩
      · exact (table_wf_cons _ _ _ _).mpr ⟨hv', fun e he => (mem_tset d r k v e he).elim (fun h => by omega) (hb e), ih hr⟩

theorem tsets_wf {α : Type} [DecidableEq α] (d : α) (kvs : List (Nat × α)) (t : Table α) (h : Table.wf d t = true) :
    Table.wf d (tsets d t kvs) = true := by
  induction kvs generalizing t with
  | nil => exact h
  | cons e r ih => exact ih _ (tset_wf d t e.1 e.2 h)

/-- A key whose entries are gone reads as the default. -/
theorem tget_filter_same {α : Type} (d : α) (t : Table α) (k : Nat) : tget d (t.filter (fun e => e.1 != k)) k = d := by
  induction t with
  | nil => rfl
  | cons x r ih =>
    obtain ⟨k', v'⟩ := x
    by_cases h : k' = k
    · simp [h, ih]
    · simp [h, tget, ih]; intro hh; exact absurd hh.symm h

/-- Every other key reads as before. -/
theorem tget_filter_other {α : Type} (d : α) (t : Table α) (k k' : Nat) (hne : k' ≠ k) :
    tget d (t.filter (fun e => e.1 != k)) k' = tget d t k' := by
  induction t with
  | nil => rfl
  | cons x r ih =>
    obtain ⟨k₁, v₁⟩ := x
    by_cases h : k₁ = k
    · subst h; simp [tget, hne, ih]
    · simp [h, tget, ih]

/-- Reading back the key written. -/
@[simp] theorem tget_tset_same {α : Type} [DecidableEq α] (d : α) (t : Table α) (k : Nat) (v : α) :
    tget d (tset d t k v) k = v := by
  induction t with
  | nil => by_cases hv : v = d <;> simp [tset, tget, hv]
  | cons x r ih =>
    obtain ⟨k', v'⟩ := x
    simp only [tset]
    split
    · next hlt =>
      split
      · next hv =>
        rw [hv]; simp only [tget]; rw [if_neg (by omega)]; exact tget_filter_same d r k
      · simp [tget]
    · split
      · next heq =>
        split
        · next hv => rw [hv]; exact tget_filter_same d r k
        · simp [tget]
      · next hne => simp only [tget]; rw [if_neg hne]; exact ih

/-- Every other key reads as before. -/
theorem tget_tset_other {α : Type} [DecidableEq α] (d : α) (t : Table α) (k k' : Nat) (v : α) (hne : k' ≠ k) :
    tget d (tset d t k v) k' = tget d t k' := by
  induction t with
  | nil => by_cases hv : v = d <;> simp [tset, tget, hv, hne]
  | cons x r ih =>
    obtain ⟨k₁, v₁⟩ := x
    simp only [tset]
    split
    · split
      · simp only [tget]; rw [tget_filter_other d r k k' hne]
      · conv => lhs; unfold tget
        rw [if_neg hne]
    · split
      · next heq =>
        subst heq
        split
        · rw [tget_filter_other d r k k' hne]; simp [tget, hne]
        · simp [tget, hne]
      · simp only [tget]
        split
        · rfl
        · exact ih

/-- A key among several written, or not. -/
theorem tget_tset {α : Type} [DecidableEq α] (d : α) (t : Table α) (k k' : Nat) (v : α) :
    tget d (tset d t k v) k' = if k' = k then v else tget d t k' := by
  split
  · next h => rw [h]; exact tget_tset_same d t k v
  · next h => exact tget_tset_other d t k k' v h

theorem tget_tsets_other {α : Type} [DecidableEq α] (d : α) (kvs : List (Nat × α)) (t : Table α) (k : Nat)
    (hk : ∀ e ∈ kvs, k ≠ e.1) : tget d (tsets d t kvs) k = tget d t k := by
  induction kvs generalizing t with
  | nil => rfl
  | cons e r ih =>
    exact (ih (tset d t e.1 e.2) (fun x hx => hk x (List.mem_cons_of_mem _ hx))).trans
      (tget_tset_other d t e.1 k e.2 (hk e (by simp)))

/-! ## Bytes -/

@[simp] theorem toBytes_length (n v : Nat) : (toBytes n v).length = n := by
  induction n generalizing v with
  | zero => rfl
  | succ n ih => simp [toBytes, ih]

/-- The bytes of a number give it back (R3). -/
theorem ofBytes_toBytes (n v : Nat) : ofBytes (toBytes n v) = v % 256 ^ n := by
  induction n generalizing v with
  | zero => simp [toBytes, ofBytes, Nat.mod_one]
  | succ n ih =>
    have h : v % 256 ^ (n + 1) = v % 256 + 256 * (v / 256 % 256 ^ n) := by
      rw [Nat.pow_succ', Nat.mod_mul]
    rw [h, toBytes, ofBytes, ih]
    simp

theorem readBytes_length (t : Table Byte) (o n : Nat) : (readBytes t o n).length = n := by simp [readBytes]

theorem writeBytes_cons (t : Table Byte) (o : Nat) (b : Byte) (r : List Byte) :
    writeBytes t o (b :: r) = writeBytes (tset 0 t o b) (o + 1) r := by
  have h : (fun (i : Nat) (x : Byte) => (o + (i + 1), x)) = (fun i x => (o + 1 + i, x)) := by
    funext i x
    exact Prod.ext (by simp only; omega) rfl
  simp only [writeBytes, List.mapIdx_cons, tsets, List.foldl_cons, Nat.add_zero, h]

theorem writeBytes_other (t : Table Byte) (o : Nat) (bs : List Byte) (a : Nat)
    (ha : a < o ∨ o + bs.length ≤ a) : tget 0 (writeBytes t o bs) a = tget 0 t a := by
  refine tget_tsets_other 0 _ t a ?_
  intro e he
  obtain ⟨i, hi, rfl⟩ := List.mem_mapIdx.mp he
  simp only
  omega

theorem readBytes_succ (t : Table Byte) (o n : Nat) : readBytes t o (n + 1) = tget 0 t o :: readBytes t (o + 1) n := by
  simp only [readBytes, List.range_succ_eq_map, List.map_cons, List.map_map, Nat.add_zero]
  congr 1
  refine List.map_congr_left ?_
  intro i _
  simp only [Function.comp, Nat.succ_eq_add_one]
  congr 1
  omega

/-- Bytes read after they were written are those written. -/
theorem readBytes_writeBytes (t : Table Byte) (o : Nat) (bs : List Byte) :
    readBytes (writeBytes t o bs) o bs.length = bs := by
  induction bs generalizing t o with
  | nil => simp [readBytes]
  | cons b r ih =>
    rw [writeBytes_cons, List.length_cons, readBytes_succ, ih, writeBytes_other _ _ _ _ (.inl (by omega)), tget_tset_same]

/-! ## Memory -/

theorem memOk_reset : State.reset.MemOk := rfl

theorem writeBytes_wf (m : List Host.Cell) (a : Nat) (bs : List Byte) (h : Memory.wf m = true) :
    Memory.wf (writeBytes m a bs) = true := tsets_wf 0 _ m h

theorem writeNat_wf (m : List Host.Cell) (a n v : Nat) (h : Memory.wf m = true) : Memory.wf (writeNat m a n v) = true :=
  writeBytes_wf m a _ h

/-- A write to physical memory keeps its canonical form. -/
theorem physWrite_memOk (s : State) (pa : Nat) (bs : List Byte) (h : s.MemOk) : (s.physWrite pa bs).MemOk :=
  writeBytes_wf s.mem pa bs h

/-- A byte of memory outside those written reads as before. -/
theorem physWrite_frame (s : State) (pa : Nat) (bs : List Byte) (a : Nat) (ha : a < pa ∨ pa + bs.length ≤ a) :
    tget 0 (s.physWrite pa bs).mem a = tget 0 s.mem a :=
  writeBytes_other s.mem pa bs a ha

/-- Physical memory read where it was written. -/
theorem physRead_physWrite (s : State) (pa : Nat) (bs : List Byte) :
    (s.physWrite pa bs).physRead pa bs.length = bs := readBytes_writeBytes s.mem pa bs

end Sys2Proof.Machine
end

