-- ==== Sys2Proof/Laws/Ops.lean ====
section
/-!
SUPPORT. One lemma for each shared operation of issue, retirement and exception, saying all that it can do.
-/

namespace Sys2Proof.Machine

/-! ## Retirement: only the issuer changes -/

@[simp] theorem putTh_stage (k : Iss) (s : State) (th : Thread) : (putTh k s th).stage = s.stage := by unfold putTh; split <;> rfl
@[simp] theorem putTh_cfgReady (k : Iss) (s : State) (th : Thread) : (putTh k s th).cfgReady = s.cfgReady := by unfold putTh; split <;> rfl
@[simp] theorem putTh_cause (k : Iss) (s : State) (th : Thread) : (putTh k s th).cause = s.cause := by unfold putTh; split <;> rfl
@[simp] theorem putTh_clockMHz (k : Iss) (s : State) (th : Thread) : (putTh k s th).clockMHz = s.clockMHz := by unfold putTh; split <;> rfl
@[simp] theorem putTh_clockAt (k : Iss) (s : State) (th : Thread) : (putTh k s th).clockAt = s.clockAt := by unfold putTh; split <;> rfl
@[simp] theorem putTh_plimit (k : Iss) (s : State) (th : Thread) : (putTh k s th).plimit = s.plimit := by unfold putTh; split <;> rfl
@[simp] theorem putTh_aopen (k : Iss) (s : State) (th : Thread) : (putTh k s th).aopen = s.aopen := by unfold putTh; split <;> rfl
@[simp] theorem putTh_invbase (k : Iss) (s : State) (th : Thread) : (putTh k s th).invbase = s.invbase := by unfold putTh; split <;> rfl
@[simp] theorem putTh_invlen (k : Iss) (s : State) (th : Thread) : (putTh k s th).invlen = s.invlen := by unfold putTh; split <;> rfl
@[simp] theorem putTh_invctx (k : Iss) (s : State) (th : Thread) : (putTh k s th).invctx = s.invctx := by unfold putTh; split <;> rfl
@[simp] theorem putTh_invgo (k : Iss) (s : State) (th : Thread) : (putTh k s th).invgo = s.invgo := by unfold putTh; split <;> rfl
@[simp] theorem putTh_invJob (k : Iss) (s : State) (th : Thread) : (putTh k s th).invJob = s.invJob := by unfold putTh; split <;> rfl
@[simp] theorem putTh_inverr (k : Iss) (s : State) (th : Thread) : (putTh k s th).inverr = s.inverr := by unfold putTh; split <;> rfl
@[simp] theorem putTh_invdone (k : Iss) (s : State) (th : Thread) : (putTh k s th).invdone = s.invdone := by unfold putTh; split <;> rfl
@[simp] theorem putTh_fusedMin (k : Iss) (s : State) (th : Thread) : (putTh k s th).fusedMin = s.fusedMin := by unfold putTh; split <;> rfl
@[simp] theorem putTh_cxlBytes (k : Iss) (s : State) (th : Thread) : (putTh k s th).cxlBytes = s.cxlBytes := by unfold putTh; split <;> rfl
@[simp] theorem putTh_cxlPorts (k : Iss) (s : State) (th : Thread) : (putTh k s th).cxlPorts = s.cxlPorts := by unfold putTh; split <;> rfl
@[simp] theorem putTh_peers (k : Iss) (s : State) (th : Thread) : (putTh k s th).peers = s.peers := by unfold putTh; split <;> rfl
@[simp] theorem putTh_devErrHead (k : Iss) (s : State) (th : Thread) : (putTh k s th).devErrHead = s.devErrHead := by unfold putTh; split <;> rfl
@[simp] theorem putTh_devErrTail (k : Iss) (s : State) (th : Thread) : (putTh k s th).devErrTail = s.devErrTail := by unfold putTh; split <;> rfl
@[simp] theorem putTh_devErrLost (k : Iss) (s : State) (th : Thread) : (putTh k s th).devErrLost = s.devErrLost := by unfold putTh; split <;> rfl
@[simp] theorem putTh_devErrs (k : Iss) (s : State) (th : Thread) : (putTh k s th).devErrs = s.devErrs := by unfold putTh; split <;> rfl
@[simp] theorem putTh_staged (k : Iss) (s : State) (th : Thread) : (putTh k s th).staged = s.staged := by unfold putTh; split <;> rfl
@[simp] theorem putTh_recover (k : Iss) (s : State) (th : Thread) : (putTh k s th).recover = s.recover := by unfold putTh; split <;> rfl
@[simp] theorem putTh_ats (k : Iss) (s : State) (th : Thread) : (putTh k s th).ats = s.ats := by unfold putTh; split <;> rfl
@[simp] theorem putTh_eccCounts (k : Iss) (s : State) (th : Thread) : (putTh k s th).eccCounts = s.eccCounts := by unfold putTh; split <;> rfl
@[simp] theorem putTh_cycle (k : Iss) (s : State) (th : Thread) : (putTh k s th).cycle = s.cycle := by unfold putTh; split <;> rfl
@[simp] theorem putTh_wall (k : Iss) (s : State) (th : Thread) : (putTh k s th).wall = s.wall := by unfold putTh; split <;> rfl
@[simp] theorem putTh_queues (k : Iss) (s : State) (th : Thread) : (putTh k s th).queues = s.queues := by unfold putTh; split <;> rfl
@[simp] theorem putTh_doorbells (k : Iss) (s : State) (th : Thread) : (putTh k s th).doorbells = s.doorbells := by unfold putTh; split <;> rfl
@[simp] theorem putTh_parts (k : Iss) (s : State) (th : Thread) : (putTh k s th).parts = s.parts := by unfold putTh; split <;> rfl
@[simp] theorem putTh_turn (k : Iss) (s : State) (th : Thread) : (putTh k s th).turn = s.turn := by unfold putTh; split <;> rfl
@[simp] theorem putTh_contexts (k : Iss) (s : State) (th : Thread) : (putTh k s th).contexts = s.contexts := by unfold putTh; split <;> rfl
@[simp] theorem putTh_launches (k : Iss) (s : State) (th : Thread) : (putTh k s th).launches = s.launches := by unfold putTh; split <;> rfl
@[simp] theorem putTh_gangs (k : Iss) (s : State) (th : Thread) : (putTh k s th).gangs = s.gangs := by unfold putTh; split <;> rfl
@[simp] theorem putTh_diesT (k : Iss) (s : State) (th : Thread) : (putTh k s th).diesT = s.diesT := by unfold putTh; split <;> rfl
@[simp] theorem putTh_slices (k : Iss) (s : State) (th : Thread) : (putTh k s th).slices = s.slices := by unfold putTh; split <;> rfl
@[simp] theorem putTh_homes (k : Iss) (s : State) (th : Thread) : (putTh k s th).homes = s.homes := by unfold putTh; split <;> rfl
@[simp] theorem putTh_remote (k : Iss) (s : State) (th : Thread) : (putTh k s th).remote = s.remote := by unfold putTh; split <;> rfl
@[simp] theorem putTh_sysOps (k : Iss) (s : State) (th : Thread) : (putTh k s th).sysOps = s.sysOps := by unfold putTh; split <;> rfl
@[simp] theorem putTh_broken (k : Iss) (s : State) (th : Thread) : (putTh k s th).broken = s.broken := by unfold putTh; split <;> rfl
@[simp] theorem putTh_orphans (k : Iss) (s : State) (th : Thread) : (putTh k s th).orphans = s.orphans := by unfold putTh; split <;> rfl
@[simp] theorem putTh_failed (k : Iss) (s : State) (th : Thread) : (putTh k s th).failed = s.failed := by unfold putTh; split <;> rfl
@[simp] theorem putTh_mem (k : Iss) (s : State) (th : Thread) : (putTh k s th).mem = s.mem := by unfold putTh; split <;> rfl
@[simp] theorem putTh_agenda (k : Iss) (s : State) (th : Thread) : (putTh k s th).agenda = s.agenda := by unfold putTh; split <;> rfl
@[simp] theorem putTh_focus (k : Iss) (s : State) (th : Thread) : (putTh k s th).focus = s.focus := by unfold putTh; split <;> rfl
@[simp] theorem putTh_sel (k : Iss) (s : State) (th : Thread) : (putTh k s th).sel = s.sel := by unfold putTh; split <;> rfl
@[simp] theorem putTh_stepNo (k : Iss) (s : State) (th : Thread) : (putTh k s th).stepNo = s.stepNo := by unfold putTh; split <;> rfl
@[simp] theorem putTh_nextTid (k : Iss) (s : State) (th : Thread) : (putTh k s th).nextTid = s.nextTid := by unfold putTh; split <;> rfl
@[simp] theorem putTh_nextLid (k : Iss) (s : State) (th : Thread) : (putTh k s th).nextLid = s.nextLid := by unfold putTh; split <;> rfl
@[simp] theorem putTh_nextOp (k : Iss) (s : State) (th : Thread) : (putTh k s th).nextOp = s.nextOp := by unfold putTh; split <;> rfl

@[simp] theorem retire_stage (k : Iss) (s : State) : (retire k s).stage = s.stage := by unfold retire; split <;> rfl
@[simp] theorem retire_cfgReady (k : Iss) (s : State) : (retire k s).cfgReady = s.cfgReady := by unfold retire; split <;> rfl
@[simp] theorem retire_cause (k : Iss) (s : State) : (retire k s).cause = s.cause := by unfold retire; split <;> rfl
@[simp] theorem retire_clockMHz (k : Iss) (s : State) : (retire k s).clockMHz = s.clockMHz := by unfold retire; split <;> rfl
@[simp] theorem retire_clockAt (k : Iss) (s : State) : (retire k s).clockAt = s.clockAt := by unfold retire; split <;> rfl
@[simp] theorem retire_plimit (k : Iss) (s : State) : (retire k s).plimit = s.plimit := by unfold retire; split <;> rfl
@[simp] theorem retire_aopen (k : Iss) (s : State) : (retire k s).aopen = s.aopen := by unfold retire; split <;> rfl
@[simp] theorem retire_invbase (k : Iss) (s : State) : (retire k s).invbase = s.invbase := by unfold retire; split <;> rfl
@[simp] theorem retire_invlen (k : Iss) (s : State) : (retire k s).invlen = s.invlen := by unfold retire; split <;> rfl
@[simp] theorem retire_invctx (k : Iss) (s : State) : (retire k s).invctx = s.invctx := by unfold retire; split <;> rfl
@[simp] theorem retire_invgo (k : Iss) (s : State) : (retire k s).invgo = s.invgo := by unfold retire; split <;> rfl
@[simp] theorem retire_invJob (k : Iss) (s : State) : (retire k s).invJob = s.invJob := by unfold retire; split <;> rfl
@[simp] theorem retire_inverr (k : Iss) (s : State) : (retire k s).inverr = s.inverr := by unfold retire; split <;> rfl
@[simp] theorem retire_invdone (k : Iss) (s : State) : (retire k s).invdone = s.invdone := by unfold retire; split <;> rfl
@[simp] theorem retire_fusedMin (k : Iss) (s : State) : (retire k s).fusedMin = s.fusedMin := by unfold retire; split <;> rfl
@[simp] theorem retire_cxlBytes (k : Iss) (s : State) : (retire k s).cxlBytes = s.cxlBytes := by unfold retire; split <;> rfl
@[simp] theorem retire_cxlPorts (k : Iss) (s : State) : (retire k s).cxlPorts = s.cxlPorts := by unfold retire; split <;> rfl
@[simp] theorem retire_peers (k : Iss) (s : State) : (retire k s).peers = s.peers := by unfold retire; split <;> rfl
@[simp] theorem retire_devErrHead (k : Iss) (s : State) : (retire k s).devErrHead = s.devErrHead := by unfold retire; split <;> rfl
@[simp] theorem retire_devErrTail (k : Iss) (s : State) : (retire k s).devErrTail = s.devErrTail := by unfold retire; split <;> rfl
@[simp] theorem retire_devErrLost (k : Iss) (s : State) : (retire k s).devErrLost = s.devErrLost := by unfold retire; split <;> rfl
@[simp] theorem retire_devErrs (k : Iss) (s : State) : (retire k s).devErrs = s.devErrs := by unfold retire; split <;> rfl
@[simp] theorem retire_staged (k : Iss) (s : State) : (retire k s).staged = s.staged := by unfold retire; split <;> rfl
@[simp] theorem retire_recover (k : Iss) (s : State) : (retire k s).recover = s.recover := by unfold retire; split <;> rfl
@[simp] theorem retire_ats (k : Iss) (s : State) : (retire k s).ats = s.ats := by unfold retire; split <;> rfl
@[simp] theorem retire_eccCounts (k : Iss) (s : State) : (retire k s).eccCounts = s.eccCounts := by unfold retire; split <;> rfl
@[simp] theorem retire_cycle (k : Iss) (s : State) : (retire k s).cycle = s.cycle := by unfold retire; split <;> rfl
@[simp] theorem retire_wall (k : Iss) (s : State) : (retire k s).wall = s.wall := by unfold retire; split <;> rfl
@[simp] theorem retire_queues (k : Iss) (s : State) : (retire k s).queues = s.queues := by unfold retire; split <;> rfl
@[simp] theorem retire_doorbells (k : Iss) (s : State) : (retire k s).doorbells = s.doorbells := by unfold retire; split <;> rfl
@[simp] theorem retire_parts (k : Iss) (s : State) : (retire k s).parts = s.parts := by unfold retire; split <;> rfl
@[simp] theorem retire_turn (k : Iss) (s : State) : (retire k s).turn = s.turn := by unfold retire; split <;> rfl
@[simp] theorem retire_contexts (k : Iss) (s : State) : (retire k s).contexts = s.contexts := by unfold retire; split <;> rfl
@[simp] theorem retire_launches (k : Iss) (s : State) : (retire k s).launches = s.launches := by unfold retire; split <;> rfl
@[simp] theorem retire_gangs (k : Iss) (s : State) : (retire k s).gangs = s.gangs := by unfold retire; split <;> rfl
@[simp] theorem retire_diesT (k : Iss) (s : State) : (retire k s).diesT = s.diesT := by unfold retire; split <;> rfl
@[simp] theorem retire_slices (k : Iss) (s : State) : (retire k s).slices = s.slices := by unfold retire; split <;> rfl
@[simp] theorem retire_homes (k : Iss) (s : State) : (retire k s).homes = s.homes := by unfold retire; split <;> rfl
@[simp] theorem retire_remote (k : Iss) (s : State) : (retire k s).remote = s.remote := by unfold retire; split <;> rfl
@[simp] theorem retire_sysOps (k : Iss) (s : State) : (retire k s).sysOps = s.sysOps := by unfold retire; split <;> rfl
@[simp] theorem retire_broken (k : Iss) (s : State) : (retire k s).broken = s.broken := by unfold retire; split <;> rfl
@[simp] theorem retire_orphans (k : Iss) (s : State) : (retire k s).orphans = s.orphans := by unfold retire; split <;> rfl
@[simp] theorem retire_failed (k : Iss) (s : State) : (retire k s).failed = s.failed := by unfold retire; split <;> rfl
@[simp] theorem retire_mem (k : Iss) (s : State) : (retire k s).mem = s.mem := by unfold retire; split <;> rfl
@[simp] theorem retire_agenda (k : Iss) (s : State) : (retire k s).agenda = s.agenda := by unfold retire; split <;> rfl
@[simp] theorem retire_focus (k : Iss) (s : State) : (retire k s).focus = s.focus := by unfold retire; split <;> rfl
@[simp] theorem retire_sel (k : Iss) (s : State) : (retire k s).sel = s.sel := by unfold retire; split <;> rfl
@[simp] theorem retire_stepNo (k : Iss) (s : State) : (retire k s).stepNo = s.stepNo := by unfold retire; split <;> rfl
@[simp] theorem retire_nextTid (k : Iss) (s : State) : (retire k s).nextTid = s.nextTid := by unfold retire; split <;> rfl
@[simp] theorem retire_nextLid (k : Iss) (s : State) : (retire k s).nextLid = s.nextLid := by unfold retire; split <;> rfl
@[simp] theorem retire_nextOp (k : Iss) (s : State) : (retire k s).nextOp = s.nextOp := by unfold retire; split <;> rfl

@[simp] theorem retireWith_stage (k : Iss) (s : State) (th : Thread) : (retireWith k s th).stage = s.stage := by simp [retireWith]
@[simp] theorem retireWith_cfgReady (k : Iss) (s : State) (th : Thread) : (retireWith k s th).cfgReady = s.cfgReady := by simp [retireWith]
@[simp] theorem retireWith_cause (k : Iss) (s : State) (th : Thread) : (retireWith k s th).cause = s.cause := by simp [retireWith]
@[simp] theorem retireWith_clockMHz (k : Iss) (s : State) (th : Thread) : (retireWith k s th).clockMHz = s.clockMHz := by simp [retireWith]
@[simp] theorem retireWith_clockAt (k : Iss) (s : State) (th : Thread) : (retireWith k s th).clockAt = s.clockAt := by simp [retireWith]
@[simp] theorem retireWith_plimit (k : Iss) (s : State) (th : Thread) : (retireWith k s th).plimit = s.plimit := by simp [retireWith]
@[simp] theorem retireWith_aopen (k : Iss) (s : State) (th : Thread) : (retireWith k s th).aopen = s.aopen := by simp [retireWith]
@[simp] theorem retireWith_invbase (k : Iss) (s : State) (th : Thread) : (retireWith k s th).invbase = s.invbase := by simp [retireWith]
@[simp] theorem retireWith_invlen (k : Iss) (s : State) (th : Thread) : (retireWith k s th).invlen = s.invlen := by simp [retireWith]
@[simp] theorem retireWith_invctx (k : Iss) (s : State) (th : Thread) : (retireWith k s th).invctx = s.invctx := by simp [retireWith]
@[simp] theorem retireWith_invgo (k : Iss) (s : State) (th : Thread) : (retireWith k s th).invgo = s.invgo := by simp [retireWith]
@[simp] theorem retireWith_invJob (k : Iss) (s : State) (th : Thread) : (retireWith k s th).invJob = s.invJob := by simp [retireWith]
@[simp] theorem retireWith_inverr (k : Iss) (s : State) (th : Thread) : (retireWith k s th).inverr = s.inverr := by simp [retireWith]
@[simp] theorem retireWith_invdone (k : Iss) (s : State) (th : Thread) : (retireWith k s th).invdone = s.invdone := by simp [retireWith]
@[simp] theorem retireWith_fusedMin (k : Iss) (s : State) (th : Thread) : (retireWith k s th).fusedMin = s.fusedMin := by simp [retireWith]
@[simp] theorem retireWith_cxlBytes (k : Iss) (s : State) (th : Thread) : (retireWith k s th).cxlBytes = s.cxlBytes := by simp [retireWith]
@[simp] theorem retireWith_cxlPorts (k : Iss) (s : State) (th : Thread) : (retireWith k s th).cxlPorts = s.cxlPorts := by simp [retireWith]
@[simp] theorem retireWith_peers (k : Iss) (s : State) (th : Thread) : (retireWith k s th).peers = s.peers := by simp [retireWith]
@[simp] theorem retireWith_devErrHead (k : Iss) (s : State) (th : Thread) : (retireWith k s th).devErrHead = s.devErrHead := by simp [retireWith]
@[simp] theorem retireWith_devErrTail (k : Iss) (s : State) (th : Thread) : (retireWith k s th).devErrTail = s.devErrTail := by simp [retireWith]
@[simp] theorem retireWith_devErrLost (k : Iss) (s : State) (th : Thread) : (retireWith k s th).devErrLost = s.devErrLost := by simp [retireWith]
@[simp] theorem retireWith_devErrs (k : Iss) (s : State) (th : Thread) : (retireWith k s th).devErrs = s.devErrs := by simp [retireWith]
@[simp] theorem retireWith_staged (k : Iss) (s : State) (th : Thread) : (retireWith k s th).staged = s.staged := by simp [retireWith]
@[simp] theorem retireWith_recover (k : Iss) (s : State) (th : Thread) : (retireWith k s th).recover = s.recover := by simp [retireWith]
@[simp] theorem retireWith_ats (k : Iss) (s : State) (th : Thread) : (retireWith k s th).ats = s.ats := by simp [retireWith]
@[simp] theorem retireWith_eccCounts (k : Iss) (s : State) (th : Thread) : (retireWith k s th).eccCounts = s.eccCounts := by simp [retireWith]
@[simp] theorem retireWith_cycle (k : Iss) (s : State) (th : Thread) : (retireWith k s th).cycle = s.cycle := by simp [retireWith]
@[simp] theorem retireWith_wall (k : Iss) (s : State) (th : Thread) : (retireWith k s th).wall = s.wall := by simp [retireWith]
@[simp] theorem retireWith_queues (k : Iss) (s : State) (th : Thread) : (retireWith k s th).queues = s.queues := by simp [retireWith]
@[simp] theorem retireWith_doorbells (k : Iss) (s : State) (th : Thread) : (retireWith k s th).doorbells = s.doorbells := by simp [retireWith]
@[simp] theorem retireWith_parts (k : Iss) (s : State) (th : Thread) : (retireWith k s th).parts = s.parts := by simp [retireWith]
@[simp] theorem retireWith_turn (k : Iss) (s : State) (th : Thread) : (retireWith k s th).turn = s.turn := by simp [retireWith]
@[simp] theorem retireWith_contexts (k : Iss) (s : State) (th : Thread) : (retireWith k s th).contexts = s.contexts := by simp [retireWith]
@[simp] theorem retireWith_launches (k : Iss) (s : State) (th : Thread) : (retireWith k s th).launches = s.launches := by simp [retireWith]
@[simp] theorem retireWith_gangs (k : Iss) (s : State) (th : Thread) : (retireWith k s th).gangs = s.gangs := by simp [retireWith]
@[simp] theorem retireWith_diesT (k : Iss) (s : State) (th : Thread) : (retireWith k s th).diesT = s.diesT := by simp [retireWith]
@[simp] theorem retireWith_slices (k : Iss) (s : State) (th : Thread) : (retireWith k s th).slices = s.slices := by simp [retireWith]
@[simp] theorem retireWith_homes (k : Iss) (s : State) (th : Thread) : (retireWith k s th).homes = s.homes := by simp [retireWith]
@[simp] theorem retireWith_remote (k : Iss) (s : State) (th : Thread) : (retireWith k s th).remote = s.remote := by simp [retireWith]
@[simp] theorem retireWith_sysOps (k : Iss) (s : State) (th : Thread) : (retireWith k s th).sysOps = s.sysOps := by simp [retireWith]
@[simp] theorem retireWith_broken (k : Iss) (s : State) (th : Thread) : (retireWith k s th).broken = s.broken := by simp [retireWith]
@[simp] theorem retireWith_orphans (k : Iss) (s : State) (th : Thread) : (retireWith k s th).orphans = s.orphans := by simp [retireWith]
@[simp] theorem retireWith_failed (k : Iss) (s : State) (th : Thread) : (retireWith k s th).failed = s.failed := by simp [retireWith]
@[simp] theorem retireWith_mem (k : Iss) (s : State) (th : Thread) : (retireWith k s th).mem = s.mem := by simp [retireWith]
@[simp] theorem retireWith_agenda (k : Iss) (s : State) (th : Thread) : (retireWith k s th).agenda = s.agenda := by simp [retireWith]
@[simp] theorem retireWith_focus (k : Iss) (s : State) (th : Thread) : (retireWith k s th).focus = s.focus := by simp [retireWith]
@[simp] theorem retireWith_sel (k : Iss) (s : State) (th : Thread) : (retireWith k s th).sel = s.sel := by simp [retireWith]
@[simp] theorem retireWith_stepNo (k : Iss) (s : State) (th : Thread) : (retireWith k s th).stepNo = s.stepNo := by simp [retireWith]
@[simp] theorem retireWith_nextTid (k : Iss) (s : State) (th : Thread) : (retireWith k s th).nextTid = s.nextTid := by simp [retireWith]
@[simp] theorem retireWith_nextLid (k : Iss) (s : State) (th : Thread) : (retireWith k s th).nextLid = s.nextLid := by simp [retireWith]
@[simp] theorem retireWith_nextOp (k : Iss) (s : State) (th : Thread) : (retireWith k s th).nextOp = s.nextOp := by simp [retireWith]

@[simp] theorem waitOn_stage (k : Iss) (s : State) (w : WaitOn) (x : WaitFor) : (waitOn k s w x).stage = s.stage := by unfold waitOn; split <;> rfl
@[simp] theorem waitOn_cfgReady (k : Iss) (s : State) (w : WaitOn) (x : WaitFor) : (waitOn k s w x).cfgReady = s.cfgReady := by unfold waitOn; split <;> rfl
@[simp] theorem waitOn_cause (k : Iss) (s : State) (w : WaitOn) (x : WaitFor) : (waitOn k s w x).cause = s.cause := by unfold waitOn; split <;> rfl
@[simp] theorem waitOn_clockMHz (k : Iss) (s : State) (w : WaitOn) (x : WaitFor) : (waitOn k s w x).clockMHz = s.clockMHz := by unfold waitOn; split <;> rfl
@[simp] theorem waitOn_clockAt (k : Iss) (s : State) (w : WaitOn) (x : WaitFor) : (waitOn k s w x).clockAt = s.clockAt := by unfold waitOn; split <;> rfl
@[simp] theorem waitOn_plimit (k : Iss) (s : State) (w : WaitOn) (x : WaitFor) : (waitOn k s w x).plimit = s.plimit := by unfold waitOn; split <;> rfl
@[simp] theorem waitOn_aopen (k : Iss) (s : State) (w : WaitOn) (x : WaitFor) : (waitOn k s w x).aopen = s.aopen := by unfold waitOn; split <;> rfl
@[simp] theorem waitOn_invbase (k : Iss) (s : State) (w : WaitOn) (x : WaitFor) : (waitOn k s w x).invbase = s.invbase := by unfold waitOn; split <;> rfl
@[simp] theorem waitOn_invlen (k : Iss) (s : State) (w : WaitOn) (x : WaitFor) : (waitOn k s w x).invlen = s.invlen := by unfold waitOn; split <;> rfl
@[simp] theorem waitOn_invctx (k : Iss) (s : State) (w : WaitOn) (x : WaitFor) : (waitOn k s w x).invctx = s.invctx := by unfold waitOn; split <;> rfl
@[simp] theorem waitOn_invgo (k : Iss) (s : State) (w : WaitOn) (x : WaitFor) : (waitOn k s w x).invgo = s.invgo := by unfold waitOn; split <;> rfl
@[simp] theorem waitOn_invJob (k : Iss) (s : State) (w : WaitOn) (x : WaitFor) : (waitOn k s w x).invJob = s.invJob := by unfold waitOn; split <;> rfl
@[simp] theorem waitOn_inverr (k : Iss) (s : State) (w : WaitOn) (x : WaitFor) : (waitOn k s w x).inverr = s.inverr := by unfold waitOn; split <;> rfl
@[simp] theorem waitOn_invdone (k : Iss) (s : State) (w : WaitOn) (x : WaitFor) : (waitOn k s w x).invdone = s.invdone := by unfold waitOn; split <;> rfl
@[simp] theorem waitOn_fusedMin (k : Iss) (s : State) (w : WaitOn) (x : WaitFor) : (waitOn k s w x).fusedMin = s.fusedMin := by unfold waitOn; split <;> rfl
@[simp] theorem waitOn_cxlBytes (k : Iss) (s : State) (w : WaitOn) (x : WaitFor) : (waitOn k s w x).cxlBytes = s.cxlBytes := by unfold waitOn; split <;> rfl
@[simp] theorem waitOn_cxlPorts (k : Iss) (s : State) (w : WaitOn) (x : WaitFor) : (waitOn k s w x).cxlPorts = s.cxlPorts := by unfold waitOn; split <;> rfl
@[simp] theorem waitOn_peers (k : Iss) (s : State) (w : WaitOn) (x : WaitFor) : (waitOn k s w x).peers = s.peers := by unfold waitOn; split <;> rfl
@[simp] theorem waitOn_devErrHead (k : Iss) (s : State) (w : WaitOn) (x : WaitFor) : (waitOn k s w x).devErrHead = s.devErrHead := by unfold waitOn; split <;> rfl
@[simp] theorem waitOn_devErrTail (k : Iss) (s : State) (w : WaitOn) (x : WaitFor) : (waitOn k s w x).devErrTail = s.devErrTail := by unfold waitOn; split <;> rfl
@[simp] theorem waitOn_devErrLost (k : Iss) (s : State) (w : WaitOn) (x : WaitFor) : (waitOn k s w x).devErrLost = s.devErrLost := by unfold waitOn; split <;> rfl
@[simp] theorem waitOn_devErrs (k : Iss) (s : State) (w : WaitOn) (x : WaitFor) : (waitOn k s w x).devErrs = s.devErrs := by unfold waitOn; split <;> rfl
@[simp] theorem waitOn_staged (k : Iss) (s : State) (w : WaitOn) (x : WaitFor) : (waitOn k s w x).staged = s.staged := by unfold waitOn; split <;> rfl
@[simp] theorem waitOn_recover (k : Iss) (s : State) (w : WaitOn) (x : WaitFor) : (waitOn k s w x).recover = s.recover := by unfold waitOn; split <;> rfl
@[simp] theorem waitOn_ats (k : Iss) (s : State) (w : WaitOn) (x : WaitFor) : (waitOn k s w x).ats = s.ats := by unfold waitOn; split <;> rfl
@[simp] theorem waitOn_eccCounts (k : Iss) (s : State) (w : WaitOn) (x : WaitFor) : (waitOn k s w x).eccCounts = s.eccCounts := by unfold waitOn; split <;> rfl
@[simp] theorem waitOn_cycle (k : Iss) (s : State) (w : WaitOn) (x : WaitFor) : (waitOn k s w x).cycle = s.cycle := by unfold waitOn; split <;> rfl
@[simp] theorem waitOn_wall (k : Iss) (s : State) (w : WaitOn) (x : WaitFor) : (waitOn k s w x).wall = s.wall := by unfold waitOn; split <;> rfl
@[simp] theorem waitOn_queues (k : Iss) (s : State) (w : WaitOn) (x : WaitFor) : (waitOn k s w x).queues = s.queues := by unfold waitOn; split <;> rfl
@[simp] theorem waitOn_doorbells (k : Iss) (s : State) (w : WaitOn) (x : WaitFor) : (waitOn k s w x).doorbells = s.doorbells := by unfold waitOn; split <;> rfl
@[simp] theorem waitOn_parts (k : Iss) (s : State) (w : WaitOn) (x : WaitFor) : (waitOn k s w x).parts = s.parts := by unfold waitOn; split <;> rfl
@[simp] theorem waitOn_turn (k : Iss) (s : State) (w : WaitOn) (x : WaitFor) : (waitOn k s w x).turn = s.turn := by unfold waitOn; split <;> rfl
@[simp] theorem waitOn_contexts (k : Iss) (s : State) (w : WaitOn) (x : WaitFor) : (waitOn k s w x).contexts = s.contexts := by unfold waitOn; split <;> rfl
@[simp] theorem waitOn_launches (k : Iss) (s : State) (w : WaitOn) (x : WaitFor) : (waitOn k s w x).launches = s.launches := by unfold waitOn; split <;> rfl
@[simp] theorem waitOn_gangs (k : Iss) (s : State) (w : WaitOn) (x : WaitFor) : (waitOn k s w x).gangs = s.gangs := by unfold waitOn; split <;> rfl
@[simp] theorem waitOn_diesT (k : Iss) (s : State) (w : WaitOn) (x : WaitFor) : (waitOn k s w x).diesT = s.diesT := by unfold waitOn; split <;> rfl
@[simp] theorem waitOn_slices (k : Iss) (s : State) (w : WaitOn) (x : WaitFor) : (waitOn k s w x).slices = s.slices := by unfold waitOn; split <;> rfl
@[simp] theorem waitOn_homes (k : Iss) (s : State) (w : WaitOn) (x : WaitFor) : (waitOn k s w x).homes = s.homes := by unfold waitOn; split <;> rfl
@[simp] theorem waitOn_remote (k : Iss) (s : State) (w : WaitOn) (x : WaitFor) : (waitOn k s w x).remote = s.remote := by unfold waitOn; split <;> rfl
@[simp] theorem waitOn_sysOps (k : Iss) (s : State) (w : WaitOn) (x : WaitFor) : (waitOn k s w x).sysOps = s.sysOps := by unfold waitOn; split <;> rfl
@[simp] theorem waitOn_broken (k : Iss) (s : State) (w : WaitOn) (x : WaitFor) : (waitOn k s w x).broken = s.broken := by unfold waitOn; split <;> rfl
@[simp] theorem waitOn_orphans (k : Iss) (s : State) (w : WaitOn) (x : WaitFor) : (waitOn k s w x).orphans = s.orphans := by unfold waitOn; split <;> rfl
@[simp] theorem waitOn_failed (k : Iss) (s : State) (w : WaitOn) (x : WaitFor) : (waitOn k s w x).failed = s.failed := by unfold waitOn; split <;> rfl
@[simp] theorem waitOn_mem (k : Iss) (s : State) (w : WaitOn) (x : WaitFor) : (waitOn k s w x).mem = s.mem := by unfold waitOn; split <;> rfl
@[simp] theorem waitOn_agenda (k : Iss) (s : State) (w : WaitOn) (x : WaitFor) : (waitOn k s w x).agenda = s.agenda := by unfold waitOn; split <;> rfl
@[simp] theorem waitOn_focus (k : Iss) (s : State) (w : WaitOn) (x : WaitFor) : (waitOn k s w x).focus = s.focus := by unfold waitOn; split <;> rfl
@[simp] theorem waitOn_sel (k : Iss) (s : State) (w : WaitOn) (x : WaitFor) : (waitOn k s w x).sel = s.sel := by unfold waitOn; split <;> rfl
@[simp] theorem waitOn_stepNo (k : Iss) (s : State) (w : WaitOn) (x : WaitFor) : (waitOn k s w x).stepNo = s.stepNo := by unfold waitOn; split <;> rfl
@[simp] theorem waitOn_nextTid (k : Iss) (s : State) (w : WaitOn) (x : WaitFor) : (waitOn k s w x).nextTid = s.nextTid := by unfold waitOn; split <;> rfl
@[simp] theorem waitOn_nextLid (k : Iss) (s : State) (w : WaitOn) (x : WaitFor) : (waitOn k s w x).nextLid = s.nextLid := by unfold waitOn; split <;> rfl
@[simp] theorem waitOn_nextOp (k : Iss) (s : State) (w : WaitOn) (x : WaitFor) : (waitOn k s w x).nextOp = s.nextOp := by unfold waitOn; split <;> rfl

@[simp] theorem retireWith_memOk (k : Iss) (s : State) (th : Thread) : (retireWith k s th).MemOk ↔ s.MemOk := by simp [State.MemOk]

/-! ## Where things stand after an update -/

theorem find?_map_tid (l : List Team) (tid x : Nat) (f : Team → Team) (hf : ∀ t, (f t).tid = t.tid) :
    (l.map (fun t => if t.tid = tid then f t else t)).find? (fun t => t.tid == x)
      = (l.find? (fun t => t.tid == x)).map (fun t => if t.tid = tid then f t else t) := by
  induction l with
  | nil => rfl
  | cons t r ih =>
    have h : (if t.tid = tid then f t else t).tid = t.tid := by split <;> simp [hf]
    by_cases hx : t.tid = x
    · have a : ((if t.tid = tid then f t else t).tid == x) = true := by rw [h]; simpa using hx
      have b : (t.tid == x) = true := by simpa using hx
      rw [List.map_cons, List.find?_cons, List.find?_cons]
      simp only [a, b, Option.map_some]
    · have a : ((if t.tid = tid then f t else t).tid == x) = false := by rw [h]; simpa using hx
      have b : (t.tid == x) = false := by simpa using hx
      rw [List.map_cons, List.find?_cons, List.find?_cons]
      simp only [a, b, ih]

/-- A team found again after a change that keeps its number. -/
theorem team?_modTeam (s : State) (tid x : Nat) (f : Team → Team) (hf : ∀ t, (f t).tid = t.tid) :
    (s.modTeam tid f).team? x = (s.team? x).map (fun t => if t.tid = tid then f t else t) :=
  find?_map_tid s.teams tid x f hf

theorem find?_map_role (l : List Section) (role x : Nat) (f : Section → Section) (hf : ∀ c, (f c).role = c.role) :
    (l.map (fun c => if c.role = role then f c else c)).find? (fun c => c.role == x)
      = (l.find? (fun c => c.role == x)).map (fun c => if c.role = role then f c else c) := by
  induction l with
  | nil => rfl
  | cons c r ih =>
    have h : (if c.role = role then f c else c).role = c.role := by split <;> simp [hf]
    by_cases hx : c.role = x
    · have a : ((if c.role = role then f c else c).role == x) = true := by rw [h]; simpa using hx
      have b : (c.role == x) = true := by simpa using hx
      rw [List.map_cons, List.find?_cons, List.find?_cons]
      simp only [a, b, Option.map_some]
    · have a : ((if c.role = role then f c else c).role == x) = false := by rw [h]; simpa using hx
      have b : (c.role == x) = false := by simpa using hx
      rw [List.map_cons, List.find?_cons, List.find?_cons]
      simp only [a, b, ih]

theorem team?_tid {s : State} {tid : Nat} {t : Team} (h : s.team? tid = some t) : t.tid = tid := by
  have := List.find?_some h
  simpa using this

/-- The section changed by an update that keeps its role. -/
theorem sec?_modSec_same (s : State) (tid role : Nat) (f : Section → Section) (hf : ∀ c, (f c).role = c.role) :
    (s.modSec tid role f).sec? tid role = (s.sec? tid role).map f := by
  unfold State.sec? State.modSec
  rw [team?_modTeam s tid tid (fun t => { t with secs := t.secs.map (fun c => if c.role = role then f c else c) }) (fun _ => rfl)]
  cases h : s.team? tid with
  | none => rfl
  | some t =>
    have ht := team?_tid h
    simp only [Option.map_some, Option.bind_some, ht, if_true]
    rw [find?_map_role _ _ _ _ hf]
    cases hc : t.secs.find? (fun c => c.role == role) with
    | none => rfl
    | some c =>
      have : c.role = role := by simpa using List.find?_some hc
      simp [this]

/-- A context after a change of one. -/
theorem ctxAt_modCtx (s : State) (c x : Nat) (f : Context → Context) :
    (s.modCtx c f).ctxAt x = if x = c then f (s.ctxAt c) else s.ctxAt x := tget_tset _ _ _ _ _

/-- A core after a change of one. -/
theorem coreAt_modCore (s : State) (d c d' c' : Nat) (f : Core → Core) :
    (s.modCore d c f).coreAt d' c' = if 64 * d' + c' = 64 * d + c then f (s.coreAt d c) else s.coreAt d' c' := tget_tset _ _ _ _ _

/-- A die after a change of one. -/
theorem dieAt_modDie (s : State) (d d' : Nat) (f : Die → Die) :
    (s.modDie d f).dieAt d' = if d' = d then f (s.dieAt d) else s.dieAt d' := tget_tset _ _ _ _ _

/-- A slice after a change of one. -/
theorem sliceAt_modSlice (s : State) (d i d' i' : Nat) (f : Slice → Slice) :
    (s.modSlice d i f).sliceAt d' i' = if 16 * d' + i' = 16 * d + i then f (s.sliceAt d i) else s.sliceAt d' i' := tget_tset _ _ _ _ _

/-! ## Issue -/

/-- An instruction without an issuer is the one fault; with one it answers its effect. -/
theorem issued_none {s : State} (f : Iss → State) (h : s.iss? = none) : issued s f = .fault .noIssuer := by simp [issued, h]

@[simp] theorem issued_some {s : State} {k : Iss} (f : Iss → State) (h : s.iss? = some k) : issued s f = .next (f k) := by
  simp [issued, h]

theorem issued_next_iff {s t : State} {f : Iss → State} : issued s f = .next t ↔ ∃ k, s.iss? = some k ∧ t = f k := by
  unfold issued
  cases s.iss? with
  | none => simp
  | some k => simp [eq_comm]

theorem issued_cases (s : State) (f : Iss → State) : issued s f = .fault .noIssuer ∨ ∃ t, issued s f = .next t := by
  unfold issued
  cases s.iss? with
  | none => exact .inl rfl
  | some k => exact .inr ⟨_, rfl⟩

/-- What an instruction under the guard can do (R206): a fault of its operands; nothing but its pass, with no lane active; its
effect. -/
theorem guardedForm_some (i : Instr) {s : State} {k : Iss} (dyn : Iss → Bool) (u : Iss → Uses) (idle : Iss → Thread)
    (eff : Iss → State) (h : s.iss? = some k) :
    guardedForm i s dyn u idle eff = .next (match issueFault k.th k.path k.act (wordOf i) (staticOk i) (dyn k) (u k) with
      | some x => raise k s x
      | none => if k.act = 0 then retireWith k s (idle k).advance else eff k) := by
  unfold guardedForm issued; rw [h] <;> rfl

/-- What a form that ignores the guard can do (R64, R328). -/
theorem pathForm_some (i : Instr) {s : State} {k : Iss} (dyn : Iss → Bool) (u : Iss → Uses) (eff : Iss → State)
    (h : s.iss? = some k) :
    pathForm i s dyn u eff = .next (match issueFault k.th k.path (if staticOk i then k.path else k.act) (wordOf i) (staticOk i) (dyn k) (u k) with
      | some x => raise k s x
      | none => if k.path = 0 then pass k s else eff k) := by
  unfold pathForm issued; rw [h] <;> rfl

/-- The checks of R206 pass: the word is well formed, a lane is active, and no register is amiss. -/
theorem issueFault_none {th : Thread} {path act : Mask} {w : Word} {u : Uses} (h : regFault th act u = none) :
    issueFault th path act w true true u = none := by
  unfold issueFault; by_cases ha : act = 0
  · rw [if_neg (by decide), if_pos ha]
  · rw [if_neg (by decide), if_neg ha, if_neg (by decide), h]

/-- With no lane active only the word can be at fault. -/
theorem issueFault_idle {th : Thread} {path : Mask} {w : Word} {dyn : Bool} {u : Uses} :
    issueFault th path 0 w true dyn u = none := by
  unfold issueFault; rw [if_neg (by decide), if_pos rfl]

/-- A form under the guard whose checks pass answers its effect. -/
theorem guardedForm_next (i : Instr) {s : State} {k : Iss} (dyn : Iss → Bool) (u : Iss → Uses) (idle : Iss → Thread)
    (eff : Iss → State) (h : s.iss? = some k) (hw : i.wellFormed = true) (ha : k.act ≠ 0) (hd : dyn k = true)
    (hu : regFault k.th k.act (u k) = none) : guardedForm i s dyn u idle eff = .next (eff k) := by
  rw [guardedForm_some i dyn u idle eff h, staticOk, hw, hd, issueFault_none hu]
  simp only [if_neg ha]

/-- With no lane active a well-formed form under the guard only passes, whatever its operands (R65, R206). -/
theorem guardedForm_idle (i : Instr) {s : State} {k : Iss} (dyn : Iss → Bool) (u : Iss → Uses) (idle : Iss → Thread)
    (eff : Iss → State) (h : s.iss? = some k) (hw : i.wellFormed = true) (ha : k.act = 0) :
    guardedForm i s dyn u idle eff = .next (retireWith k s (idle k).advance) := by
  rw [guardedForm_some i dyn u idle eff h, staticOk, hw]
  have hf : issueFault k.th k.path k.act (wordOf i) true (dyn k) (u k) = none := by rw [ha]; exact issueFault_idle
  rw [hf]; simp only [if_pos ha]

/-- A register form whose checks pass answers its new thread, retired. -/
theorem regForm_next (i : Instr) {s : State} {k : Iss} (dyn : Iss → Bool) (u : Iss → Uses) (f : Iss → Thread)
    (h : s.iss? = some k) (hw : i.wellFormed = true) (ha : k.act ≠ 0) (hd : dyn k = true) (hu : regFault k.th k.act (u k) = none) :
    regForm i s dyn u f = .next (retireWith k s (f k).advance) :=
  guardedForm_next i dyn u f _ h hw ha hd hu

/-- A form that ignores the guard, whose checks pass, answers its effect. -/
theorem pathForm_next (i : Instr) {s : State} {k : Iss} (dyn : Iss → Bool) (u : Iss → Uses) (eff : Iss → State)
    (h : s.iss? = some k) (hw : i.wellFormed = true) (hp : k.path ≠ 0) (hd : dyn k = true)
    (hu : regFault k.th k.path (u k) = none) : pathForm i s dyn u eff = .next (eff k) := by
  rw [pathForm_some i dyn u eff h, staticOk, hw, hd]
  simp only [if_true, issueFault_none hu, if_neg hp]

/-! ## Exceptions -/

/-- What taking an exception can do (R78, R79, R81, R383): the section enters its handler, or its context ends with DOUBLE. -/
theorem takeTrapAt_cases (s : State) (t : Team) (role : Nat) (how : EntryHow) (skip : SkipHow) (x : Trap) (c : Section)
    (hc : s.sec? t.tid role = some c) :
    (c.hmode = false ∧ (s.ctxAt t.ctx).trapent ≠ 0 ∧
      takeTrapAt s t role how skip x = s.modSec t.tid role (fun c =>
        enterHandler (recordTrap c c.th.pc x) how x.code skip
          (if c.state = .waiting then .waiting else if c.state = .ejectedPending then .ejectedPending else .running)
          (trapEntry (s.ctxAt t.ctx)) x.lanes)) ∨
    ((c.hmode = true ∨ (s.ctxAt t.ctx).trapent = 0) ∧
      ∃ d : Trap, d.code = cDOUBLE ∧ d.addr = x.addr ∧
        takeTrapAt s t role how skip x
          = endContext (s.modSec t.tid role (fun c => recordTrap c c.th.pc d)) t.ctx cDOUBLE x.addr (recBy 0x10 t role)) := by
  unfold takeTrapAt
  rw [hc]
  by_cases hh : c.hmode = true
  · exact .inr ⟨.inl hh, ⟨cDOUBLE, x.lanes, x.addr, _⟩, rfl, rfl, by simp only [hh, if_true]; rfl⟩
  · by_cases hz : (s.ctxAt t.ctx).trapent = 0
    · refine .inr ⟨.inr hz, ⟨cDOUBLE, x.lanes, x.addr, BitVec.ofNat 32 (256 * x.code)⟩, rfl, rfl, ?_⟩
      dsimp only
      rw [if_neg hh, if_pos hz]
    · refine .inl ⟨by simpa using hh, hz, ?_⟩
      dsimp only
      rw [if_neg hh, if_neg hz]

end Sys2Proof.Machine
end

