-- ==== Sys2Proof/Laws/Access.lean ====
section
/-!
SUPPORT. One lemma for each shared operation of an access to memory: what it answers when nothing waits and nothing faults.
-/

namespace Sys2Proof.Machine

/-! ## Uncorrected errors -/

theorem eccAt_nil {s : State} (h : s.failed = []) (sp : Spot) (n : Nat) : s.eccAt sp n = false := by
  unfold State.eccAt; rw [h]; rfl

theorem failedIn_nil {s : State} (h : s.failed = []) (tid : Nat) (rs : List (Nat × Nat)) : s.failedIn tid rs = none := by
  unfold State.failedIn; rw [h]; rfl

/-- Good data is read as it stands. -/
theorem eccOf_good {s : State} {n : Nat} (reads : Bool) (e : Elem) (r : Ready) (h : ∀ sp, s.eccAt sp n = false) : s.eccOf reads n e r = r := by
  unfold State.eccOf
  cases r <;> simp [h]

theorem unlessFailed_go {s : State} {k : Iss} {rs : List (Nat × Nat)} (h : s.failedIn k.team.tid rs = none) (m : Mask) (go : Unit → State) :
    unlessFailed k s m rs go = go () := by
  unfold unlessFailed; rw [h]

/-! ## Reads of scratchpad as a whole -/

theorem whenPresent_go {s : State} {k : Iss} {ls : List Nat} (ho : s.ownRemote k (.team k.team.tid 0) 1 = false)
    (ht : touch s k.team.tid ls = .ok) (m : Mask) (go : Unit → State) : whenPresent k s m ls go = go () := by
  unfold whenPresent; rw [ho, ht]; rfl

theorem whenRead_go {s : State} {k : Iss} {rs : List (Nat × Nat)} (ho : s.ownRemote k (.team k.team.tid 0) 1 = false)
    (ht : touch s k.team.tid (rs.flatMap (fun r => rangeLines r.1 r.2)) = .ok) (hf : s.failedIn k.team.tid rs = none) (m : Mask) (go : Unit → State) :
    whenRead k s m rs go = go () := by
  unfold whenRead; rw [whenPresent_go ho ht, unlessFailed_go hf]

/-! ## Elements -/

/-- The element can complete now: its place is known and open, or its value is there. -/
def opens : Ready → Bool
  | .spot .. | .val _ | .got _ => true
  | _ => false

/-- The elements keep their order and their lanes. -/
theorem readyAll_fst (s : State) (k : Iss) (f : Form) (sys : Option Bool) (n : Nat) (es : List Elem) :
    (s.readyAll k f sys n es).map Prod.fst = es := by
  unfold State.readyAll
  rw [List.map_map]
  conv => rhs; rw [← List.map_id es]
  apply List.map_congr_left
  intro e _
  simp only [Function.comp, id]
  split
  · rfl
  · rfl
  · split <;> rfl

theorem trapOf_none (rs : List (Elem × Ready)) (h : ∀ x ∈ rs, opens x.2 = true) : trapOf rs = none := by
  unfold trapOf
  rw [Option.map_eq_none_iff]
  induction rs with
  | nil => rfl
  | cons x r ih =>
    rw [List.foldl_cons]
    have hx := h x List.mem_cons_self
    revert hx
    cases hx2 : x.2 <;> simp [opens] <;> exact ih (fun y hy => h y (List.mem_cons_of_mem _ hy))

theorem okLanes_all (rs : List (Elem × Ready)) (h : ∀ x ∈ rs, opens x.2 = true) : okLanes rs = rs.map (fun x => x.1.lane) := by
  unfold okLanes
  induction rs with
  | nil => rfl
  | cons x r ih =>
    have hx := h x List.mem_cons_self
    have ih := ih (fun y hy => h y (List.mem_cons_of_mem _ hy))
    rw [List.filterMap_cons, List.map_cons]
    revert hx
    cases hx2 : x.2 <;> simp [opens] <;> exact ih

theorem waitsFor_none (k : Iss) (s : State) (op : MemOp) (f : Form) (rs : List (Elem × Ready)) (h : ∀ x ∈ rs, opens x.2 = true) :
    waitsFor k s op f rs [] = none := by
  have nil : ∀ {β : Type} (f : Elem × Ready → Option β), (∀ x ∈ rs, f x = none) → rs.filterMap f = [] := fun f hf => List.filterMap_eq_nil_iff.2 hf
  have some : ∀ {β : Type} (f : Elem × Ready → Option β), (∀ x ∈ rs, f x = none) → rs.findSome? f = none := fun f hf => List.findSome?_eq_none_iff.2 hf
  have any : ∀ f : Elem × Ready → Bool, (∀ x ∈ rs, f x = false) → rs.any f = false := fun f hf => by
    rw [List.any_eq_false]; intro x hx; rw [hf x hx]; decide
  unfold waitsFor
  rw [any, List.append_nil, trapOf_none rs h, nil, nil, some, any]
  · rfl
  all_goals
    intro x hx
    have := h x hx
    revert this
    cases x.2 <;> simp [opens]

/-- The end of an access that nothing stopped: what the host and page homes answered has been used, and the instruction retires. -/
theorem accessEnd_none (k : Iss) (s : State) (th : Thread) (rs : List (Elem × Ready)) (h : trapOf rs = none) :
    accessEnd k s th rs = retireWith k (hostOver k (s.homesServed k.team.tid k.homeKey)) th.advance := by
  unfold accessEnd; rw [h]

/-- The lanes of M-format elements. -/
theorem mElem_lanes (k : Iss) (win : Window) (m : BitVec 5) (o : Sel) (e i : Nat) (f g : Nat → DWord) (ls : List Nat) :
    (ls.map (fun l => mElem k win m o e i l (f l) (g l))).map Elem.lane = ls := by
  rw [List.map_map]
  conv => rhs; rw [← List.map_id ls]
  apply List.map_congr_left
  intro l _
  cases win <;> rfl

/-- With every active lane done, the write-back is that of the instruction. -/
theorem putSome_all (k : Iss) (n w : Bool) (d : Sel) (oks : List Nat) (ho : maskOf oks = k.act) (f : Nat → DWord) :
    putSome k n w d oks f = k.th.putResult n w k.path k.act d f := by
  unfold putSome; rw [if_pos ho]

/-! ## Walks -/

/-- A walk every lane of which got something goes on with what they got. -/
theorem settleWalk_ok {α : Type} (k : Iss) (s s' : State) (size : Nat) (oks : List (Nat × α)) (go : State → List (Nat × α) → List (Elem × Ready) → State) :
    settleWalk k s size (oks.map (fun x => (x.1, Except.ok x.2)), s') go = go s' oks [] := by
  unfold settleWalk
  dsimp only
  have e1 : ∀ (f : Nat × Except Stop α → Option (Elem × Ready)), (∀ x v, f (x, .ok v) = none) → (oks.map (fun x => (x.1, (Except.ok x.2 : Except Stop α)))).filterMap f = [] := by
    intro f hf; rw [List.filterMap_eq_nil_iff]; intro x hx; obtain ⟨y, _, rfl⟩ := List.mem_map.1 hx; exact hf _ _
  have e3 : ∀ (f : Nat × Except Stop α → Option (Nat × α)), (∀ x v, f (x, .ok v) = some (x, v)) → (oks.map (fun x => (x.1, (Except.ok x.2 : Except Stop α)))).filterMap f = oks := by
    intro f hf
    rw [List.filterMap_map]
    conv => rhs; rw [← List.filterMap_some (l := oks)]
    congr 1; funext x; exact hf _ _
  rw [e1 _ (fun _ _ => rfl), e3 _ (fun _ _ => rfl)]
  simp only [List.filter_nil, waitsFor_none k s _ _ [] (by simp)]

/-! ## Sections and issuers -/

theorem sec?_role {s : State} {tid role : Nat} {c : Section} (h : s.sec? tid role = some c) : c.role = role := by
  unfold State.sec? at h
  cases ht : s.team? tid with
  | none => rw [ht] at h; cases h
  | some u => rw [ht] at h; simpa using List.find?_some h

theorem ctxAt_congr {a b : State} (h : a.contexts = b.contexts) (c : Nat) : a.ctxAt c = b.ctxAt c := by unfold State.ctxAt; rw [h]

/-! ## The fetch -/

/-- A word that is fetched leaves every field but the cores as it was. -/
theorem fetchWord_frame {s s1 : State} {t : Team} {key va : Nat} {w : Word} (h : fetchWord s t key va = .word w s1) :
    { s1 with cores := s.cores } = s := by
  revert h
  unfold fetchWord
  repeat' split
  all_goals
    intro h
    first
      | injection h with _ e; rw [← e]; rfl
      | injection h with _ e; rw [← e]
      | nomatch h

end Sys2Proof.Machine
end

