-- ==== Sys2Proof/Laws/Memory.lean ====
section
/-!
SUPPORT. Physical memory keeps its canonical form: one lemma for each operation, which either leaves memory as it is (`_mem`) or keeps
the form (`_wf`).
-/

namespace Sys2Proof.Machine

theorem foldl_mem {β : Type} (l : List β) (f : State → β → State) (s : State) (hf : ∀ s x, (f s x).mem = s.mem) : (l.foldl f s).mem = s.mem := by
  induction l generalizing s with
  | nil => rfl
  | cons x r ih => rw [List.foldl_cons, ih, hf]

theorem foldl_mem2 {α β : Type} (l : List β) (f : α × State → β → α × State) (p : α × State) (hf : ∀ p x, (f p x).2.mem = p.2.mem) : (l.foldl f p).2.mem = p.2.mem := by
  induction l generalizing p with
  | nil => rfl
  | cons x r ih => rw [List.foldl_cons, ih, hf]

theorem foldl_wf {β : Type} (l : List β) (f : State → β → State) (s : State) (hf : ∀ s x, Memory.wf s.mem = true → Memory.wf (f s x).mem = true)
    (h : Memory.wf s.mem = true) : Memory.wf (l.foldl f s).mem = true := by
  induction l generalizing s with
  | nil => exact h
  | cons x r ih => rw [List.foldl_cons]; exact ih _ (hf _ _ h)

theorem foldl_wf2 {α β : Type} (l : List β) (f : α × State → β → α × State) (p : α × State)
    (hf : ∀ p x, Memory.wf p.2.mem = true → Memory.wf (f p x).2.mem = true) (h : Memory.wf p.2.mem = true) : Memory.wf (l.foldl f p).2.mem = true := by
  induction l generalizing p with
  | nil => exact h
  | cons x r ih => rw [List.foldl_cons]; exact ih _ (hf _ _ h)

@[simp] theorem physWrite_wf (s : State) (pa : Nat) (bs : List Byte) (h : Memory.wf s.mem = true) : Memory.wf (s.physWrite pa bs).mem = true := physWrite_memOk s pa bs h

@[simp] theorem writeBytes_wf' (m : List Host.Cell) (a : Nat) (bs : List Byte) (h : Memory.wf m = true) : Memory.wf (writeBytes m a bs) = true := writeBytes_wf m a bs h

@[simp] theorem writeNat_wf' (m : List Host.Cell) (a n v : Nat) (h : Memory.wf m = true) : Memory.wf (writeNat m a n v) = true := writeNat_wf m a n v h

theorem ite_mem (s a b : State) (c : Prop) [Decidable c] (ha : a.mem = s.mem) (hb : b.mem = s.mem) : (if c then a else b).mem = s.mem := by
  split <;> assumption

theorem ite_wf (a b : State) (c : Prop) [Decidable c] (ha : Memory.wf a.mem = true) (hb : Memory.wf b.mem = true) : Memory.wf (if c then a else b).mem = true := by
  split <;> assumption

theorem filter_wf' (m : List Host.Cell) (p : Host.Cell → Bool) (h : Memory.wf m = true) : Memory.wf (m.filter p) = true := filter_wf 0 p m h

@[simp] theorem homesServed_mem (s : State) (tid role : Nat) : (State.homesServed s tid role).mem = s.mem := by
  unfold State.homesServed
  rfl

@[simp] theorem pass_mem (k : Iss) (s : State) : (pass k s).mem = s.mem := by
  unfold pass
  simp [foldl_mem]

@[simp] theorem postDev_mem (s : State) (r : Rec) : (State.postDev s r).mem = s.mem := by
  unfold State.postDev
  (repeat' split) <;> first | rfl | (simp [foldl_mem]; done)

@[simp] theorem freeBytes_wf (s : State) (pa n : Nat) (hwf : Memory.wf s.mem = true) : Memory.wf (s.freeBytes pa n).mem = true := by
  unfold State.freeBytes
  exact physWrite_wf s pa _ hwf

@[simp] theorem spillRecall_wf (s : State) (t : Team) (role n : Nat) (hwf : Memory.wf s.mem = true) : Memory.wf (s.spillRecall t role n).mem = true := by
  unfold State.spillRecall
  (repeat' split) <;> with_reducible first | exact hwf | exact freeBytes_wf _ _ _ hwf

@[simp] theorem recallLane_wf (s : State) (d c : Nat) (r : LanternRec) (hwf : Memory.wf s.mem = true) : Memory.wf (recallLane s d c r).mem = true := by
  unfold recallLane
  dsimp only
  rw [modSec_mem]
  split
  · exact spillRecall_wf _ _ _ _ hwf
  · exact hwf

@[simp] theorem recallQuiet_wf (k : Iss) (s : State) (hwf : Memory.wf s.mem = true) : Memory.wf (recallQuiet k s).mem = true := by
  unfold recallQuiet
  (repeat' split) <;> first | exact hwf | (simp [hwf]; done)

@[simp] theorem freeGroups_mem (s : State) (tid : Nat) : (freeGroups s tid).mem = s.mem := by
  unfold freeGroups
  rfl

@[simp] theorem dropLineAll_mem (s : State) (line : Nat) : (State.dropLineAll s line).mem = s.mem := by
  unfold State.dropLineAll
  rfl

@[simp] theorem dropLine_mem (s : State) (d c line : Nat) : (State.dropLine s d c line).mem = s.mem := by
  unfold State.dropLine
  rfl

@[simp] theorem cachePut_mem (s : State) (d c : Nat) (bs : List (Nat × Byte)) : (State.cachePut s d c bs).mem = s.mem := by
  unfold State.cachePut
  rfl

@[simp] theorem dropSlice_mem (s : State) (line : Nat) : (State.dropSlice s line).mem = s.mem := by
  unfold State.dropSlice
  rfl

@[simp] theorem startBound_mem (s : State) (t : Team) (i : Nat) (r : Region) : (startBound s t i r).mem = s.mem := by
  unfold startBound
  dsimp only; (repeat' split) <;> first | rfl | (simp [foldl_mem]; done)

@[simp] theorem pmAdd_mem (s : State) (d c ev n : Nat) : (State.pmAdd s d c ev n).mem = s.mem := by
  unfold State.pmAdd
  dsimp only; (repeat' split) <;> first | rfl | (simp [foldl_mem]; done)

@[simp] theorem askHome_mem (s : State) (ctx va : Nat) (who : List (Nat × Nat)) : (State.askHome s ctx va who).mem = s.mem := by
  unfold State.askHome
  dsimp only; (repeat' split) <;> rfl

@[simp] theorem hostOver_mem (k : Iss) (s : State) : (hostOver k s).mem = s.mem := by
  unfold hostOver
  (repeat' split) <;> first | rfl | (simp [foldl_mem]; done)

@[simp] theorem setGang_mem (s : State) (g : Gang) : (State.setGang s g).mem = s.mem := by
  unfold State.setGang
  rfl

@[simp] theorem openGang_mem (s : State) (lid key : Nat) : (State.openGang s lid key).mem = s.mem := by
  unfold State.openGang
  dsimp only; (repeat' split) <;> first | rfl | (simp [foldl_mem]; done)

@[simp] theorem gangArrive_mem (s : State) (t : Team) : (State.gangArrive s t).mem = s.mem := by
  unfold State.gangArrive
  dsimp only; (repeat' split) <;> first | rfl | (simp [foldl_mem]; done)

@[simp] theorem gangAfter_mem (s : State) (tid : Nat) (before : Bool) : (State.gangAfter s tid before).mem = s.mem := by
  unfold State.gangAfter
  (repeat' split) <;> first | rfl | (simp [foldl_mem]; done)

@[simp] theorem modRec_mem (k : Iss) (s : State) (f : LanternRec → LanternRec) : (modRec k s f).mem = s.mem := by
  unfold modRec
  (repeat' split) <;> first | rfl | (simp [foldl_mem]; done)

@[simp] theorem jump_mem (k : Iss) (s : State) (pc : DWord) : (jump k s pc).mem = s.mem := by
  unfold jump
  simp [foldl_mem]

@[simp] theorem setAside_mem (k : Iss) (s : State) (e : Entry) (others set : Mask) (again : Bool) : (setAside k s e others set again).mem = s.mem := by
  unfold setAside
  rfl

@[simp] theorem sendStatus_mem (k : Iss) (s : State) (d : Sel) (act : Mask) (st : Nat) : (sendStatus k s d act st).mem = s.mem := by
  unfold sendStatus
  simp [foldl_mem]

@[simp] theorem waitTurn_mem (s : State) (ctx : Nat) (va : Option Nat) : (s.waitTurn ctx va).mem = s.mem := by
  unfold State.waitTurn
  split <;> simp

@[simp] theorem opDone_mem (s : State) (tid role id : Nat) : (s.opDone tid role id).mem = s.mem := by
  unfold State.opDone
  split <;> simp

@[simp] theorem unpromote_mem (s : State) (k : Iss) (rs : List (Elem × Ready)) : (s.unpromote k rs).mem = s.mem := by
  unfold State.unpromote
  dsimp only
  split <;> simp

@[simp] theorem serve_mem (k : Iss) (s : State) (op : MemOp) (isLoad : Bool) (part : Option Nat) (vs : List (Nat × DWord)) :
    (serve k s op isLoad part vs).mem = s.mem := by
  unfold serve
  simp

theorem hostCounted_mem {k : Iss} {s : State} {f : Form} {x : Option Nat × State} (h : hostCounted k s f = some x) : x.2.mem = s.mem := by
  unfold hostCounted at h
  dsimp only at h
  split at h
  · rw [← Option.some.inj h]
  · split at h
    · exact nomatch h
    · rw [← Option.some.inj h]; simp

@[simp] theorem sideLog_mem (s : State) (k : Iss) (id : Nat) (op : MemOp) (ls : List (Nat × LaneOp)) : (s.sideLog k id op ls).mem = s.mem := by
  unfold State.sideLog
  dsimp only
  split
  · rfl
  · rw [foldl_mem _ _ _ (fun s x => askHome_mem _ _ _ _), modOwn_mem]

@[simp] theorem dropBoth_mem (s : State) (t : Team) (sp : Spot) : (dropBoth s t sp).mem = s.mem := by
  unfold dropBoth
  dsimp only
  split <;> simp [foldl_mem]

@[simp] theorem leaveCleared_mem (k : Iss) (s : State) (join : Option DWord) (set : Mask) : (leaveCleared k s join set).mem = s.mem := by
  unfold leaveCleared
  split <;> simp

@[simp] theorem copyGone_mem (s : State) (die core : Nat) (c : Copy) : (copyGone s die core c).mem = s.mem := by
  unfold copyGone
  (repeat' split) <;> first | rfl | (simp [foldl_mem]; done)

@[simp] theorem modCopy_mem (s : State) (die core id : Nat) (f : Copy → Copy) : (modCopy s die core id f).mem = s.mem := by
  unfold modCopy
  rfl

@[simp] theorem copyBar_mem (s : State) (c : Copy) (f : TBar → TBar) : (copyBar s c f).mem = s.mem := by
  unfold copyBar
  (repeat' split) <;> first | rfl | (simp [foldl_mem]; done)

@[simp] theorem lineDone_mem (s : State) (c : Copy) (fin : List Nat) : (lineDone s c fin).mem = s.mem := by
  unfold lineDone
  rfl

@[simp] theorem copyDone_mem (s : State) (die core : Nat) (c : Copy) : (copyDone s die core c).mem = s.mem := by
  unfold copyDone
  (repeat' split) <;> first | rfl | (simp [foldl_mem]; done)

@[simp] theorem landed_mem (s : State) (die core : Nat) (c : Copy) (i : Nat) : (landed s die core c i).mem = s.mem := by
  unfold landed
  dsimp only; (repeat' split) <;> first | rfl | (simp [foldl_mem]; done)

@[simp] theorem overtake_mem (s : State) (die core : Nat) (c : Copy) (offs : List Nat) : (overtake s die core c offs).mem = s.mem := by
  unfold overtake
  dsimp only
  split
  · split <;> rfl
  · rfl

@[simp] theorem fillBytes_mem (s : State) (c : Copy) (tid : Nat) (xs : List (Nat × Byte)) : (fillBytes s c tid xs).mem = s.mem := by
  unfold fillBytes
  rfl

@[simp] theorem dieWrite_mem (s : State) (a : Nat) (bs : List Byte) : (State.dieWrite s a bs).mem = s.mem := by
  unfold State.dieWrite
  rfl

@[simp] theorem putSpan_mem (s : State) (dst : Nat) (c : Composite) (img : Table Byte) (lo n : Nat) : (State.putSpan s dst c img lo n).mem = s.mem := by
  unfold State.putSpan
  rfl

@[simp] theorem setComp_mem (s : State) (die i : Nat) (c : Option Composite) : (State.setComp s die i c).mem = s.mem := by
  unfold State.setComp
  rfl

@[simp] theorem compDone_mem (s : State) (c : Composite) : (compDone s c).mem = s.mem := by
  unfold compDone
  rfl

@[simp] theorem dbgMark_mem (s : State) (ctx : Nat) (bad : Bool) : (dbgMark s ctx bad).mem = s.mem := by
  unfold dbgMark
  rfl

@[simp] theorem dbgLane_mem (s : State) (t : Team) (c : Section) (l : Nat) (f : Thread → Thread) : (dbgLane s t c l f).mem = s.mem := by
  unfold dbgLane
  (repeat' split) <;> first | rfl | (simp [foldl_mem]; done)

@[simp] theorem partDone_mem (s : State) (tid role id : Nat) : (State.partDone s tid role id).mem = s.mem := by
  unfold State.partDone
  (repeat' split) <;> first | rfl | (simp [foldl_mem]; done)

@[simp] theorem accumulate_mem (s : State) (t : Team) (role : Nat) (op : MemOp) (x : LaneOp) : (State.accumulate s t role op x).mem = s.mem := by
  unfold State.accumulate
  (repeat' split) <;> first | rfl | (simp [foldl_mem]; done)

@[simp] theorem hostStep_mem (s : State) (tid role : Nat) (h : HostReq) : (hostStep s tid role h).mem = s.mem := by
  unfold hostStep
  rfl

@[simp] theorem hostTwin_mem (s : State) (tid role : Nat) (h : HostReq) : (hostTwin s tid role h).mem = s.mem := by
  unfold hostTwin
  (repeat' split) <;> first | rfl | (simp [foldl_mem]; done)

@[simp] theorem hostFail_mem (s : State) (tid role : Nat) (h : HostReq) (x : LaneOp) (code : BitVec 8) : (hostFail s tid role h x code).mem = s.mem := by
  unfold hostFail
  simp [foldl_mem]

@[simp] theorem dropTlb_mem (s : State) (ctx base len : Nat) : (State.dropTlb s ctx base len).mem = s.mem := by
  unfold State.dropTlb
  rfl

@[simp] theorem moved_mem (s : State) (ctx base : Nat) : (State.moved s ctx base).mem = s.mem := by
  unfold State.moved
  rfl

@[simp] theorem unlog_mem (s : State) (o : Orphan) (gone : Bool) : (s.unlog o gone).mem = s.mem := by
  unfold State.unlog
  (repeat' split) <;> first | rfl | (simp [foldl_mem]; done)

@[simp] theorem stow_mem (s : State) (t : Team) : (stow s t).mem = s.mem := by
  unfold stow
  rfl

@[simp] theorem unstow_mem (s : State) (t : Team) : (unstow s t).mem = s.mem := by
  unfold unstow
  rfl

@[simp] theorem withdraw_mem (s : State) (t : Team) : (withdraw s t).mem = s.mem := by
  unfold withdraw
  dsimp only; (repeat' split) <;> first | rfl | (simp [foldl_mem]; done)

@[simp] theorem discard_mem (s : State) (t : Team) : (discard s t).mem = s.mem := by
  unfold discard
  simp [foldl_mem]

@[simp] theorem acceptLaunch_mem (s : State) (ctx q part : Nat) (number : Word) (p : Packet) (kvals : List Byte) (kd : List Word) : (acceptLaunch s ctx q part number p kvals kd).mem = s.mem := by
  unfold acceptLaunch
  rfl

@[simp] theorem zeroRange_wf (s : State) (pa n : Nat) (hwf : Memory.wf s.mem = true) : Memory.wf (s.zeroRange pa n).mem = true :=
  filter_wf' _ _ hwf

@[simp] theorem zeroPriv_wf (s : State) (t : Team) (base : Nat) (hwf : Memory.wf s.mem = true) : Memory.wf (s.zeroPriv t base).mem = true := by
  unfold State.zeroPriv
  refine foldl_wf _ _ _ (fun s x h => ?_) hwf
  dsimp only
  split
  · exact zeroRange_wf _ _ _ h
  · exact h

@[simp] theorem enterTeam_wf (s : State) (t : Team) (hwf : Memory.wf s.mem = true) : Memory.wf (enterTeam s t).mem = true := by
  unfold enterTeam
  dsimp only
  rw [modCore_mem]
  exact ite_wf _ _ _ (zeroPriv_wf _ _ _ hwf) hwf

@[simp] theorem drainDone_mem (s : State) (t : Team) : (drainDone s t).mem = s.mem := by
  unfold drainDone
  rfl

@[simp] theorem shadowDrainDone_mem (s : State) (t : Team) : (shadowDrainDone s t).mem = s.mem := by
  unfold shadowDrainDone
  dsimp only
  split <;> rfl

@[simp] theorem postReq_mem (s : State) (t : Team) (role : Nat) (num : Nat) (nowait : Bool) (replyW : DWord) (blocks : List (List Byte)) (id : Nat) : (postReq s t role num nowait replyW blocks id).mem = s.mem := by
  unfold postReq
  rfl

@[simp] theorem postWaiting_mem (s : State) (t : Team) (role : Nat) (l : List (List Byte)) : (postWaiting s t role l).mem = s.mem := by
  unfold postWaiting
  dsimp only; (repeat' split) <;> first | rfl | (simp [foldl_mem]; done)

@[simp] theorem enableCtx_mem (s : State) (c part : Nat) : (enableCtx s c part).mem = s.mem := by
  unfold enableCtx
  rfl

@[simp] theorem writeInv_mem (s : State) (off size new : Nat) : (writeInv s off size new).mem = s.mem := by
  unfold writeInv
  dsimp only; (repeat' split) <;> first | rfl | (simp [foldl_mem]; done)

@[simp] theorem writeQctl_mem (s : State) (q v : Nat) : (writeQctl s q v).mem = s.mem := by
  unfold writeQctl
  dsimp only; (repeat' split) <;> first | rfl | (simp [foldl_mem]; done)

@[simp] theorem bootFail_mem (s : State) (cause : Nat) : (bootFail s cause).mem = s.mem := by
  unfold bootFail
  rfl

@[simp] theorem tilePut_mem (k : Iss) (s : State) (off : Nat) (bs : List Byte) : (tilePut k s off bs).mem = s.mem := by
  unfold tilePut
  rfl

@[simp] theorem memOver_mem (k : Iss) (s : State) : (memOver k s).mem = s.mem := by
  unfold memOver
  simp [foldl_mem]

@[simp] theorem fenceDrop_mem (k : Iss) (s : State) (scope : Nat) : (fenceDrop k s scope).mem = s.mem := by
  unfold fenceDrop
  (repeat' split) <;> first | rfl | (simp [foldl_mem]; done)

@[simp] theorem leaveBar_mem (k : Iss) (s : State) (gang : Bool) : (leaveBar k s gang).mem = s.mem := by
  unfold leaveBar
  simp [foldl_mem]

@[simp] theorem perfCycles_mem (s : State) (d c n : Nat) : (perfCycles s d c n).mem = s.mem := by
  unfold perfCycles
  dsimp only; (repeat' split) <;> first | rfl | (simp [foldl_mem]; done)

@[simp] theorem tick_mem (s : State) : (tick s).mem = s.mem := by
  unfold tick
  (repeat' split) <;> first | rfl | (simp [foldl_mem]; done)

@[simp] theorem markIssue_mem (s : State) (t : Team) (c : Section) (m : Mask) : (markIssue s t c m).mem = s.mem := by
  unfold markIssue
  simp [foldl_mem]

@[simp] theorem sysWrite_wf (s : State) (ctx va : Nat) (bs : List Byte) (hwf : Memory.wf s.mem = true) : Memory.wf (State.sysWrite s ctx va bs).mem = true := by
  unfold State.sysWrite
  (repeat' split) <;> first | exact hwf | (simp [foldl_wf, hwf]; done)

@[simp] theorem post_wf (s : State) (r : Rec) (hwf : Memory.wf s.mem = true) : Memory.wf (State.post s r).mem = true := by
  unfold State.post
  dsimp only; (repeat' split) <;> first | exact hwf | (simp [foldl_wf, hwf]; done)

@[simp] theorem endContext_wf (s : State) (ctx : Nat) (code : Nat) (addr : DWord) (r : Rec) (hwf : Memory.wf s.mem = true) : Memory.wf (endContext s ctx code addr r).mem = true := by
  unfold endContext
  (repeat' split) <;> first | exact hwf | (simp [foldl_wf, hwf]; done)

@[simp] theorem takeTrapAt_wf (s : State) (t : Team) (role : Nat) (how : EntryHow) (skip : SkipHow) (x : Trap) (hwf : Memory.wf s.mem = true) : Memory.wf (takeTrapAt s t role how skip x).mem = true := by
  unfold takeTrapAt
  dsimp only; (repeat' split) <;> first | exact hwf | (simp [foldl_wf, hwf]; done)

@[simp] theorem raiseWith_wf (k : Iss) (s : State) (skip : SkipHow) (x : Trap) (hwf : Memory.wf s.mem = true) : Memory.wf (raiseWith k s skip x).mem = true := by
  unfold raiseWith
  (repeat' split) <;> first | exact hwf | (simp [foldl_wf, hwf]; done)

@[simp] theorem raise_wf (k : Iss) (s : State) (x : Trap) (hwf : Memory.wf s.mem = true) : Memory.wf (raise k s x).mem = true := by
  unfold raise
  simp [foldl_wf, hwf]

@[simp] theorem writeBack_wf (s : State) (line : Nat) (hwf : Memory.wf s.mem = true) : Memory.wf (s.writeBack line).mem = true := by
  unfold State.writeBack
  split
  · exact hwf
  · exact (modSlice_mem _ _ _ _).symm ▸ foldl_wf _ _ _ (fun s x h => by split; exact physWrite_wf _ _ _ h; exact h) hwf

@[simp] theorem takeSlice_wf (s : State) (line : Nat) (data : List Byte) (hwf : Memory.wf s.mem = true) : Memory.wf (s.takeSlice line data).mem = true := by
  unfold State.takeSlice
  dsimp only
  rw [modSlice_mem]
  (repeat' split) <;> simp [hwf]

@[simp] theorem clearLines_wf (s : State) (ls : List Nat) (hwf : Memory.wf s.mem = true) : Memory.wf (s.clearLines ls).mem = true :=
  foldl_wf _ _ _ (fun s x h => by simp [h]) hwf

@[simp] theorem homePut_wf (s : State) (pa : Nat) (b : Byte) (hwf : Memory.wf s.mem = true) : Memory.wf (State.homePut s pa b).mem = true := by
  unfold State.homePut
  dsimp only; (repeat' split) <;> first | exact hwf | (simp [foldl_wf, hwf]; done)

@[simp] theorem homeWrite_wf (s : State) (bs : List (Nat × Byte)) (hwf : Memory.wf s.mem = true) : Memory.wf (s.homeWrite bs).mem = true := by
  unfold State.homeWrite
  exact foldl_wf _ _ _ (fun s x h => homePut_wf s _ _ h) hwf

@[simp] theorem spotWrite_wf (s : State) (ctx : Nat) (sp : Spot) (bs : List Byte) (hwf : Memory.wf s.mem = true) : Memory.wf (s.spotWrite ctx sp bs).mem = true := by
  unfold State.spotWrite
  split
  · exact homeWrite_wf s _ hwf
  · exact hwf
  · split <;> exact hwf

@[simp] theorem stepAt_wf (s : State) (ctx : Nat) (op : MemOp) (x : LaneOp) (sp : Spot) (hwf : Memory.wf s.mem = true) : Memory.wf (s.stepAt ctx op x sp).2.mem = true := by
  unfold State.stepAt
  dsimp only
  split
  · exact spotWrite_wf s _ _ _ hwf
  · exact hwf

@[simp] theorem applyEpoch_wf (s : State) (ctx : Nat) (l : List Contribution) (hwf : Memory.wf s.mem = true) : Memory.wf (applyEpoch s ctx l).mem = true := by
  unfold applyEpoch
  exact foldl_wf _ _ _ (fun s x h => by split <;> first | exact h | exact stepAt_wf s _ _ _ _ h) hwf

@[simp] theorem holdWith_wf (s : State) (t : Team) (role : Nat) (x : Trap) (hwf : Memory.wf s.mem = true) : Memory.wf (holdWith s t role x).mem = true := by
  unfold holdWith
  simp [foldl_wf, hwf]

@[simp] theorem dmrEnd_wf (s : State) (t : Team) (role : Nat) (detail : List Byte) (hwf : Memory.wf s.mem = true) : Memory.wf (dmrEnd s t role detail).mem = true :=
  endContext_wf _ _ _ _ _ hwf

@[simp] theorem raiseAccess_wf (k : Iss) (s : State) (x : Trap) (hwf : Memory.wf s.mem = true) : Memory.wf (raiseAccess k s x).mem = true := by
  unfold raiseAccess
  (repeat' split) <;> first | exact hwf | (simp [hwf]; done)

@[simp] theorem stepRelease_wf (s : State) (t : Team) (c : Section) (hwf : Memory.wf s.mem = true) : Memory.wf (stepRelease s t c).mem = true := by
  unfold stepRelease
  dsimp only
  (repeat' split) <;> simp [hwf]

@[simp] theorem accessEnd_wf (k : Iss) (s : State) (th : Thread) (rs : List (Elem × Ready)) (hwf : Memory.wf s.mem = true) : Memory.wf (accessEnd k s th rs).mem = true := by
  unfold accessEnd
  (repeat' split) <;> first | exact hwf | (simp [foldl_wf, hwf]; done)

theorem touch_mem (s s' : State) (tid l : Nat) (ls : List Nat) (h : touch s tid ls = .wait s' l) : s'.mem = s.mem := by
  revert h
  unfold touch
  dsimp only
  (repeat' split) <;> intro h <;> first
    | contradiction
    | exact (Touch.wait.inj h).1 ▸ rfl
    | exact (Touch.wait.inj h).1 ▸ startBound_mem _ _ _ _

@[simp] theorem whenPresent_wf (k : Iss) (s : State) (m : Mask) (lines : List Nat) (go : Unit → State) (hgo : Memory.wf (go ()).mem = true)
    (hwf : Memory.wf s.mem = true) : Memory.wf (whenPresent k s m lines go).mem = true := by
  unfold whenPresent
  split
  · exact hwf
  · split
    · next s' l h => rw [waitOn_mem, touch_mem s s' _ l _ h]; exact hwf
    · exact raise_wf k s _ hwf
    · exact hgo

@[simp] theorem unlessFailed_wf (k : Iss) (s : State) (m : Mask) (rs : List (Nat × Nat)) (go : Unit → State) (hgo : Memory.wf (go ()).mem = true)
    (hwf : Memory.wf s.mem = true) : Memory.wf (unlessFailed k s m rs go).mem = true := by
  unfold unlessFailed
  split
  · exact raise_wf k s _ hwf
  · exact hgo

@[simp] theorem whenRead_wf (k : Iss) (s : State) (m : Mask) (rs : List (Nat × Nat)) (go : Unit → State) (hgo : Memory.wf (go ()).mem = true)
    (hwf : Memory.wf s.mem = true) : Memory.wf (whenRead k s m rs go).mem = true := by
  unfold whenRead
  exact whenPresent_wf k s m _ _ (unlessFailed_wf k s m rs go hgo hwf) hwf

theorem fillLine_mem {s s' : State} {d c line : Nat} {x : List Byte} (h : s.fillLine? d c line = some (x, s')) : s'.mem = s.mem := by
  unfold State.fillLine? at h
  split at h
  · cases h; rfl
  · cases hh : s.homeLine? line with
    | none => rw [hh] at h; cases h
    | some y => rw [hh] at h; cases h; rfl

theorem coreRead_mem {s s' : State} {d c pa n : Nat} {x : List Byte} (h : s.coreRead? d c pa n = some (x, s')) : s'.mem = s.mem := by
  unfold State.coreRead? at h
  dsimp only at h
  cases hh : s.fillLine? d c (pa / 128 * 128) with
  | none => rw [hh] at h; cases h
  | some y => rw [hh] at h; cases h; exact fillLine_mem hh

@[simp] theorem loadAt_mem (s : State) (k : Iss) (size : Nat) (r : Ready) : (s.loadAt k size r).2.mem = s.mem := by
  unfold State.loadAt
  split <;> try rfl
  refine foldl_mem2 _ _ _ (fun p x => ?_)
  split
  · next h => exact coreRead_mem h
  · rfl

@[simp] theorem loadAll_mem (s : State) (k : Iss) (size : Nat) (rs : List (Elem × Ready)) : (s.loadAll k size rs).2.mem = s.mem := by
  unfold State.loadAll
  refine foldl_mem2 _ _ _ (fun p x => ?_)
  dsimp only
  split
  · rfl
  · exact loadAt_mem _ _ _ _

theorem readyAt_absent {s s' : State} {k : Iss} {f : Form} {sys : Option Bool} {n : Nat} {e : Elem} {tid l : Nat} (h : s.readyAt k f sys n e = .absent s' tid l) : s'.mem = s.mem := by
  revert h
  unfold State.readyAt
  dsimp only
  repeat' split
  all_goals
    intro h
    first
      | contradiction
      | (injection h with e; rw [← e]; exact touch_mem _ _ _ _ _ (by assumption))

theorem ready_absent {s s' : State} {k : Iss} {f : Form} {sys : Option Bool} {n : Nat} {e : Elem} {tid l : Nat} (h : s.ready k f sys n e = .absent s' tid l) : s'.mem = s.mem := by
  unfold State.ready at h
  dsimp only at h
  cases hk : k.host? with
  | none => rw [hk] at h; exact readyAt_absent h
  | some y =>
    rw [hk] at h
    dsimp only at h
    cases hb : y.bad.find? (fun x => x.1 == e.lane) with
    | some x => rw [hb] at h; cases h
    | none =>
      rw [hb] at h
      dsimp only at h
      cases hg : y.got.find? (fun x => x.1 == e.lane) with
      | some x => rw [hg] at h; cases h
      | none => rw [hg] at h; exact readyAt_absent h

theorem eccOf_absent {s s' : State} {rd : Bool} {n : Nat} {e : Elem} {r : Ready} {tid l : Nat} (h : s.eccOf rd n e r = .absent s' tid l) : r = .absent s' tid l := by
  unfold State.eccOf at h
  split at h
  · split at h <;> cases h
  · exact h

theorem readyAll_absent {s s' : State} {k : Iss} {f : Form} {sys : Option Bool} {n : Nat} {es : List Elem} {x : Elem × Ready} {tid l : Nat}
    (hx : x ∈ s.readyAll k f sys n es) (h : x.2 = .absent s' tid l) : s'.mem = s.mem := by
  unfold State.readyAll at hx
  obtain ⟨e, _, rfl⟩ := List.mem_map.1 hx
  revert h
  dsimp only
  (repeat' split) <;> intro h <;> first
    | exact ready_absent (eccOf_absent h)
    | contradiction
    | simp_all

theorem waitsFor_wf {k : Iss} {s s' : State} {op : MemOp} {f : Form} {rs more : List (Elem × Ready)}
    (ha : ∀ x ∈ rs, ∀ s' tid l, x.2 = .absent s' tid l → Memory.wf s'.mem = true) (hwf : Memory.wf s.mem = true)
    (h : waitsFor k s op f rs more = some s') : Memory.wf s'.mem = true := by
  unfold waitsFor at h
  dsimp only at h
  split at h
  · cases h; exact hwf
  · split at h
    · next x hx =>
      cases h
      rw [waitOn_mem]
      obtain ⟨y, hy, h2⟩ := List.exists_of_findSome?_eq_some hx
      split at h2
      · next hh => cases h2; exact ha _ hy _ _ _ hh
      · cases h2
    · split at h
      · cases h
        rw [waitOn_mem]
        exact foldl_wf _ _ _ (fun s x h => by simpa using h) hwf
      · split at h
        · cases h; simpa using hwf
        · have counted : ∀ x, hostCounted k s f = some x → Memory.wf x.2.mem = true := fun x hx => by rw [hostCounted_mem hx]; exact hwf
          revert h
          repeat' split
          all_goals
            intro h
            first
              | contradiction
              | (rw [← Option.some.inj h, waitOn_mem]; exact hwf)
              | (rw [← Option.some.inj h, waitOn_mem, modOwn_mem]; exact counted _ (by assumption))
              | (rw [← Option.some.inj h, waitOn_mem]; exact counted _ (by assumption))
              | (rw [← Option.some.inj h, waitOn_mem, modOwn_mem]; exact clearLines_wf _ _ (counted _ (by assumption)))

@[simp] theorem whenRecord_wf (k : Iss) (s : State) (m : Mask) (reg : Option Trap) (rs : List (Nat × Nat)) (go : Unit → State)
    (hgo : Memory.wf (go ()).mem = true) (hwf : Memory.wf s.mem = true) : Memory.wf (whenRecord k s m reg rs go).mem = true := by
  unfold whenRecord
  (repeat' split) <;> first | exact hgo | exact raise_wf k s _ hwf | exact whenRead_wf k s m rs go hgo hwf

@[simp] theorem loadForm_wf (k : Iss) (s : State) (n w : Bool) (d : Sel) (ty : BitVec 5) (size : Nat) (es : List Elem) (zero : List Nat) (ext : Nat → Nat → DWord)
    (shape : List (Elem × Ready)) (hwf : Memory.wf s.mem = true) : Memory.wf (loadForm k s n w d ty size es zero ext shape).mem = true := by
  unfold loadForm
  dsimp only
  split
  · next h =>
    refine ite_wf _ _ _ (waitsFor_wf (fun x hx s' tid l hh => by rw [readyAll_absent hx hh]; exact hwf) hwf h) ?_
    simpa using hwf
  · exact accessEnd_wf k _ _ _ (by simpa using hwf)

@[simp] theorem storeLane_wf (s : State) (k : Iss) (op : MemOp) (x : LaneOp) (hwf : Memory.wf s.mem = true) : Memory.wf (State.storeLane s k op x).mem = true := by
  unfold State.storeLane
  (repeat' split) <;> first | exact hwf | (simp [foldl_wf, hwf]; done)

theorem storeAll_wf (k : Iss) (op : MemOp) (l : List LaneOp) (s : State) (hwf : Memory.wf s.mem = true) :
    Memory.wf (l.foldl (fun s x => s.storeLane k op x) s).mem = true :=
  foldl_wf _ _ _ (fun s x h => storeLane_wf s k op x h) hwf

@[simp] theorem storeForm_wf (k : Iss) (s : State) (op : MemOp) (es : List Elem) (drop : List (Elem × Ready)) (hwf : Memory.wf s.mem = true) :
    Memory.wf (storeForm k s op es drop).mem = true := by
  have full : ∀ (c : Prop) [Decidable c] (a b : State), Memory.wf a.mem = true → Memory.wf b.mem = true → Memory.wf (if c then a else b).mem = true :=
    fun c _ a b ha hb => ite_wf a b c ha hb
  unfold storeForm
  dsimp only
  split
  · refine full _ _ _ hwf ?_
    rw [serve_mem]; exact storeLane_wf _ _ _ _ hwf
  · split
    · next h => exact waitsFor_wf (fun x hx s' tid l hh => by rw [readyAll_absent hx hh]; exact hwf) hwf h
    · refine full _ _ _ (by rw [waitOn_mem]; exact hwf) (full _ _ _ (full _ _ _ (by rw [waitOn_mem]; exact hwf) ?_) (full _ _ _ hwf (accessEnd_wf _ _ _ _ ?_)))
      · rw [serve_mem, sideLog_mem]; exact full _ _ _ (by rw [modOwn_mem]; exact hwf) hwf
      · split
        all_goals
          repeat' first
            | rw [partDone_mem]
            | rw [hostOver_mem]
            | rw [modOwn_mem]
            | rw [sideLog_mem]
            | refine full _ _ _ ?_ ?_
          all_goals exact storeAll_wf _ _ _ _ hwf

@[simp] theorem atomLane_wf (s : State) (k : Iss) (op : MemOp) (x : LaneOp) (hwf : Memory.wf s.mem = true) : Memory.wf (s.atomLane k op x).2.mem = true := by
  unfold State.atomLane
  split
  · exact foldl_wf _ _ _ (fun s x h => by simpa using h) (stepAt_wf _ _ _ _ _ hwf)
  · exact hwf

@[simp] theorem atomForm_wf (k : Iss) (s : State) (w : Bool) (d : Sel) (op : MemOp) (es : List Elem) (log : State → List LaneOp → Turn)
    (hlog : ∀ ls s', log s ls = .go s' → Memory.wf s'.mem = true) (hwf : Memory.wf s.mem = true) :
    Memory.wf (atomForm k s w d op es log).mem = true := by
  unfold atomForm
  dsimp only
  split
  · refine ite_wf _ _ _ hwf ?_
    rw [serve_mem]; exact atomLane_wf _ _ _ _ hwf
  · split
    · next h => exact waitsFor_wf (fun x hx s' tid l hh => by rw [readyAll_absent hx hh]; exact hwf) hwf h
    · refine ite_wf _ _ _ (ite_wf _ _ _ hwf (ite_wf _ _ _ hwf (by simpa using hwf))) ?_
      split
      · rw [waitTurn_mem]; exact hwf
      · exact endContext_wf s _ _ _ _ hwf
      · next h => exact accessEnd_wf _ _ _ _ (foldl_wf2 _ _ _ (fun p x h => atomLane_wf _ _ _ _ h) (hlog _ _ h))

@[simp] theorem closeTeamEpoch_wf (s : State) (tid : Nat) (hwf : Memory.wf s.mem = true) : Memory.wf (closeTeamEpoch s tid).mem = true := by
  unfold closeTeamEpoch
  (repeat' split) <;> first | exact hwf | (simp [foldl_wf, hwf]; done)

@[simp] theorem barSettle_wf (s : State) (tid n : Nat) (hwf : Memory.wf s.mem = true) : Memory.wf (barSettle s tid n).mem = true := by
  unfold barSettle
  dsimp only; (repeat' split) <;> first | exact hwf | (simp [foldl_wf, hwf]; done)

@[simp] theorem teamExit_wf (s : State) (tid : Nat) (hwf : Memory.wf s.mem = true) : Memory.wf (teamExit s tid).mem = true := by
  unfold teamExit
  (repeat' split) <;> first | exact hwf | (simp [foldl_wf, hwf]; done)

@[simp] theorem sectionExit_wf (s : State) (tid role : Nat) (hwf : Memory.wf s.mem = true) : Memory.wf (sectionExit s tid role).mem = true := by
  unfold sectionExit
  split
  · exact hwf
  · dsimp only
    have key : ∀ s' : State, Memory.wf s'.mem = true → Memory.wf ((List.range 4).foldl (fun s n =>
        if (((s.team? tid).elim bar0 (fun t => tget bar0 t.bcs n)).roles.getLsbD role && !((s.team? tid).elim bar0 (fun t => tget bar0 t.bcs n)).came.getLsbD role) = true then
          barSettle (s.modTeam tid (fun t => { t with bcs := tset bar0 t.bcs n { (s.team? tid).elim bar0 (fun t => tget bar0 t.bcs n) with pending := ((s.team? tid).elim bar0 (fun t => tget bar0 t.bcs n)).pending - 1 } })) tid n
        else s) s').mem = true := by
      intro s' h
      refine foldl_wf _ _ _ (fun s x h => ?_) h
      dsimp only
      split
      · exact barSettle_wf _ _ _ h
      · exact h
    split
    · apply teamExit_wf; rw [gangAfter_mem]; exact key _ hwf
    · rw [gangAfter_mem]; exact key _ hwf

@[simp] theorem settleExit_wf (s : State) (tid role : Nat) (hwf : Memory.wf s.mem = true) : Memory.wf (State.settleExit s tid role).mem = true := by
  unfold State.settleExit
  (repeat' split) <;> first | exact hwf | (simp [foldl_wf, hwf]; done)

@[simp] theorem endPathOf_wf (s : State) (tid role : Nat) (hwf : Memory.wf s.mem = true) : Memory.wf (State.endPathOf s tid role).mem = true := by
  unfold State.endPathOf
  simp [foldl_wf, hwf]

@[simp] theorem recheckJoin_wf (s : State) (tid role : Nat) (hwf : Memory.wf s.mem = true) : Memory.wf (State.recheckJoin s tid role).mem = true := by
  unfold State.recheckJoin
  (repeat' split) <;> first | exact hwf | (simp [foldl_wf, hwf]; done)

@[simp] theorem logPut_wf (s : State) (ctx kind body : Nat) (hwf : Memory.wf s.mem = true) : Memory.wf (State.logPut s ctx kind body).mem = true := by
  unfold State.logPut
  simp [foldl_wf, hwf]

@[simp] theorem replayDiverged_wf (s : State) (ctx : Nat) (hwf : Memory.wf s.mem = true) : Memory.wf (replayDiverged s ctx).mem = true := by
  unfold replayDiverged
  simp [foldl_wf, hwf]

@[simp] theorem spilled_wf (k : Iss) (s : State) (acc : Access) (n : Nat) (m : Mask) (go : Unit → State) (hgo : Memory.wf (go ()).mem = true)
    (hwf : Memory.wf s.mem = true) : Memory.wf (spilled k s acc n m go).mem = true := by
  unfold spilled
  dsimp only
  (repeat' split) <;> with_reducible first | exact hgo | exact freeBytes_wf _ _ _ hgo | exact raise_wf k s _ hwf | simpa using hwf

@[simp] theorem opnd_wf (k : Iss) (s : State) (i : Instr) (m : Mask) (hwf : Memory.wf s.mem = true) : Memory.wf (opnd k s i m).mem = true := by
  unfold opnd
  simp [foldl_wf, hwf]

@[simp] theorem diverge_wf (k : Iss) (s : State) (target next : DWord) (join : Option DWord) (hwf : Memory.wf s.mem = true) : Memory.wf (diverge k s target next join).mem = true := by
  unfold diverge
  dsimp only
  refine spilled_wf k s _ _ _ _ ?_ hwf
  refine ite_wf _ _ _ ?_ ?_ <;> simp [hwf]

@[simp] theorem lanternDone_wf (k : Iss) (s : State) (rejoin : Bool) (hwf : Memory.wf s.mem = true) : Memory.wf (lanternDone k s rejoin).mem = true := by
  unfold lanternDone
  (repeat' split) <;> first | exact hwf | (simp [foldl_wf, hwf]; done)

@[simp] theorem raiseSet_wf (k : Iss) (s : State) (skip : SkipHow) (x : Trap) (hwf : Memory.wf s.mem = true) : Memory.wf (raiseSet k s skip x).mem = true := by
  unfold raiseSet
  simp [foldl_wf, hwf]

@[simp] theorem sysSet_mem (s : State) (t : Team) (role r : Nat) (v : DWord) : (sysSet s t role r v).mem = s.mem := by
  unfold sysSet
  dsimp only
  repeat' refine ite_mem _ _ _ _ ?_ ?_
  all_goals rfl

@[simp] theorem afterHandler_wf (s : State) (tid role : Nat) (hwf : Memory.wf s.mem = true) : Memory.wf (afterHandler s tid role).mem = true := by
  unfold afterHandler
  simp [foldl_wf, hwf]

@[simp] theorem skipTo_wf (k : Iss) (s : State) (h : HandlerState) (hwf : Memory.wf s.mem = true) : Memory.wf (skipTo k s h).mem = true := by
  unfold skipTo
  (repeat' split) <;> first | exact hwf | (simp [foldl_wf, hwf]; done)

@[simp] theorem takeBreak_wf (s : State) (t : Team) (c : Section) (i : Nat) (act : Bool) (hwf : Memory.wf s.mem = true) : Memory.wf (takeBreak s t c i act).mem = true := by
  unfold takeBreak
  (repeat' split) <;> first | exact hwf | (simp [foldl_wf, hwf]; done)

@[simp] theorem dropCopy_wf (s : State) (die core : Nat) (c : Copy) (hwf : Memory.wf s.mem = true) : Memory.wf (dropCopy s die core c).mem = true := by
  unfold dropCopy
  dsimp only; (repeat' split) <;> first | exact hwf | (simp [foldl_wf, hwf]; done)

@[simp] theorem haltDrop_wf (s : State) (die core : Nat) (c : Copy) (hwf : Memory.wf s.mem = true) : Memory.wf (haltDrop s die core c).mem = true := by
  unfold haltDrop
  simp [foldl_wf, hwf]

@[simp] theorem startEntry_wf (s : State) (die core : Nat) (t : Team) (c : Copy) (hwf : Memory.wf s.mem = true) : Memory.wf (startEntry s die core t c).mem = true := by
  unfold startEntry
  dsimp only; (repeat' split) <;> first | exact hwf | (simp [foldl_wf, hwf]; done)

theorem copySide_mem {s s' : State} {t : Team} {role : Nat} {acc : Access} {a n : Nat} {mine : List Nat} (h : s.copySide t role acc a n mine = .wait s') : s'.mem = s.mem := by
  revert h
  unfold State.copySide
  dsimp only
  repeat' split
  all_goals
    intro h
    first
      | contradiction
      | (injection h with e; rw [← e]; exact touch_mem _ _ _ _ _ (by assumption))
      | (injection h with e; rw [← e])

theorem copyTouch_mem {s s' : State} {c : Copy} {tid l : Nat} {ls : List Nat} (h : copyTouch s c tid ls = .wait s' l) : s'.mem = s.mem := by
  revert h
  unfold copyTouch
  repeat' split
  all_goals
    intro h
    first
      | contradiction
      | (injection h with e; rw [← e]; exact startBound_mem _ _ _ _)
      | (injection h with e; rw [← e])

@[simp] theorem touchSides_mem (s : State) (t : Team) (c : Copy) (acc : Access) (i : Nat) : (touchSides s t c acc i).mem = s.mem := by
  unfold touchSides
  refine foldl_mem _ _ _ (fun s x => ?_)
  split
  · split
    · next h => exact copySide_mem h
    · rfl
  · rfl

@[simp] theorem landIn_mem (s : State) (die core : Nat) (t : Team) (c : Copy) (i : Nat) : (landIn s die core t c i).mem = s.mem := by
  unfold landIn
  dsimp only
  split
  · simp
  · split <;> simp

@[simp] theorem copyOut_wf (s : State) (t : Team) (c : Copy) (sp : Spot) (bs : List Byte) (hwf : Memory.wf s.mem = true) : Memory.wf (copyOut s t c sp bs).mem = true := by
  unfold copyOut
  dsimp only
  (repeat' split) <;> simp [hwf]

theorem outSector_wf (die core i : Nat) (t : Team) (c : Copy) (l : List (Spot × List Byte)) (s : State) (h : Memory.wf s.mem = true) :
    Memory.wf (landed (l.foldl (fun s x => copyOut s t c x.1 x.2) s) die core c i).mem = true := by
  rw [landed_mem]
  exact foldl_wf _ _ _ (fun s x h => copyOut_wf _ _ _ _ _ h) h

@[simp] theorem copyMismatch_wf (s : State) (t : Team) (c : Copy) (a b : List (Option Nat × List Byte)) (hwf : Memory.wf s.mem = true) :
    Memory.wf (copyMismatch s t c a b).mem = true := dmrEnd_wf _ _ _ _ hwf

@[simp] theorem dmrSector_wf (s : State) (die core : Nat) (t : Team) (c : Copy) (i : Nat) (hwf : Memory.wf s.mem = true) : Memory.wf (dmrSector s die core t c i).mem = true := by
  unfold dmrSector
  dsimp only
  split
  · exact hwf
  · exact copyMismatch_wf _ _ _ _ _ hwf
  · refine ite_wf _ _ _ hwf (ite_wf _ _ _ (copyMismatch_wf _ _ _ _ _ hwf) ?_)
    split
    · rw [touchSides_mem]; exact hwf
    · rw [landed_mem, landed_mem, modCopy_mem, modCopy_mem]
      exact foldl_wf _ _ _ (fun s x h => copyOut_wf _ _ _ _ _ h) (by simpa using hwf)

@[simp] theorem landOut_wf (s : State) (die core : Nat) (t : Team) (c : Copy) (i : Nat) (hwf : Memory.wf s.mem = true) : Memory.wf (landOut s die core t c i).mem = true := by
  unfold landOut
  dsimp only
  repeat' with_reducible first
    | exact hwf
    | exact outSector_wf _ _ _ _ _ _ _ hwf
    | exact dmrSector_wf _ _ _ _ _ _ hwf
    | exact dmrSector_wf _ _ _ _ _ _ (by rw [modCopy_mem]; exact hwf)
    | (rw [modCopy_mem]; exact hwf)
    | (rw [touchSides_mem]; exact hwf)
    | (rw [copyTouch_mem (by assumption)]; exact hwf)
    | split

@[simp] theorem cupolaStop_wf (s : State) (die ctx : Nat) (rcd : List Byte) (hwf : Memory.wf s.mem = true) : Memory.wf (cupolaStop s die ctx rcd).mem = true := by
  unfold cupolaStop
  dsimp only; (repeat' split) <;> first | exact hwf | (simp [foldl_wf, hwf]; done)

@[simp] theorem compEnd_mem (s : State) (die i : Nat) (c : Composite) (peer : Table Byte) : (compEnd s die i c peer).mem = s.mem := by
  have a : ∀ (l : List Nat) (f : State → Nat → State) (s : State), (∀ s x, (f s x).mem = s.mem) → (l.foldl f s).mem = s.mem := fun l f s h => foldl_mem l f s h
  unfold compEnd
  dsimp only
  split
  · simp
  · split
    · split <;> simp
    · split
      · rfl
      · rw [a]
        · rw [setComp_mem, compDone_mem, a]
          · simp
          · intro s x; simp
        · intro s x
          split
          · split <;> simp
          · rfl

@[simp] theorem releaseSec_wf (s : State) (t : Team) (c : Section) (hwf : Memory.wf s.mem = true) : Memory.wf (releaseSec s t c).mem = true := by
  unfold releaseSec
  (repeat' split) <;> first | exact hwf | (simp [foldl_wf, hwf]; done)

@[simp] theorem dbgCmd_wf (s : State) (ctx v : Nat) (hwf : Memory.wf s.mem = true) : Memory.wf (dbgCmd s ctx v).mem = true := by
  unfold dbgCmd
  (repeat' split) <;> first | exact hwf | (simp [foldl_wf, hwf]; done)

theorem dbgPoint_mem {s s' : State} {ctx r v : Nat} (h : dbgPoint s ctx r v = some s') : s'.mem = s.mem := by
  unfold dbgPoint at h
  dsimp only at h
  repeat' split at h
  all_goals first | (cases h; rfl) | (cases h; done)

theorem dbgSys_mem {s s' : State} {ctx r v : Nat} (h : dbgSys s ctx r v = some s') : s'.mem = s.mem := by
  revert h
  unfold dbgSys
  dsimp only
  repeat' split
  all_goals
    intro h
    first
      | contradiction
      | exact dbgPoint_mem h
      | (rw [← Option.some.inj h, sysSet_mem])
      | (rw [← Option.some.inj h]; rfl)

theorem dbgWord_mem {s s' : State} {ctx off : Nat} {w : Word} (h : dbgWord s ctx off w = some s') : s'.mem = s.mem := by
  unfold dbgWord at h
  dsimp only at h
  repeat' split at h
  all_goals first | (cases h; rfl) | (cases h; done) | (cases h; simp)

theorem dbgScratch_mem {s s' : State} {ctx off size v : Nat} (h : dbgScratch s ctx off size v = some s') : s'.mem = s.mem := by
  unfold dbgScratch at h
  repeat' split at h
  all_goals first | (cases h; rfl) | (cases h; done)

theorem dbgPmc_mem {s s' : State} {ctx off v : Nat} (h : dbgPmc s ctx off v = some s') : s'.mem = s.mem := by
  unfold dbgPmc at h
  dsimp only at h
  repeat' split at h
  all_goals first | (cases h; rfl) | (cases h; done)

theorem dbgPut_mem {s s' : State} {ctx off size v : Nat} (h : dbgPut s ctx off size v = some s') : s'.mem = s.mem := by
  unfold dbgPut at h
  dsimp only at h
  split at h
  · split at h <;> cases h; rfl
  · split at h
    · split at h <;> cases h; rfl
    · split at h
      · exact dbgSys_mem h
      · split at h
        · exact dbgSys_mem h
        · split at h
          · exact dbgPoint_mem h
          · split at h
            · exact dbgScratch_mem h
            · split at h
              · exact dbgPmc_mem h
              · split at h
                · obtain ⟨q, hq, h2⟩ := Option.bind_eq_some_iff.1 h
                  rw [dbgWord_mem h2, dbgWord_mem hq]
                · exact dbgWord_mem h

@[simp] theorem dbgWrite_wf (s : State) (ctx off size v : Nat) (hwf : Memory.wf s.mem = true) : Memory.wf (dbgWrite s ctx off size v).mem = true := by
  unfold dbgWrite
  split
  · exact dbgCmd_wf _ _ _ hwf
  · split
    · next h => rw [dbgMark_mem, dbgPut_mem h]; exact hwf
    · rw [dbgMark_mem]; exact hwf

@[simp] theorem dbgEvent_wf (s : State) (ctx off size v : Nat) (hwf : Memory.wf s.mem = true) : Memory.wf (dbgEvent s ctx off size v).mem = true := by
  unfold dbgEvent
  (repeat' split) <;> first | exact hwf | (simp [foldl_wf, hwf]; done)

@[simp] theorem dropRange_wf (s : State) (pa len : Nat) (hwf : Memory.wf s.mem = true) : Memory.wf (State.dropRange s pa len).mem = true := by
  unfold State.dropRange
  simp only []; (repeat' split) <;> first | exact hwf | (simp_all [foldl_wf, hwf]; done)

@[simp] theorem setLeaf_wf (s : State) (ctx : Nat) (l : Leaf) (base e : Nat) (hwf : Memory.wf s.mem = true) : Memory.wf (State.setLeaf s ctx l base e).mem = true := by
  unfold State.setLeaf
  simp [foldl_wf, hwf]

@[simp] theorem homeFails_wf (s : State) (ctx base lg : Nat) (hwf : Memory.wf s.mem = true) : Memory.wf (State.homeFails s ctx base lg).mem = true := by
  unfold State.homeFails
  dsimp only; (repeat' split) <;> first | exact hwf | (simp [foldl_wf, hwf]; done)

@[simp] theorem pin_wf (s : State) (ctx : Nat) (l : Leaf) (base host : Nat) (hwf : Memory.wf s.mem = true) : Memory.wf (State.pin s ctx l base host).mem = true := by
  unfold State.pin
  simp [foldl_wf, hwf]

@[simp] theorem recheckAll_wf (s : State) (t : Team) (hwf : Memory.wf s.mem = true) : Memory.wf (recheckAll s t).mem = true := by
  unfold recheckAll
  exact foldl_wf _ _ _ (fun s x h => recheckJoin_wf s _ _ h) hwf

@[simp] theorem reqDone_mem (s : State) (die slice seq : Nat) : (s.reqDone die slice seq).mem = s.mem := rfl

theorem choose_wf {s s' : State} {ctx : Nat} {det replay : Bool} {kind body : Nat} {same : Nat → Bool} (h : s.choose ctx det replay kind body same = .go s')
    (hwf : Memory.wf s.mem = true) : Memory.wf s'.mem = true := by
  revert h
  unfold State.choose
  repeat' split
  all_goals
    intro h
    first
      | contradiction
      | (rw [← Turn.go.inj h]; first | exact hwf | exact logPut_wf _ _ _ _ hwf)

theorem replyTurn_wf {s s' : State} {t : Team} {die slice : Nat} {r : SvcReq} (h : s.replyTurn t die slice r = .go s')
    (hwf : Memory.wf s.mem = true) : Memory.wf s'.mem = true := by
  revert h
  unfold State.replyTurn
  dsimp only
  (repeat' split) <;> intro h <;> first | contradiction | exact choose_wf h hwf

theorem deliver_wf (t : Team) (l : List Nat) : ∀ (a : Turn) (s' : State),
    l.foldl (fun acc role => match acc with
      | .go s => match s.pendingReq t role with
        | some r => match s.replyTurn t t.die (t.core % 16) r with
          | .go s => Turn.go (s.reqDone t.die (t.core % 16) r.seq)
          | r => r
        | none => .go s
      | r => r) a = .go s' → (∀ s, a = .go s → Memory.wf s.mem = true) → Memory.wf s'.mem = true := by
  induction l with
  | nil => exact fun a s' h ha => ha _ h
  | cons x r ih =>
    intro a s' h ha
    refine ih _ s' h (fun q hq => ?_)
    cases a with
    | wait _ => exact nomatch hq
    | diverged => exact nomatch hq
    | go s =>
      dsimp only at hq
      cases hr : s.pendingReq t x with
      | none => rw [hr] at hq; exact Turn.go.inj hq ▸ ha _ rfl
      | some r =>
        rw [hr] at hq
        cases hh : s.replyTurn t t.die (t.core % 16) r with
        | go s1 => simp only [hh] at hq; rw [← Turn.go.inj hq, reqDone_mem]; exact replyTurn_wf hh (ha _ rfl)
        | wait _ | diverged => simp [hh] at hq

theorem deliverAll_wf {s s' : State} {t : Team} {roles : List Nat} (h : s.deliverAll t roles = .go s')
    (hwf : Memory.wf s.mem = true) : Memory.wf s'.mem = true := by
  unfold State.deliverAll at h
  exact deliver_wf t roles (.go s) s' h (fun q hq => by cases hq; exact hwf)

theorem resumeInPlace_wf {s s' : State} {t : Team} {role : Nat} (h : resumeInPlace s t role = .go s')
    (hwf : Memory.wf s.mem = true) : Memory.wf s'.mem = true := by
  unfold resumeInPlace at h
  split at h
  · next hh => cases h; exact recheckJoin_wf _ _ _ (by rw [modSec_mem, modTeam_mem]; exact deliverAll_wf hh hwf)
  · next hn => exact absurd h (hn s')

@[simp] theorem queueError_wf (s : State) (q : Nat) (hwf : Memory.wf s.mem = true) : Memory.wf (queueError s q).mem = true := by
  unfold queueError
  simp [foldl_wf, hwf]

@[simp] theorem rejectLaunch_wf (s : State) (ctx q chain cause : Nat) (packet : List Byte) (hwf : Memory.wf s.mem = true) : Memory.wf (rejectLaunch s ctx q chain cause packet).mem = true := by
  unfold rejectLaunch
  simp [foldl_wf, hwf]

@[simp] theorem replayMismatch_wf (s : State) (l : Launch) (hwf : Memory.wf s.mem = true) : Memory.wf (replayMismatch s l).mem = true := by
  unfold replayMismatch
  simp [foldl_wf, hwf]

theorem entered_wf (s s1 : State) (t : Team) (h1 : s1.mem = s.mem) (hwf : Memory.wf s.mem = true) : Memory.wf (enterTeam s1 t).mem = true :=
  enterTeam_wf _ _ (by rw [h1]; exact hwf)

@[simp] theorem placeGang_wf (s : State) (l : Launch) (p : Plan) (hwf : Memory.wf s.mem = true) : Memory.wf (placeGang s l p).mem = true := by
  unfold placeGang
  dsimp only
  have put : ∀ (f : State → Nat × Nat → State) (l2 : List (Nat × Nat)), (∀ s x, Memory.wf s.mem = true → Memory.wf (f s x).mem = true) → Memory.wf (l2.foldl f s).mem = true :=
    fun f l2 hf => foldl_wf _ _ _ hf hwf
  have each : ∀ (s : State) (x : Nat × Nat), Memory.wf s.mem = true → Memory.wf (match p.twins[x.1]? with
      | some c2 => enterTeam (enterTeam { s with nextTid := s.nextTid + 2 } (newTeam l s.nextTid (l.placed + x.1) x.2 0 (some (s.nextTid + 1)) true))
          (newTeam l (s.nextTid + 1) (l.placed + x.1) c2 0 (some s.nextTid) false)
      | none => enterTeam { s with nextTid := s.nextTid + 1 } (newTeam l s.nextTid (l.placed + x.1) x.2 0 none true)).mem = true := by
    intro s x h
    split
    · exact enterTeam_wf _ _ (entered_wf s _ _ rfl h)
    · exact entered_wf s _ _ rfl h
  refine ite_wf _ _ _ ?_ ?_
  · rw [modLaunch_mem]
    split
    · rw [modCtx_mem]; exact put _ _ each
    · exact put _ _ each
  · show Memory.wf (State.mem _) = true
    dsimp only
    rw [modLaunch_mem]
    split
    · rw [modCtx_mem]; exact put _ _ each
    · exact put _ _ each

@[simp] theorem launchOver_wf (s : State) (l : Launch) (hwf : Memory.wf s.mem = true) : Memory.wf (launchOver s l).mem = true := by
  unfold launchOver
  (repeat' split) <;> first | exact hwf | (simp [foldl_wf, hwf]; done)

@[simp] theorem wordLost_wf (s : State) (l : Launch) (code : Nat) (hwf : Memory.wf s.mem = true) : Memory.wf (wordLost s l code).mem = true := by
  unfold wordLost
  simp [foldl_wf, hwf]

@[simp] theorem imageLost_wf (s : State) (t : Team) (va : Nat) (hwf : Memory.wf s.mem = true) : Memory.wf (imageLost s t va).mem = true := by
  unfold imageLost
  simp [foldl_wf, hwf]

@[simp] theorem swapIn_wf (s : State) (t : Team) (hwf : Memory.wf s.mem = true) : Memory.wf (swapIn s t).mem = true := by
  unfold swapIn
  cases hd : s.deliverAll t (repliedRoles t) with
  | go s1 => exact recheckAll_wf _ _ (by rw [modTeam_mem, unstow_mem]; exact deliverAll_wf hd hwf)
  | wait _ => exact recheckAll_wf _ _ (by rw [modTeam_mem, unstow_mem]; exact hwf)
  | diverged => exact recheckAll_wf _ _ (by rw [modTeam_mem, unstow_mem]; exact hwf)

@[simp] theorem tryPost_mem (s : State) (tid role : Nat) : (s.tryPost tid role).mem = s.mem := by
  unfold State.tryPost
  (repeat' split) <;> simp

@[simp] theorem replyOut_wf (s : State) (die slice : Nat) (r : SvcReq) (v : Nat) (hwf : Memory.wf s.mem = true) : Memory.wf (s.replyOut die slice r v).mem = true := by
  have turn : ∀ s1, (match s.team? r.tid with
      | some t => s.replyTurn t die slice r
      | none => .go s) = Turn.go s1 → Memory.wf s1.mem = true := by
    intro s1
    split
    · exact fun h => replyTurn_wf h hwf
    · exact fun h => Turn.go.inj h ▸ hwf
  unfold State.replyOut
  dsimp only
  refine ite_wf _ _ _ (by rw [reqDone_mem]; exact hwf) (ite_wf _ _ _ (by rw [askHome_mem]; exact hwf) ?_)
  split
  · rw [waitTurn_mem]; exact hwf
  · exact replayDiverged_wf _ _ hwf
  · next h => exact sysWrite_wf _ _ _ _ (by rw [reqDone_mem, homesServed_mem]; exact turn _ h)

theorem resumed_wf (s : State) (t : Team) (role : Nat) (hwf : Memory.wf s.mem = true) : Memory.wf (match resumeInPlace s t role with
    | .go s => s
    | .wait va => s.waitTurn t.ctx va
    | .diverged => replayDiverged s t.ctx).mem = true := by
  split
  · next h => exact resumeInPlace_wf h hwf
  · rw [waitTurn_mem]; exact hwf
  · exact replayDiverged_wf _ _ hwf

@[simp] theorem postReply_wf (s : State) (die slice : Nat) (r : SvcReq) (reply : List (List Byte)) (hwf : Memory.wf s.mem = true) :
    Memory.wf (postReply s die slice r reply).mem = true := by
  have made : ∀ (s1 : State), s1.mem = s.mem → Memory.wf s1.mem = true := fun s1 h => by rw [h]; exact hwf
  unfold postReply
  dsimp only
  refine ite_wf _ _ _ (replyOut_wf _ _ _ _ _ (made _ rfl)) ?_
  split
  · refine ite_wf _ _ _ (made _ rfl) (ite_wf _ _ _ (made _ rfl) ?_)
    split
    · exact resumed_wf _ _ _ (made _ rfl)
    · exact made _ rfl
  · exact made _ rfl

@[simp] theorem mapPage_wf (s : State) (ctx va pa slot : Nat) (hwf : Memory.wf s.mem = true) : Memory.wf (mapPage s ctx va pa slot).mem = true := by
  unfold mapPage
  dsimp only
  rw [dropTlb_mem]
  exact physWrite_wf _ _ _ (dropRange_wf _ _ _ (filter_wf' _ _ hwf))

@[simp] theorem allocBlock_wf (s : State) (ctx : Nat) (ps : Option (List DWord)) (frames : List (Option Nat)) (hwf : Memory.wf s.mem = true) :
    Memory.wf (allocBlock s ctx ps frames).1.mem = true := by
  unfold allocBlock
  split
  · exact hwf
  · exact hwf
  · dsimp only
    split
    · exact foldl_wf _ _ _ (fun s x h => mapPage_wf _ _ _ _ _ h) hwf
    · exact hwf

@[simp] theorem allocAll_wf (ctx : Nat) (l : List (Option (List DWord))) : ∀ (s : State) (frames : List (Option Nat)), Memory.wf s.mem = true →
    Memory.wf (allocAll s ctx l frames).1.mem = true := by
  induction l with
  | nil => exact fun s _ h => h
  | cons p r ih => exact fun s fs h => ih _ _ (allocBlock_wf s ctx p _ h)

@[simp] theorem freeBlock_wf (s : State) (ctx a : Nat) (hwf : Memory.wf s.mem = true) : Memory.wf (freeBlock s ctx a).1.mem = true := by
  unfold freeBlock
  dsimp only
  split
  · exact hwf
  · refine foldl_wf _ _ _ (fun s x h => ?_) hwf
    split
    · rw [dropTlb_mem]; exact physWrite_wf _ _ _ (dropRange_wf _ _ _ h)
    · exact h

@[simp] theorem hostAtomic_wf (s : State) (ctx : Nat) (b : List Byte) (old : Nat) (hwf : Memory.wf s.mem = true) :
    Memory.wf (hostAtomic s ctx b old).1.mem = true := by
  unfold hostAtomic
  dsimp only
  repeat' split
  all_goals first
    | exact hwf
    | exact foldl_wf _ _ _ (fun s x h => by simpa using h) (stepAt_wf _ _ _ _ _ hwf)
    | exact physWrite_wf _ _ _ (by rw [dropLineAll_mem, dropSlice_mem]; exact writeBack_wf _ _ hwf)
    | exact physWrite_wf _ _ _ hwf

@[simp] theorem serveAlloc_wf (s : State) (die slice : Nat) (r : SvcReq) (hwf : Memory.wf s.mem = true) : Memory.wf (serveAlloc s die slice r).mem = true := by
  unfold serveAlloc
  dsimp only
  repeat' split
  all_goals first
    | exact hwf
    | exact postReply_wf _ _ _ _ _ (allocAll_wf _ _ _ _ hwf)

@[simp] theorem serveFree_wf (s : State) (die slice : Nat) (r : SvcReq) (hwf : Memory.wf s.mem = true) : Memory.wf (serveFree s die slice r).mem = true := by
  unfold serveFree
  dsimp only
  split
  · exact hwf
  · apply postReply_wf
    have key : ∀ (l : List (List Byte)) (p : State × List (List Byte)), Memory.wf p.1.mem = true → Memory.wf
        (l.foldl (fun acc b => ((freeBlock acc.1 r.ctx (argPair b 0)).1, acc.2 ++ [(freeBlock acc.1 r.ctx (argPair b 0)).2])) p).1.mem = true := by
      intro l
      induction l with
      | nil => exact fun p h => h
      | cons x r ih => exact fun p h => ih _ (freeBlock_wf _ _ _ h)
    exact key _ _ hwf

@[simp] theorem endAll_wf (s : State) (code : Nat) (pick : State → Nat → Bool) (hwf : Memory.wf s.mem = true) : Memory.wf (endAll s code pick).mem = true := by
  unfold endAll
  exact foldl_wf _ _ _ (fun s x h => endContext_wf _ _ _ _ _ h) hwf

@[simp] theorem disableCtx_wf (s : State) (c : Nat) (hwf : Memory.wf s.mem = true) : Memory.wf (disableCtx s c).mem = true := by
  unfold disableCtx
  simp [foldl_wf, hwf]

@[simp] theorem writeCtl_wf (s : State) (c new : Nat) (hwf : Memory.wf s.mem = true) : Memory.wf (writeCtl s c new).mem = true := by
  unfold writeCtl
  dsimp only; (repeat' split) <;> first | exact hwf | (simp [foldl_wf, hwf]; done)

@[simp] theorem writeField_wf (s : State) (c o new : Nat) (hwf : Memory.wf s.mem = true) : Memory.wf (writeField s c o new).mem = true := by
  unfold writeField
  dsimp only; (repeat' split) <;> first | exact hwf | (simp [foldl_wf, hwf]; done)

@[simp] theorem writeDescriptor_wf (s : State) (c o size v : Nat) (hwf : Memory.wf s.mem = true) : Memory.wf (writeDescriptor s c o size v).mem = true := by
  unfold writeDescriptor
  dsimp only; (repeat' split) <;> first | exact hwf | (simp [foldl_wf, hwf]; done)

@[simp] theorem endEvery_wf (s : State) (hwf : Memory.wf s.mem = true) : Memory.wf (endEvery s).mem = true := by
  unfold endEvery
  simp [foldl_wf, hwf]

@[simp] theorem recoverFrom_wf (s : State) (len : Nat) (hwf : Memory.wf s.mem = true) : Memory.wf (recoverFrom s len).mem = true := by
  unfold recoverFrom
  simp [foldl_wf, hwf]

@[simp] theorem clearHalts_wf (s : State) (d v : Nat) (hwf : Memory.wf s.mem = true) : Memory.wf (clearHalts s d v).mem = true := by
  unfold clearHalts
  simp only []; (repeat' split) <;> first | exact hwf | (simp_all [foldl_wf, hwf]; done)

theorem writeInv_wf (s : State) (off size new : Nat) (hwf : Memory.wf s.mem = true) : Memory.wf (writeInv s off size new).mem = true := by rw [writeInv_mem]; exact hwf

@[simp] theorem bar0Write_wf (s : State) (off size v : Nat) (hwf : Memory.wf s.mem = true) : Memory.wf (bar0Write s off size v).mem = true := by
  unfold bar0Write
  dsimp only
  repeat' with_reducible refine ite_wf _ _ _ ?_ ?_
  all_goals first
    | with_reducible exact hwf
    | with_reducible exact writeInv_wf _ _ _ _ hwf
    | with_reducible exact recoverFrom_wf _ _ hwf
    | with_reducible exact clearHalts_wf _ _ _ hwf
    | with_reducible exact writeDescriptor_wf _ _ _ _ _ hwf
    | exact hwf

@[simp] theorem writeQtail_wf (s : State) (q v : Nat) (hwf : Memory.wf s.mem = true) : Memory.wf (writeQtail s q v).mem = true := by
  unfold writeQtail
  dsimp only; (repeat' split) <;> first | exact hwf | (simp [foldl_wf, hwf]; done)

@[simp] theorem writeQueue_wf (s : State) (q o size v : Nat) (hwf : Memory.wf s.mem = true) : Memory.wf (writeQueue s q o size v).mem = true := by
  unfold writeQueue
  dsimp only; (repeat' split) <;> first | exact hwf | (simp [foldl_wf, hwf]; done)

@[simp] theorem accept_mem (s : State) (ctx vec : Nat) (pay : DWord) (allowed : Bool) : (s.accept ctx vec pay allowed).2.mem = s.mem := by
  unfold State.accept
  dsimp only
  repeat' split
  all_goals rfl

@[simp] theorem bellSend_wf (s : State) (page v : Nat) (hwf : Memory.wf s.mem = true) : Memory.wf (bellSend s page v).mem = true := by
  unfold bellSend
  dsimp only
  rw [accept_mem]; exact hwf

@[simp] theorem writeBell_wf (s : State) (page o size v : Nat) (hwf : Memory.wf s.mem = true) : Memory.wf (writeBell s page o size v).mem = true := by
  unfold writeBell
  (repeat' split) <;> first | exact hwf | (simp [foldl_wf, hwf]; done)

@[simp] theorem hostWrite_wf (s : State) (bar off size : Nat) (v : BitVec 64) (hwf : Memory.wf s.mem = true) : Memory.wf (hostWrite s bar off size v).mem = true := by
  unfold hostWrite
  (repeat' split) <;> first | exact hwf | (simp [foldl_wf, hwf]; done)

@[simp] theorem matTouch_wf (k : Iss) (s : State) (rs : List (Nat × Nat)) (go : Unit → State) (hgo : Memory.wf (go ()).mem = true)
    (hwf : Memory.wf s.mem = true) : Memory.wf (matTouch k s rs go).mem = true := whenPresent_wf k s _ _ _ hgo hwf

@[simp] theorem settleWalk_wf {α : Type} (k : Iss) (s : State) (size : Nat) (r : List (Nat × Except Stop α) × State)
    (go : State → List (Nat × α) → List (Elem × Ready) → State) (hgo : ∀ l f, Memory.wf (go r.2 l f).mem = true)
    (ha : ∀ x ∈ r.1, ∀ e s' tid l, x.2 = .error (.at_ e (.absent s' tid l)) → Memory.wf s'.mem = true)
    (hwf : Memory.wf s.mem = true) : Memory.wf (settleWalk k s size r go).mem = true := by
  unfold settleWalk
  dsimp only
  split
  · next h =>
    refine waitsFor_wf (fun x hx s' tid l hh => ?_) hwf h
    obtain ⟨y, hy, hq⟩ := List.mem_filterMap.1 (List.mem_filter.1 hx).1
    split at hq
    · next e z hz => cases hq; exact ha y hy e s' tid l (by rw [hz]; exact congrArg _ (congrArg _ hh))
    · cases hq
  · exact hgo _ _

@[simp] theorem runEnd_wf (k : Iss) (s : State) (n : Bool) (d : Sel) (c : Nat) (oks : List (Nat × List Nat)) (bad : List (Elem × Ready)) (hwf : Memory.wf s.mem = true) : Memory.wf (runEnd k s n d c oks bad).mem = true := by
  unfold runEnd
  simp [foldl_wf, hwf]

@[simp] theorem traceFault_wf (k : Iss) (s : State) (x : Trap) (hwf : Memory.wf s.mem = true) : Memory.wf (traceFault k s x).mem = true := by
  unfold traceFault
  (repeat' split) <;> first | exact hwf | (simp [foldl_wf, hwf]; done)

theorem fetchWord_wait_mem {s s' : State} {t : Team} {role a : Nat} (h : fetchWord s t role a = .wait s') : s'.mem = s.mem := by
  unfold fetchWord at h
  repeat' split at h
  all_goals first | cases h; done | (cases h; rfl) | (cases h; simp)

@[simp] theorem barGo_wf (k : Iss) (s : State) (gang : Bool) (go : State → State) (hgo : ∀ s, Memory.wf s.mem = true → Memory.wf (go s).mem = true)
    (hwf : Memory.wf s.mem = true) : Memory.wf (barGo k s gang go).mem = true := by
  unfold barGo
  split
  · exact hgo _ (by simpa using hwf)
  · rw [waitOn_mem]; exact hwf

@[simp] theorem gangDone_wf (s : State) (lid key : Nat) (hwf : Memory.wf s.mem = true) : Memory.wf (gangDone s lid key).mem = true := by
  unfold gangDone
  simp only []; (repeat' split) <;> first | exact hwf | (simp_all [foldl_wf, hwf]; done)

@[simp] theorem bootProgram_wf (s : State) (hwf : Memory.wf s.mem = true) : Memory.wf (bootProgram s).mem = true := by
  unfold bootProgram
  simp [foldl_wf, hwf]

@[simp] theorem placeWord_wf (s : State) (w : Word) (hwf : Memory.wf s.mem = true) : Memory.wf (placeWord s w).mem = true := by
  unfold placeWord
  dsimp only
  split
  · rw [modCore_mem]; exact physWrite_wf _ _ _ hwf
  · rw [modCore_mem]; exact physWrite_wf _ _ _ (bootProgram_wf _ hwf)


end Sys2Proof.Machine
end

