-- ==== Sys2Proof/Laws/Keeps.lean ====
section
/-!
SUPPORT. Every meaning keeps the canonical form of physical memory: one lemma for each form, and one for each constructor.
-/

namespace Sys2Proof.Machine

/-- An answer keeps the canonical form of memory. -/
def Keeps (r : Res) : Prop := ∀ s', r = .next s' → Memory.wf s'.mem = true

theorem keeps_next {s : State} (h : Memory.wf s.mem = true) : Keeps (.next s) := fun _ e => by cases e; exact h

theorem keeps_ite {c : Prop} [Decidable c] {a b : Res} (ha : Keeps a) (hb : Keeps b) : Keeps (if c then a else b) := by
  split <;> assumption

theorem issued_keeps {s : State} {f : Iss → State} (h : ∀ k, Memory.wf (f k).mem = true) : Keeps (issued s f) := by
  intro s' e
  unfold issued at e
  split at e
  · cases e
  · cases e; exact h _

theorem guardedForm_keeps {i : Instr} {s : State} {dyn : Iss → Bool} {u : Iss → Uses} {idle : Iss → Thread} {eff : Iss → State}
    (hwf : Memory.wf s.mem = true) (h : ∀ k, Memory.wf (eff k).mem = true) : Keeps (guardedForm i s dyn u idle eff) :=
  issued_keeps (fun k => by
    split
    · exact raise_wf k s _ hwf
    · exact ite_wf _ _ _ (by rw [retireWith_mem]; exact hwf) (h k))

theorem pathForm_keeps {i : Instr} {s : State} {dyn : Iss → Bool} {u : Iss → Uses} {eff : Iss → State}
    (hwf : Memory.wf s.mem = true) (h : ∀ k, Memory.wf (eff k).mem = true) : Keeps (pathForm i s dyn u eff) :=
  issued_keeps (fun k => by
    split
    · exact raise_wf k s _ hwf
    · exact ite_wf _ _ _ (by rw [pass_mem]; exact hwf) (h k))

theorem sectionForm_keeps {i : Instr} {s : State} {dyn : Iss → Bool} {u : Iss → Uses} {eff : Iss → State}
    (hwf : Memory.wf s.mem = true) (h : ∀ k, Memory.wf (eff k).mem = true) : Keeps (sectionForm i s dyn u eff) :=
  pathForm_keeps hwf (fun k => by
    split
    · exact raise_wf k s _ hwf
    · exact h k)

theorem returnForm_keeps {i : Instr} {s : State} {ok : Iss → Bool} {eff : Iss → State}
    (hwf : Memory.wf s.mem = true) (h : ∀ k, Memory.wf (eff k).mem = true) : Keeps (returnForm i s ok eff) :=
  issued_keeps (fun k => by
    (repeat' split) <;> first | exact h k | exact raise_wf k s _ hwf)

theorem regForm_keeps {i : Instr} {s : State} {dyn : Iss → Bool} {u : Iss → Uses} {f : Iss → Thread} (hwf : Memory.wf s.mem = true) :
    Keeps (regForm i s dyn u f) := guardedForm_keeps hwf (fun k => by rw [retireWith_mem]; exact hwf)

theorem laneForm_keeps {i : Instr} {s : State} {dyn : Word → Bool} {n : Bool} {d : Sel} {w : Word → Bool} {srcs : Word → List (Sel × Nat)}
    {f : Thread → Nat → DWord × Word} (hwf : Memory.wf s.mem = true) : Keeps (laneForm i s dyn n d w srcs f) := regForm_keeps hwf

theorem predForm_keeps {i : Instr} {s : State} {dyn : Word → Bool} {p : Nat} {srcs : Word → List (Sel × Nat)}
    {f : Thread → Nat → Bool × Word} (hwf : Memory.wf s.mem = true) : Keeps (predForm i s dyn p srcs f) := regForm_keeps hwf

theorem castForm_keeps {i : Instr} {d b : Sel} {wd wb : Bool} {f : Iss → Nat → Nat × Bool × DWord} {s : State} (hwf : Memory.wf s.mem = true) :
    Keeps (castForm i d b wd wb f s) := guardedForm_keeps hwf (fun k => accessEnd_wf _ _ _ _ hwf)

theorem sysForm_keeps {i : Instr} {fl : Bool} {a b : Sel} {s : State} (hwf : Memory.wf s.mem = true) : Keeps (sysForm i fl a b s) :=
  guardedForm_keeps hwf (fun k => by
    dsimp only
    refine ite_wf _ _ _ (raise_wf _ _ _ hwf) (ite_wf _ _ _ ?_ ?_)
    · rw [waitOn_mem]; exact hwf
    · rw [pass_mem, modOwn_mem]; exact hwf)

theorem loadM_keeps {i : Instr} {win : Window} {n : Bool} {d : Sel} {m : BitVec 5} {o : Sel} {c : BitVec 3} {s : State}
    (hwf : Memory.wf s.mem = true) : Keeps (loadM i win n d m o c s) := guardedForm_keeps hwf (fun k => loadForm_wf _ _ _ _ _ _ _ _ _ _ _ hwf)

theorem redM_keeps {i : Instr} {kind : OpKind} {d : Sel} {m : BitVec 5} {o : Sel} {c : BitVec 3} {s : State}
    (hwf : Memory.wf s.mem = true) : Keeps (redM i kind d m o c s) := guardedForm_keeps hwf (fun k => storeForm_wf _ _ _ _ _ hwf)

theorem turns_wf {α : Type} (f : State → α → Turn) (l : List α)
    (hf : ∀ s x s', f s x = .go s' → Memory.wf s.mem = true → Memory.wf s'.mem = true) (a : Turn) (s' : State)
    (h : l.foldl (fun acc x => match acc with
      | .go s => f s x
      | r => r) a = .go s') (ha : ∀ s, a = .go s → Memory.wf s.mem = true) : Memory.wf s'.mem = true := by
  induction l generalizing a with
  | nil => exact ha _ h
  | cons x r ih =>
    refine ih _ h (fun q hq => ?_)
    cases a with
    | wait _ => exact nomatch hq
    | diverged => exact nomatch hq
    | go s => exact hf s x q hq (ha s rfl)

theorem atomTurn_wf {t : Team} {c : Section} {s s' : State} {ls : List LaneOp} (h : atomTurn t c s ls = .go s') (hwf : Memory.wf s.mem = true) :
    Memory.wf s'.mem = true := by
  unfold atomTurn at h
  exact turns_wf _ _ (fun _ _ _ hc hs => choose_wf hc hs) _ _ h (fun q hq => by cases hq; exact hwf)

theorem atomM_keeps {i : Instr} {kind : OpKind} {n : Bool} {d : Sel} {m : BitVec 5} {o : Sel} {c : BitVec 3} {s : State}
    (hwf : Memory.wf s.mem = true) : Keeps (atomM i kind n d m o c s) :=
  guardedForm_keeps hwf (fun k => ite_wf _ _ _ (storeForm_wf _ _ _ _ _ hwf) (atomForm_wf _ _ _ _ _ _ _ (fun _ _ h => atomTurn_wf h hwf) hwf))

theorem recordRead_wf {k : Iss} {s : State} {a : Nat} {x : Shape × State} (h : recordRead k s a = .ok x) (hwf : Memory.wf s.mem = true) :
    Memory.wf x.2.mem = true := by
  unfold recordRead at h
  dsimp only at h
  split at h
  · rw [← Except.ok.inj h]; exact (loadAt_mem _ _ _ _).symm ▸ hwf
  · rw [← Except.ok.inj h]; exact hwf
  · exact nomatch h

theorem recordRead_absent {k : Iss} {s s' : State} {a tid l : Nat} (h : recordRead k s a = .error (.absent s' tid l)) (hwf : Memory.wf s.mem = true) :
    Memory.wf s'.mem = true := by
  unfold recordRead at h
  dsimp only at h
  split at h
  · exact nomatch h
  · exact nomatch h
  · have h := Except.error.inj h
    revert h
    split
    · exact fun h => nomatch h
    · intro h; rw [readyAt_absent (eccOf_absent h)]; exact hwf

@[simp] theorem hostRecord_wf (k : Iss) (s : State) (a : Nat) (sp : Spot) (hwf : Memory.wf s.mem = true) : Memory.wf (hostRecord k s a sp).mem = true := by
  unfold hostRecord
  dsimp only
  (repeat' split) <;> first | exact hwf | (simp [hwf]; done)

theorem shaped_keeps {i : Instr} {n : Bool} {d : Sel} {isLoad : Bool} {m : BitVec 5} {v : Sel} {s : State} {eff : Iss → State → Shape → Nat → State}
    (hwf : Memory.wf s.mem = true) (h : ∀ k s' r a, Memory.wf s'.mem = true → Memory.wf (eff k s' r a).mem = true) :
    Keeps (shaped i n d isLoad m v s eff) :=
  guardedForm_keeps hwf (fun k => by
    dsimp only
    refine ite_wf _ _ _ (raise_wf _ _ _ hwf) ?_
    split
    · next hr =>
      split
      · exact raise_wf _ _ _ hwf
      · split
        · exact raiseAccess_wf _ _ _ (by rw [homesServed_mem]; exact hwf)
        · exact hostRecord_wf _ _ _ _ hwf
        · rw [waitOn_mem]; exact recordRead_absent hr hwf
        · rw [waitOn_mem, askHome_mem]; exact hwf
        · rw [waitOn_mem]; exact hwf
        · exact hwf
    · next hr =>
      refine ite_wf _ _ _ (raise_wf _ _ _ hwf) (ite_wf _ _ _ (raise_wf _ _ _ hwf) ?_)
      split
      · exact raise_wf _ _ _ hwf
      · exact h _ _ _ _ (recordRead_wf hr hwf))

theorem tableForm_keeps {i : Instr} {n al : Nat} {b : Sel} {s : State} {put : Section → Nat → List Byte → Section} (hwf : Memory.wf s.mem = true) :
    Keeps (tableForm i n al b s put) :=
  issued_keeps (fun k => by
    dsimp only
    refine ite_wf _ _ _ (raise_wf _ _ _ hwf) (ite_wf _ _ _ (by rw [pass_mem]; exact hwf) (ite_wf _ _ _ (raise_wf _ _ _ hwf) ?_))
    split
    · exact raise_wf _ _ _ hwf
    · exact whenRead_wf _ _ _ _ _ (by rw [modOwn_mem, pass_mem]; exact hwf) hwf)

theorem mldForm_keeps {i : Instr} {e : BitVec 2} {a b : Sel} {s : State} (hwf : Memory.wf s.mem = true) : Keeps (mldForm i e a b s) :=
  issued_keeps (fun k => by
    dsimp only
    refine ite_wf _ _ _ (raise_wf _ _ _ hwf) (ite_wf _ _ _ (by rw [pass_mem]; exact hwf) (ite_wf _ _ _ (raise_wf _ _ _ hwf) (whenRecord_wf _ _ _ _ _ _ ?_ hwf)))
    split
    · exact raise_wf _ _ _ hwf
    · refine ite_wf _ _ _ (raise_wf _ _ _ hwf) ?_
      split
      · exact raise_wf _ _ _ hwf
      · rw [modOwn_mem, pass_mem]; exact hwf)

theorem tbForm_keeps {i : Instr} {s : State} {a : Sel} {srcs dst : List (Sel × Nat)} {lantern : Bool} {ok : Iss → Bool} {eff : Iss → Nat → TBar → State}
    (hwf : Memory.wf s.mem = true) (h : ∀ k off b, Memory.wf (eff k off b).mem = true) : Keeps (tbForm i s a srcs dst lantern ok eff) :=
  issued_keeps (fun k => by
    dsimp only
    refine ite_wf _ _ _ (raise_wf _ _ _ hwf) (ite_wf _ _ _ (by rw [pass_mem]; exact hwf) (ite_wf _ _ _ (raise_wf _ _ _ hwf)
      (ite_wf _ _ _ (raise_wf _ _ _ hwf) (ite_wf _ _ _ (raise_wf _ _ _ hwf) (whenRecord_wf _ _ _ _ _ _ (ite_wf _ _ _ (raise_wf _ _ _ hwf) ?_) hwf)))))
    split
    · exact raise_wf _ _ _ hwf
    · exact h _ _ _)

theorem startBoundLines_mem {tid : Nat} (l : List Nat) : ∀ {s s' : State}, startBoundLines s tid l = some s' → s'.mem = s.mem := by
  induction l with
  | nil => exact fun h => by rw [← Option.some.inj h]
  | cons x r ih =>
    intro s s'
    unfold startBoundLines
    dsimp only
    repeat' split
    all_goals
      intro h
      first
        | contradiction
        | exact ih h
        | rw [ih h, startBound_mem]
        | rw [← Option.some.inj h]

theorem copyForm_keeps {i : Instr} {form : Nat} {a : Sel} {s : State} (hwf : Memory.wf s.mem = true) : Keeps (copyForm i form a s) :=
  sectionForm_keeps hwf (fun k => by
    dsimp only
    refine ite_wf _ _ _ (by rw [waitOn_mem]; exact hwf) (ite_wf _ _ _ (by rw [waitOn_mem]; exact hwf) (ite_wf _ _ _ (by rw [waitOn_mem]; exact hwf) ?_))
    split
    · rw [waitOn_mem]; exact hwf
    · next h =>
      have hm := startBoundLines_mem _ h
      rw [← hm] at hwf
      refine ite_wf _ _ _ (by rw [waitOn_mem]; exact hwf) (ite_wf _ _ _ (by rw [waitOn_mem]; exact hwf) ?_)
      rw [modOwn_mem, pass_mem, modCore_mem, modTeam_mem, modTeam_mem]
      exact hwf)

theorem matForm_keeps {m : MatKind} {i : Instr} {n : Bool} {d a b : Sel} {s : State} (hwf : Memory.wf s.mem = true) : Keeps (matForm m i n d a b s) :=
  issued_keeps (fun k => by
    dsimp only
    refine ite_wf _ _ _ (raise_wf _ _ _ hwf) (ite_wf _ _ _ (by rw [retireWith_mem]; exact hwf) (whenRecord_wf _ _ _ _ _ _ ?_ hwf))
    split
    · exact raise_wf _ _ _ hwf
    · split
      · exact raise_wf _ _ _ hwf
      · split
        · exact raise_wf _ _ _ hwf
        · split
          · exact raise_wf _ _ _ hwf
          · refine matTouch_wf _ _ _ _ (unlessFailed_wf _ _ _ _ _ (ite_wf _ _ _ hwf ?_) hwf) hwf
            split
            · refine ite_wf _ _ _ ?_ ?_
              · rw [waitOn_mem, modOwn_mem]; exact hwf
              · rw [modOwn_mem, retireWith_mem]; exact hwf
            · simpa using hwf)

theorem readyAll_absent' {s s' : State} {k : Iss} {f : Form} {sys : Option Bool} {n : Nat} {es : List Elem} {x : Elem × Ready} {tid l : Nat}
    (hx : x ∈ s.readyAll k f sys n es) (h : x.2 = .absent s' tid l) (hwf : Memory.wf s.mem = true) : Memory.wf s'.mem = true := by
  rw [readyAll_absent hx h]; exact hwf

theorem storeM_keeps {i : Instr} {win : Window} {d : Sel} {m : BitVec 5} {o : Sel} {c : BitVec 3} {s : State}
    (hwf : Memory.wf s.mem = true) : Keeps (storeM i win d m o c s) := guardedForm_keeps hwf (fun k => storeForm_wf _ _ _ _ _ hwf)

/-- Reads that end well leave memory in its form, and so does a wait for an absent line. -/
def Sound {α : Type} (x : Walk α) : Prop :=
  (∀ v s', x = .ok (v, s') → Memory.wf s'.mem = true) ∧ (∀ e s' tid l, x = .error (.at_ e (.absent s' tid l)) → Memory.wf s'.mem = true)

theorem sound_ok {α : Type} {v : α} {s : State} (h : Memory.wf s.mem = true) : Sound (.ok (v, s) : Walk α) :=
  ⟨fun _ _ e => by cases e; exact h, fun _ _ _ _ e => by cases e⟩

theorem sound_error {α β : Type} {x : Walk α} {e : Stop} (h : Sound x) (hx : x = .error e) : Sound (.error e : Walk β) :=
  ⟨fun _ _ e => (by cases e), fun e s' tid l hh => by cases hh; exact h.2 e s' tid l hx⟩

/-- A stop that is no wait for an absent line changes no state. -/
theorem sound_stop {α : Type} {e : Elem} {r : Ready} (h : ∀ s' tid l, r ≠ .absent s' tid l) : Sound (.error (.at_ e r) : Walk α) := by
  constructor
  · intro _ _ x; exact nomatch x
  · intro _ s' tid l x
    injection x with x
    injection x with _ x
    exact absurd x (h s' tid l)

theorem sound_fault {α : Type} {e : Elem} {c : Nat} {ad : DWord} {w : Word} : Sound (.error (.at_ e (.fault c ad w)) : Walk α) :=
  sound_stop (fun _ _ _ => Ready.noConfusion)

theorem nodePlace_sound {α : Type} {l a al : Nat} {e : Stop} (h : nodePlace l a al = some e) : Sound (.error e : Walk α) := by
  revert h
  unfold nodePlace
  dsimp only
  repeat' split
  all_goals
    intro h
    first
      | contradiction
      | (rw [← Option.some.inj h]; exact sound_fault)

theorem illNode_sound {α : Type} {ins : Instr} {l a : Nat} : Sound (.error (illNode ins l a) : Walk α) := sound_fault

theorem readEl_sound (k : Iss) (l size a : Nat) (node : Option Nat) (s : State) (hwf : Memory.wf s.mem = true) : Sound (readEl k l size a node s) := by
  unfold readEl
  dsimp only
  split
  · exact sound_ok hwf
  · next e r hh =>
    have hm := List.mem_of_head? hh
    split
    · exact sound_fault
    · exact sound_ok (by rw [loadAt_mem]; exact hwf)
    · exact sound_ok (by rw [loadAt_mem]; exact hwf)
    · exact sound_ok (by rw [loadAt_mem]; exact hwf)
    · constructor
      · intro _ _ x; exact nomatch x
      · intro _ s' tid l x
        injection x with x
        injection x with _ x
        exact readyAll_absent' hm x hwf

theorem readEls_sound (k : Iss) (l size : Nat) (node : Option Nat) (as : List Nat) : ∀ s, Memory.wf s.mem = true → Sound (readEls k l size node as s) := by
  induction as with
  | nil => exact fun s h => sound_ok h
  | cons a r ih =>
    intro s hwf
    have h1 := readEl_sound k l size a node s hwf
    unfold readEls
    split
    · next hx => exact sound_error h1 hx
    · next hx =>
      have h2 := ih _ (h1.1 _ _ hx)
      split
      · next hy => exact sound_error h2 hy
      · next hy => exact sound_ok (h2.1 _ _ hy)

theorem readWords_sound (k : Iss) (l a n : Nat) (s : State) (hwf : Memory.wf s.mem = true) : Sound (readWords k l a n s) := by
  have h1 := readEls_sound k l 8 (some a) ((List.range n).map (fun i => a + 8 * i)) s hwf
  unfold readWords
  split
  · next hx => exact sound_error h1 hx
  · next hx => exact sound_ok (h1.1 _ _ hx)

theorem triLeaf_sound (k : Iss) (ins : Instr) (l : Nat) (r : Ray) (n : Nat) : ∀ a w s, Memory.wf s.mem = true → Sound (triLeaf k ins l r n a w s) := by
  induction n with
  | zero => exact fun a w s h => sound_ok h
  | succ n ih =>
    intro a w s hwf
    have h1 := readWords_sound k l a 8 s hwf
    unfold triLeaf
    split
    · next h => exact nodePlace_sound h
    · split
      · next hx => exact sound_error h1 hx
      · next hx =>
        split
        · exact illNode_sound
        · exact ih _ _ _ (h1.1 _ _ hx)

theorem procLeaf_sound (k : Iss) (ins : Instr) (l : Nat) (t : Q) (n : Nat) : ∀ a w s, Memory.wf s.mem = true → Sound (procLeaf k ins l t n a w s) := by
  induction n with
  | zero => exact fun a w s h => sound_ok h
  | succ n ih =>
    intro a w s hwf
    have h1 := readWords_sound k l a 2 s hwf
    unfold procLeaf
    split
    · next h => exact nodePlace_sound h
    · split
      · next hx => exact sound_error h1 hx
      · next hx =>
        split
        · exact illNode_sound
        · exact ih _ _ _ (h1.1 _ _ hx)

theorem nodeKids_sound (k : Iss) (ins : Instr) (l : Nat) (r : Ray) (proc : Bool) (n : Node) (cs : List Nat) :
    ∀ w todo s, Memory.wf s.mem = true → Sound (nodeKids k ins l r proc n cs w todo s) := by
  induction cs with
  | nil => exact fun w todo s h => sound_ok h
  | cons c cs ih =>
    intro w todo s hwf
    unfold nodeKids
    (repeat' split) <;> first
      | exact ih _ _ _ hwf
      | exact sound_error (triLeaf_sound _ _ _ _ _ _ _ _ hwf) ‹_›
      | exact sound_error (procLeaf_sound _ _ _ _ _ _ _ _ hwf) ‹_›
      | exact ih _ _ _ ((triLeaf_sound _ _ _ _ _ _ _ _ hwf).1 _ _ ‹_›)
      | exact ih _ _ _ ((procLeaf_sound _ _ _ _ _ _ _ _ hwf).1 _ _ ‹_›)

theorem traverse_sound (k : Iss) (ins : Instr) (l : Nat) (r : Ray) (proc : Bool) (fuel : Nat) :
    ∀ last todo w s, Memory.wf s.mem = true → Sound (traverse k ins l r proc fuel last todo w s) := by
  induction fuel with
  | zero =>
    intro last todo w s hwf
    cases todo with
    | nil => exact sound_ok hwf
    | cons a t => exact illNode_sound
  | succ fuel ih =>
    intro last todo w s hwf
    cases todo with
    | nil => exact sound_ok hwf
    | cons a t =>
      have h1 := readWords_sound k l a 8 s hwf
      unfold traverse
      split
      · next h => exact nodePlace_sound h
      · split
        · next hx => exact sound_error h1 hx
        · next v s' hx =>
          dsimp only
          split
          · exact illNode_sound
          · have h2 := nodeKids_sound k ins l r proc ⟨v⟩ [0, 1, 2, 3] w [] s' (h1.1 _ _ hx)
            split
            · next hy => exact sound_error h2 hy
            · next hy => exact ih _ _ _ _ (h2.1 _ _ hy)

theorem rayLane_sound (k : Iss) (ins : Instr) (a : Sel) (root : Nat) (proc : Bool) (l : Nat) (s : State) (hwf : Memory.wf s.mem = true) :
    Sound (rayLane k ins a root proc l s) := by
  unfold rayLane
  split
  · exact sound_ok hwf
  · exact traverse_sound _ _ _ _ _ _ _ _ _ _ hwf

theorem walkLanes_sound {α : Type} (f : Nat → State → Walk α) (hf : ∀ l s, Memory.wf s.mem = true → Sound (f l s)) (ls : List Nat) (s : State)
    (hwf : Memory.wf s.mem = true) : Memory.wf (walkLanes ls f s).2.mem = true ∧
      ∀ x ∈ (walkLanes ls f s).1, ∀ e s' tid l, x.2 = .error (.at_ e (.absent s' tid l)) → Memory.wf s'.mem = true := by
  refine List.foldlRecOn ls _ (motive := fun (p : List (Nat × Except Stop α) × State) => Memory.wf p.2.mem = true ∧
    ∀ x ∈ p.1, ∀ e s' tid l, x.2 = .error (.at_ e (.absent s' tid l)) → Memory.wf s'.mem = true)
    ⟨hwf, fun x hx => absurd hx List.not_mem_nil⟩ (fun p h l _ => ?_)
  have h1 := hf l p.2 h.1
  cases hx : f l p.2 with
  | ok v => exact ⟨h1.1 _ _ hx, List.forall_mem_append.2 ⟨h.2, by simp⟩⟩
  | error e => exact ⟨h.1, List.forall_mem_append.2 ⟨h.2, List.forall_mem_singleton.2 (fun _ _ _ _ he => h1.2 _ _ _ _ (hx.trans (congrArg Except.error (Except.error.inj he))))⟩⟩

theorem walk_wf {α : Type} {k : Iss} {s : State} {size : Nat} {ls : List Nat} {f : Nat → State → Walk α}
    {go : State → List (Nat × α) → List (Elem × Ready) → State} (hf : ∀ l s, Memory.wf s.mem = true → Sound (f l s))
    (hgo : ∀ s l b, Memory.wf s.mem = true → Memory.wf (go s l b).mem = true) (hwf : Memory.wf s.mem = true) :
    Memory.wf (settleWalk k s size (walkLanes ls f s) go).mem = true :=
  settleWalk_wf _ _ _ _ _ (fun l b => hgo _ l b (walkLanes_sound f hf ls s hwf).1) (walkLanes_sound f hf ls s hwf).2 hwf

theorem texForm_keeps {ins : Instr} {n : Bool} {d a b : Sel} {c : Nat} {s : State} {lane : Iss → Texture → Nat → State → Walk (List Nat)}
    (hwf : Memory.wf s.mem = true) (hl : ∀ k t l s, Memory.wf s.mem = true → Sound (lane k t l s)) : Keeps (texForm ins n d a b c s lane) :=
  issued_keeps (fun k => by
    dsimp only
    refine ite_wf _ _ _ (raise_wf _ _ _ hwf) (ite_wf _ _ _ (by rw [retireWith_mem]; exact hwf) (ite_wf _ _ _ (raise_wf _ _ _ hwf) (whenRecord_wf _ _ _ _ _ _ ?_ hwf)))
    split
    · exact raise_wf _ _ _ hwf
    · split
      · exact raise_wf _ _ _ hwf
      · exact walk_wf (hl k _) (fun s l b h => runEnd_wf _ _ _ _ _ _ _ h) hwf)

theorem fetchWord_word_mem {s s' : State} {t : Team} {key a : Nat} {w : Word} (h : fetchWord s t key a = .word w s') : s'.mem = s.mem := by
  have e := congrArg (fun x : State => x.mem) (fetchWord_frame h)
  exact e

theorem budgetWord_ok {k : Iss} {s s' : State} {t : DWord} {m : Mask} (h : budgetWord k s t m = .ok s') (hwf : Memory.wf s.mem = true) :
    Memory.wf s'.mem = true := by
  revert h
  unfold budgetWord
  repeat' split
  all_goals
    intro h
    first
      | contradiction
      | (rw [← Except.ok.inj h, fetchWord_word_mem (by assumption)]; exact hwf)

theorem budgetWord_error {k : Iss} {s s' : State} {t : DWord} {m : Mask} {x : Option Trap} (h : budgetWord k s t m = .error (x, s')) (hwf : Memory.wf s.mem = true) :
    Memory.wf s'.mem = true := by
  revert h
  unfold budgetWord
  repeat' split
  all_goals
    intro h
    first
      | contradiction
      | (injection h with h; injection h with _ h; rw [← h, fetchWord_wait_mem (by assumption)]; exact hwf)
      | (injection h with h; injection h with _ h; rw [← h]; exact hwf)

theorem traceCall_wf (k : Iss) (s : State) (n : Bool) (a : Sel) (wins : List (Nat × Option Win)) (targets : List (Nat × Nat)) (hwf : Memory.wf s.mem = true) :
    Memory.wf (traceCall k s n a wins targets).mem = true := by
  unfold traceCall
  dsimp only
  split
  · next h => rw [waitOn_mem]; exact budgetWord_error h hwf
  · next h => exact traceFault_wf _ _ _ (by rw [memOver_mem]; exact budgetWord_error h hwf)
  · next h =>
    have h1 := budgetWord_ok h hwf
    split
    · rw [retireWith_mem, modRec_mem, memOver_mem]; exact h1
    · exact ite_wf _ _ _ (by rw [retireWith_mem, setAside_mem, memOver_mem]; exact h1)
        (spilled_wf _ _ _ _ _ _ (by rw [retireWith_mem, setAside_mem, memOver_mem]; exact h1) (by rw [memOver_mem]; exact h1))

theorem tileForm_keeps {ins : Instr} {s : State} {a b : Sel} {run : Nat} {layer : Option Nat} {touches : Pixel → Bool} {size : Nat}
    {reads : Bool} {off : RTile → Pixel → Nat} {step : Iss → RTile → PixStep} {fin : Iss → List Nat → State → State → Thread → Thread}
    (hwf : Memory.wf s.mem = true) (hs : ∀ k t s p, Memory.wf s.mem = true → Memory.wf (step k t s p).1.mem = true) :
    Keeps (tileForm ins s a b run layer touches size reads off step fin) :=
  guardedForm_keeps hwf (fun k => by
    dsimp only
    split
    · exact hwf
    · split
      · next h =>
        refine waitsFor_wf (fun x hx s' tid l hh => ?_) hwf h
        obtain ⟨p, _, rfl⟩ := List.mem_map.1 hx
        rw [readyAt_absent (eccOf_absent hh)]; exact hwf
      · refine accessEnd_wf _ _ _ _ ?_
        have key : ∀ (l : List Pixel) (t : RTile) (p : State × Word), Memory.wf p.1.mem = true →
            Memory.wf (l.foldl (fun acc p => ((step k t acc.1 p).1, acc.2 ||| (step k t acc.1 p).2)) p).1.mem = true := by
          intro l t
          induction l with
          | nil => exact fun p h => h
          | cons x r ih => exact fun p h => ih _ (hs k t _ x h)
        exact key _ _ _ hwf)

theorem imageOut_wf (s : State) (t : Team) (hwf : Memory.wf s.mem = true) : Memory.wf (s.imageOut t).mem = true := by
  unfold State.imageOut
  split
  · exact hwf
  · refine ite_wf _ _ _ hwf (foldl_wf _ _ _ (fun s x h => ?_) (foldl_wf _ _ _ (fun s x h => ?_) hwf))
    · split
      · exact freeBytes_wf _ _ _ h
      · exact h
    · split
      · exact homeWrite_wf _ _ h
      · exact h

theorem imageIn_mem (s : State) (t : Team) : (s.imageIn t).mem = s.mem := by
  unfold State.imageIn
  split
  · rfl
  · exact ite_mem _ _ _ _ rfl (modTeam_mem _ _ _)

theorem fillImage_mem (s : State) (t : Team) : (s.fillImage t).mem = s.mem := ite_mem _ _ _ _ rfl (imageIn_mem _ _)

theorem imageAt_wait {s s' : State} {t : Team} {acc : Access} (h : s.imageAt t acc = .wait s') : s'.mem = s.mem := by
  revert h
  unfold State.imageAt
  dsimp only
  repeat' split
  all_goals
    intro h
    first
      | contradiction
      | (injection h with h; rw [← h]; exact foldl_mem _ _ _ (fun s x => askHome_mem _ _ _ _))

theorem fillAt_wait {s s' : State} (l : List Team) (h : s.fillAt l = .wait s') : s'.mem = s.mem := by
  induction l with
  | nil => cases h
  | cons t r ih =>
    revert h
    unfold State.fillAt
    (repeat' split) <;> intro h <;> first | exact ih h | exact imageAt_wait h

theorem hostAtomics_wf (ctx : Nat) (l : List (List Byte)) : ∀ (s : State) (o : List (BitVec 64)), Memory.wf s.mem = true →
    Memory.wf (hostAtomics s ctx l o).1.mem = true := by
  induction l with
  | nil => exact fun s _ h => h
  | cons b r ih => exact fun s o h => ih _ _ (hostAtomic_wf s ctx b _ h)

@[simp] theorem wakeServed_mem (s : State) (ctx : Nat) : (s.wakeServed ctx).mem = s.mem := by
  unfold State.wakeServed
  dsimp only
  (repeat' split) <;> rfl

theorem restoreTeam_wf {s s' : State} {t : Team} (h : restoreTeam s t = .go s') (hwf : Memory.wf s.mem = true) : Memory.wf s'.mem = true := by
  unfold restoreTeam at h
  split at h
  · next hd =>
    rw [← Turn.go.inj h]
    exact recheckAll_wf _ _ (by rw [wakeServed_mem, modCore_mem, modTeam_mem, unstow_mem]; exact deliverAll_wf hd hwf)
  · next hn => exact absurd h (hn s')

theorem logPlaces_wf {s s' : State} {l : Launch} {cs : List Nat} (h : s.logPlaces l cs = .go s') (hwf : Memory.wf s.mem = true) : Memory.wf s'.mem = true :=
  turns_wf _ _ (fun _ _ _ hc hs => choose_wf hc hs) _ _ h (fun q hq => by cases hq; exact hwf)

theorem dropLines_mem (t : Team) (l : List Nat) (s : State) : (l.foldl (fun s l => s.dropLine t.die t.core l) s).mem = s.mem :=
  foldl_mem _ _ _ (fun s x => dropLine_mem _ _ _ _)

theorem turnIf_wf {p : Prop} [Decidable p] {s q : State} {r : Turn} (h : (if p then r else .go s) = .go q)
    (hr : r = .go q → Memory.wf q.mem = true) (hwf : Memory.wf s.mem = true) : Memory.wf q.mem = true := by
  by_cases hp : p
  · rw [if_pos hp] at h; exact hr h
  · rw [if_neg hp] at h; exact Turn.go.inj h ▸ hwf

theorem postLane_wf {s s' : State} {t : Team} {c : Section} {op : MemOp} {x : LaneOp} (h : s.postLane t c op x = .go s') (hwf : Memory.wf s.mem = true) :
    Memory.wf s'.mem = true := by
  revert h
  unfold State.postLane
  dsimp only
  (repeat' split) <;> intro h <;> first
    | contradiction
    | exact choose_wf h hwf
    | (rw [← Turn.go.inj h]; first
        | exact hwf
        | (rw [accumulate_mem]; exact hwf)
        | (rw [dropLines_mem]; exact spotWrite_wf _ _ _ _ hwf)
        | (rw [dropLines_mem]; exact stepAt_wf _ _ _ _ _ (turnIf_wf ‹_› (fun h => choose_wf h hwf) hwf)))

theorem replayLane_wf {s s' : State} {t : Team} {c : Section} {op : MemOp} {x : LaneOp} {pas : List (Nat × Nat)} (h : s.replayLane t c op x pas = .go s')
    (hwf : Memory.wf s.mem = true) : Memory.wf s'.mem = true := by
  unfold State.replayLane at h
  dsimp only at h
  split at h
  · next hp =>
    cases h
    have h1 := postLane_wf hp (ite_wf _ _ _ (foldl_wf _ _ _ (fun s x h => by rw [dropLineAll_mem, dropSlice_mem]; exact writeBack_wf _ _ h) hwf) hwf)
    exact ite_wf _ _ _ (foldl_wf _ _ _ (fun s x h => by rw [dropSlice_mem]; exact writeBack_wf _ _ h) h1) h1
  · next hn => exact absurd h (hn s')

theorem placeOpen_mem {s s' : State} {sp : Spot} {n : Nat} (h : s.placeOpen sp n = .error s') : s'.mem = s.mem := by
  revert h
  unfold State.placeOpen
  (repeat' split) <;> intro h <;> first
    | contradiction
    | exact (Except.error.inj h) ▸ rfl
    | (rw [← Except.error.inj h]; exact touch_mem _ _ _ _ _ ‹_›)

theorem dmrLane_wf {s s' : State} {t : Team} {c : Section} {o : DmrOp} {x : LaneOp} {sp : Spot} {v : Nat} (h : s.dmrLane t c o x sp = (v, .go s'))
    (hwf : Memory.wf s.mem = true) : Memory.wf s'.mem = true := by
  have both : ∀ s : State, Memory.wf s.mem = true → Memory.wf (match sp.twin s with
      | some sp' => if o.op.kind = OpKind.store then s.spotWrite t.ctx sp' (toBytes o.op.size x.data.toNat) else (s.stepAt t.ctx o.op x sp').2
      | none => s).mem = true := by
    intro s h
    split
    · exact ite_wf _ _ _ (spotWrite_wf _ _ _ _ h) (stepAt_wf _ _ _ _ _ h)
    · exact h
  have h := congrArg Prod.snd h
  revert h
  unfold State.dmrLane
  dsimp only
  split
  · intro h
    rw [← Turn.go.inj h, dropBoth_mem]; exact both _ (stepAt_wf _ _ _ _ _ hwf)
  · split
    · intro h
      rw [← Turn.go.inj h]
      split
      · rw [accumulate_mem, accumulate_mem]; exact hwf
      · rw [accumulate_mem]; exact hwf
    · dsimp only
      split
      · next hp => intro h; rw [← Turn.go.inj h, dropBoth_mem]; exact both _ (postLane_wf hp hwf)
      · next hn => intro h; exact absurd h (hn s')

theorem dmrPerform_wf {s s' : State} {t : Team} {c : Section} {o : DmrOp} {ls : List LaneOp} (h : (s.dmrPerform t c o ls).2 = .go s')
    (hwf : Memory.wf s.mem = true) : Memory.wf s'.mem = true := by
  have key : ∀ (l : List LaneOp) (p : List (Nat × DWord) × Turn), (∀ q, p.2 = .go q → Memory.wf q.mem = true) →
      ∀ q, (l.foldl (fun acc x => match acc.2, x.spot with
        | .go s, some sp => (acc.1 ++ [(x.lane, BitVec.ofNat 64 (s.dmrLane t c o x sp).1)], (s.dmrLane t c o x sp).2)
        | _, _ => acc) p).2 = .go q → Memory.wf q.mem = true := by
    intro l
    induction l with
    | nil => exact fun p hp q hq => hp q hq
    | cons x r ih =>
      have one : ∀ (p : List (Nat × DWord) × Turn), (∀ q, p.2 = .go q → Memory.wf q.mem = true) → ∀ q, (match p.2, x.spot with
          | .go s, some sp => (p.1 ++ [(x.lane, BitVec.ofNat 64 (s.dmrLane t c o x sp).1)], (s.dmrLane t c o x sp).2)
          | _, _ => p).2 = .go q → Memory.wf q.mem = true := by
        intro p hp q
        split
        · next s1 sp h1 _ => intro hq; exact dmrLane_wf (Prod.ext rfl hq) (hp _ h1)
        · exact hp q
      exact fun p hp => ih _ (one p hp)
  refine key ls _ (fun q hq => ?_) s' h
  revert hq
  dsimp only
  split
  · exact fun hq => atomTurn_wf hq hwf
  · exact fun hq => Turn.go.inj hq ▸ hwf

theorem takePacket_wf (s : State) (q : Nat) (x : Queue) (part err : Nat) (packet : List Byte) (hwf : Memory.wf s.mem = true) :
    Memory.wf (takePacket s q x part err packet).1.mem = true := by
  have pick : ∀ (c : Prop) [Decidable c] (a b : State × Bool), Memory.wf a.1.mem = true → Memory.wf b.1.mem = true →
      Memory.wf (if c then a else b).1.mem = true := by
    intro c _ a b ha hb
    split <;> assumption
  have no : ∀ cause, Memory.wf (rejectLaunch s x.ctx.toNat q (Packet.of (ofBytes packet)).chain cause packet).mem = true :=
    fun cause => rejectLaunch_wf _ _ _ _ _ _ hwf
  unfold takePacket
  dsimp only
  refine pick _ _ _ hwf ?_
  split
  · dsimp only; rw [askHome_mem]; exact hwf
  · refine pick _ _ _ (no _) (pick _ _ _ (no _) (pick _ _ _ (no _) ?_))
    dsimp only; rw [acceptLaunch_mem]; exact hwf

theorem intForm_keeps (i : Instr) (n : Bool) (d : Sel) (srcs : List Sel) (t : Thread → Nat → Int) (s : State) (hwf : Memory.wf s.mem = true) : Keeps (intForm i n d srcs t s) := by
  unfold intForm
  exact laneForm_keeps hwf

theorem shiftForm_keeps (i : Instr) (n : Bool) (d a b : Sel) (t : Int → Nat → Int) (s : State) (hwf : Memory.wf s.mem = true) : Keeps (shiftForm i n d a b t s) := by
  unfold shiftForm
  exact laneForm_keeps hwf

theorem countForm_keeps (i : Instr) (n : Bool) (d a : Sel) (f : Nat → Nat → Nat) (s : State) (hwf : Memory.wf s.mem = true) : Keeps (countForm i n d a f s) := by
  unfold countForm
  exact laneForm_keeps hwf

theorem floatForm_keeps (i : Instr) (n : Bool) (d : Sel) (srcs : List Sel) (f : Thread → Nat → DWord × Word) (s : State) (hwf : Memory.wf s.mem = true) : Keeps (floatForm i n d srcs f s) := by
  unfold floatForm
  exact laneForm_keeps hwf

theorem dotForm_keeps (i : Instr) (cnt : Nat) (types : List Nat) (n : Bool) (d a b : Sel) (s : State) (hwf : Memory.wf s.mem = true) : Keeps (dotForm i cnt types n d a b s) := by
  unfold dotForm
  exact laneForm_keeps hwf

theorem cvtForm_keeps (i : Instr) (ov : BitVec 2) (a b : Sel) (dst src : PackElem) (s : State) (hwf : Memory.wf s.mem = true) : Keeps (cvtForm i ov a b dst src s) := by
  unfold cvtForm
  exact laneForm_keeps hwf

theorem packForm_keeps (i : Instr) (ov : BitVec 2) (a b : Sel) (n : Nat) (e wide : PackElem) (s : State) (hwf : Memory.wf s.mem = true) : Keeps (packForm i ov a b n e wide s) := by
  unfold packForm
  exact laneForm_keeps hwf

theorem moveForm_keeps (i : Instr) (n : Bool) (d : Sel) (srcs : List Sel) (f : Thread → Nat → Word) (s : State) (hwf : Memory.wf s.mem = true) : Keeps (moveForm i n d srcs f s) := by
  unfold moveForm
  exact laneForm_keeps hwf

theorem shflForm_keeps (i : Instr) (n : Bool) (d a b : Sel) (from_ : Nat → Nat → Nat) (s : State) (hwf : Memory.wf s.mem = true) : Keeps (shflForm i n d a b from_ s) := by
  unfold shflForm
  exact regForm_keeps hwf

theorem unpackForm_keeps (i : Instr) (a b : Sel) (n : Nat) (e wide : PackElem) (s : State) (hwf : Memory.wf s.mem = true) : Keeps (unpackForm i a b n e wide s) := by
  unfold unpackForm
  exact regForm_keeps hwf

theorem transForm_keeps (op : Nat) (i : Instr) (n : Bool) (d a : Sel) (f : Fmt → FVal → TransRes) (s : State) (hwf : Memory.wf s.mem = true) : Keeps (transForm op i n d a f s) := by
  unfold transForm
  exact floatForm_keeps _ _ _ _ _ _ hwf

theorem execIadd_keeps (n : Bool) (d a b : Sel) (s : State) (hwf : Memory.wf s.mem = true) : Keeps (execIadd n d a b s) := by
  unfold execIadd
  exact intForm_keeps _ _ _ _ _ _ hwf

theorem execIsub_keeps (n : Bool) (d a b : Sel) (s : State) (hwf : Memory.wf s.mem = true) : Keeps (execIsub n d a b s) := by
  unfold execIsub
  exact intForm_keeps _ _ _ _ _ _ hwf

theorem execImul_keeps (n : Bool) (d a b : Sel) (s : State) (hwf : Memory.wf s.mem = true) : Keeps (execImul n d a b s) := by
  unfold execImul
  exact intForm_keeps _ _ _ _ _ _ hwf

theorem execImulh_keeps (n : Bool) (d a b : Sel) (s : State) (hwf : Memory.wf s.mem = true) : Keeps (execImulh n d a b s) := by
  unfold execImulh
  exact intForm_keeps _ _ _ _ _ _ hwf

theorem execImad_keeps (n : Bool) (d a b : Sel) (s : State) (hwf : Memory.wf s.mem = true) : Keeps (execImad n d a b s) := by
  unfold execImad
  exact intForm_keeps _ _ _ _ _ _ hwf

theorem execImin_keeps (n : Bool) (d a b : Sel) (s : State) (hwf : Memory.wf s.mem = true) : Keeps (execImin n d a b s) := by
  unfold execImin
  exact intForm_keeps _ _ _ _ _ _ hwf

theorem execImax_keeps (n : Bool) (d a b : Sel) (s : State) (hwf : Memory.wf s.mem = true) : Keeps (execImax n d a b s) := by
  unfold execImax
  exact intForm_keeps _ _ _ _ _ _ hwf

theorem execIabs_keeps (n : Bool) (d a : Sel) (s : State) (hwf : Memory.wf s.mem = true) : Keeps (execIabs n d a s) := by
  unfold execIabs
  exact intForm_keeps _ _ _ _ _ _ hwf

theorem execIcmp_keeps (c p : BitVec 3) (a b : Sel) (s : State) (hwf : Memory.wf s.mem = true) : Keeps (execIcmp c p a b s) := by
  unfold execIcmp
  exact predForm_keeps hwf

theorem execLea_keeps (n : Bool) (d a b : Sel) (s : State) (hwf : Memory.wf s.mem = true) : Keeps (execLea n d a b s) := by
  unfold execLea
  exact laneForm_keeps hwf

theorem execAddi_keeps (n : Bool) (d : Sel) (imm : BitVec 16) (s : State) (hwf : Memory.wf s.mem = true) : Keeps (execAddi n d imm s) := by
  unfold execAddi
  exact intForm_keeps _ _ _ _ _ _ hwf

theorem execMovi_keeps (n : Bool) (d : Sel) (imm : BitVec 16) (s : State) (hwf : Memory.wf s.mem = true) : Keeps (execMovi n d imm s) := by
  unfold execMovi
  exact moveForm_keeps _ _ _ _ _ _ hwf

theorem execMovhi_keeps (n : Bool) (d : Sel) (imm : BitVec 16) (s : State) (hwf : Memory.wf s.mem = true) : Keeps (execMovhi n d imm s) := by
  unfold execMovhi
  exact moveForm_keeps _ _ _ _ _ _ hwf

theorem execAnd_keeps (n : Bool) (d a b : Sel) (s : State) (hwf : Memory.wf s.mem = true) : Keeps (execAnd n d a b s) := by
  unfold execAnd
  exact moveForm_keeps _ _ _ _ _ _ hwf

theorem execOr_keeps (n : Bool) (d a b : Sel) (s : State) (hwf : Memory.wf s.mem = true) : Keeps (execOr n d a b s) := by
  unfold execOr
  exact moveForm_keeps _ _ _ _ _ _ hwf

theorem execXor_keeps (n : Bool) (d a b : Sel) (s : State) (hwf : Memory.wf s.mem = true) : Keeps (execXor n d a b s) := by
  unfold execXor
  exact moveForm_keeps _ _ _ _ _ _ hwf

theorem execNot_keeps (n : Bool) (d a : Sel) (s : State) (hwf : Memory.wf s.mem = true) : Keeps (execNot n d a s) := by
  unfold execNot
  exact moveForm_keeps _ _ _ _ _ _ hwf

theorem execShl_keeps (n : Bool) (d a b : Sel) (s : State) (hwf : Memory.wf s.mem = true) : Keeps (execShl n d a b s) := by
  unfold execShl
  exact shiftForm_keeps _ _ _ _ _ _ _ hwf

theorem execShr_keeps (n : Bool) (d a b : Sel) (s : State) (hwf : Memory.wf s.mem = true) : Keeps (execShr n d a b s) := by
  unfold execShr
  exact shiftForm_keeps _ _ _ _ _ _ _ hwf

theorem execPopc_keeps (n : Bool) (d a : Sel) (s : State) (hwf : Memory.wf s.mem = true) : Keeps (execPopc n d a s) := by
  unfold execPopc
  exact countForm_keeps _ _ _ _ _ _ hwf

theorem execClz_keeps (n : Bool) (d a : Sel) (s : State) (hwf : Memory.wf s.mem = true) : Keeps (execClz n d a s) := by
  unfold execClz
  exact countForm_keeps _ _ _ _ _ _ hwf

theorem execMov_keeps (n : Bool) (d a : Sel) (s : State) (hwf : Memory.wf s.mem = true) : Keeps (execMov n d a s) := by
  unfold execMov
  exact moveForm_keeps _ _ _ _ _ _ hwf

theorem execRdlane_keeps (n : Bool) (d a b : Sel) (s : State) (hwf : Memory.wf s.mem = true) : Keeps (execRdlane n d a b s) := by
  unfold execRdlane
  with_reducible refine guardedForm_keeps hwf (fun k => ?_); (repeat' split) <;> simp [hwf]

theorem execShfl_keeps (n : Bool) (d a b : Sel) (s : State) (hwf : Memory.wf s.mem = true) : Keeps (execShfl n d a b s) := by
  unfold execShfl
  exact shflForm_keeps _ _ _ _ _ _ _ hwf

theorem execShflx_keeps (n : Bool) (d a b : Sel) (s : State) (hwf : Memory.wf s.mem = true) : Keeps (execShflx n d a b s) := by
  unfold execShflx
  exact shflForm_keeps _ _ _ _ _ _ _ hwf

theorem execBallot_keeps (n : Bool) (d a : Sel) (s : State) (hwf : Memory.wf s.mem = true) : Keeps (execBallot n d a s) := by
  unfold execBallot
  exact regForm_keeps hwf

theorem execVote_keeps (o : BitVec 2) (p : BitVec 3) (a : Sel) (s : State) (hwf : Memory.wf s.mem = true) : Keeps (execVote o p a s) := by
  unfold execVote
  exact regForm_keeps hwf

theorem execPlop_keeps (o : BitVec 2) (p : BitVec 3) (a b : Sel) (s : State) (hwf : Memory.wf s.mem = true) : Keeps (execPlop o p a b s) := by
  unfold execPlop
  exact predForm_keeps hwf

theorem execMovp_keeps (n : Bool) (d : Sel) (s : State) (hwf : Memory.wf s.mem = true) : Keeps (execMovp n d s) := by
  unfold execMovp
  exact moveForm_keeps _ _ _ _ _ _ hwf

theorem execFadd_keeps (n : Bool) (d a b : Sel) (s : State) (hwf : Memory.wf s.mem = true) : Keeps (execFadd n d a b s) := by
  unfold execFadd
  exact floatForm_keeps _ _ _ _ _ _ hwf

theorem execFsub_keeps (n : Bool) (d a b : Sel) (s : State) (hwf : Memory.wf s.mem = true) : Keeps (execFsub n d a b s) := by
  unfold execFsub
  exact floatForm_keeps _ _ _ _ _ _ hwf

theorem execFmul_keeps (n : Bool) (d a b : Sel) (s : State) (hwf : Memory.wf s.mem = true) : Keeps (execFmul n d a b s) := by
  unfold execFmul
  exact floatForm_keeps _ _ _ _ _ _ hwf

theorem execFfma_keeps (n : Bool) (d a b : Sel) (s : State) (hwf : Memory.wf s.mem = true) : Keeps (execFfma n d a b s) := by
  unfold execFfma
  exact floatForm_keeps _ _ _ _ _ _ hwf

theorem execFdiv_keeps (n : Bool) (d a b : Sel) (s : State) (hwf : Memory.wf s.mem = true) : Keeps (execFdiv n d a b s) := by
  unfold execFdiv
  exact floatForm_keeps _ _ _ _ _ _ hwf

theorem execFsqrt_keeps (n : Bool) (d a : Sel) (s : State) (hwf : Memory.wf s.mem = true) : Keeps (execFsqrt n d a s) := by
  unfold execFsqrt
  exact floatForm_keeps _ _ _ _ _ _ hwf

theorem execFmin_keeps (n : Bool) (d a b : Sel) (s : State) (hwf : Memory.wf s.mem = true) : Keeps (execFmin n d a b s) := by
  unfold execFmin
  exact floatForm_keeps _ _ _ _ _ _ hwf

theorem execFmax_keeps (n : Bool) (d a b : Sel) (s : State) (hwf : Memory.wf s.mem = true) : Keeps (execFmax n d a b s) := by
  unfold execFmax
  exact floatForm_keeps _ _ _ _ _ _ hwf

theorem execFabs_keeps (n : Bool) (d a : Sel) (s : State) (hwf : Memory.wf s.mem = true) : Keeps (execFabs n d a s) := by
  unfold execFabs
  exact floatForm_keeps _ _ _ _ _ _ hwf

theorem execFneg_keeps (n : Bool) (d a : Sel) (s : State) (hwf : Memory.wf s.mem = true) : Keeps (execFneg n d a s) := by
  unfold execFneg
  exact floatForm_keeps _ _ _ _ _ _ hwf

theorem execFcmp_keeps (c p : BitVec 3) (a b : Sel) (s : State) (hwf : Memory.wf s.mem = true) : Keeps (execFcmp c p a b s) := by
  unfold execFcmp
  exact predForm_keeps hwf

theorem execFclass_keeps (n : Bool) (d a : Sel) (s : State) (hwf : Memory.wf s.mem = true) : Keeps (execFclass n d a s) := by
  unfold execFclass
  exact laneForm_keeps hwf

theorem execFrcp_keeps (n : Bool) (d a : Sel) (s : State) (hwf : Memory.wf s.mem = true) : Keeps (execFrcp n d a s) := by
  unfold execFrcp
  exact transForm_keeps _ _ _ _ _ _ _ hwf

theorem execFrsq_keeps (n : Bool) (d a : Sel) (s : State) (hwf : Memory.wf s.mem = true) : Keeps (execFrsq n d a s) := by
  unfold execFrsq
  exact transForm_keeps _ _ _ _ _ _ _ hwf

theorem execFexp2_keeps (n : Bool) (d a : Sel) (s : State) (hwf : Memory.wf s.mem = true) : Keeps (execFexp2 n d a s) := by
  unfold execFexp2
  exact transForm_keeps _ _ _ _ _ _ _ hwf

theorem execFlog2_keeps (n : Bool) (d a : Sel) (s : State) (hwf : Memory.wf s.mem = true) : Keeps (execFlog2 n d a s) := by
  unfold execFlog2
  exact transForm_keeps _ _ _ _ _ _ _ hwf

theorem execFsin_keeps (n : Bool) (d a : Sel) (s : State) (hwf : Memory.wf s.mem = true) : Keeps (execFsin n d a s) := by
  unfold execFsin
  exact transForm_keeps _ _ _ _ _ _ _ hwf

theorem execFcos_keeps (n : Bool) (d a : Sel) (s : State) (hwf : Memory.wf s.mem = true) : Keeps (execFcos n d a s) := by
  unfold execFcos
  exact transForm_keeps _ _ _ _ _ _ _ hwf

theorem execDot2_keeps (n : Bool) (d a b : Sel) (s : State) (hwf : Memory.wf s.mem = true) : Keeps (execDot2 n d a b s) := by
  unfold execDot2
  exact dotForm_keeps _ _ _ _ _ _ _ _ hwf

theorem execDot4_keeps (n : Bool) (d a b : Sel) (s : State) (hwf : Memory.wf s.mem = true) : Keeps (execDot4 n d a b s) := by
  unfold execDot4
  exact dotForm_keeps _ _ _ _ _ _ _ _ hwf

theorem execDot8_keeps (n : Bool) (d a b : Sel) (s : State) (hwf : Memory.wf s.mem = true) : Keeps (execDot8 n d a b s) := by
  unfold execDot8
  exact dotForm_keeps _ _ _ _ _ _ _ _ hwf

theorem execSetmode_keeps (e : BitVec 4) (g : BitVec 16) (s : State) (hwf : Memory.wf s.mem = true) : Keeps (execSetmode e g s) := by
  unfold execSetmode
  with_reducible refine sectionForm_keeps hwf (fun k => ?_); simp [hwf]

theorem execGetmode_keeps (n : Bool) (d : Sel) (s : State) (hwf : Memory.wf s.mem = true) : Keeps (execGetmode n d s) := by
  unfold execGetmode
  exact moveForm_keeps _ _ _ _ _ _ hwf

theorem execMfs_keeps (n : Bool) (d r : BitVec 8) (s : State) (hwf : Memory.wf s.mem = true) : Keeps (execMfs n d r s) := by
  unfold execMfs
  with_reducible refine guardedForm_keeps hwf (fun k => ?_); (repeat' split) <;> simp [hwf]

theorem execMts_keeps (x : Sel) (r : BitVec 16) (s : State) (hwf : Memory.wf s.mem = true) : Keeps (execMts x imm s) := by
  unfold execMts
  with_reducible refine guardedForm_keeps hwf (fun k => ?_); (repeat' split) <;> simp [hwf]

theorem execBra_keeps (o : BitVec 14) (j : BitVec 11) (s : State) (hwf : Memory.wf s.mem = true) : Keeps (execBra o j s) := by
  unfold execBra
  with_reducible refine guardedForm_keeps hwf (fun k => ?_); (repeat' split) <;> simp [hwf]

theorem execCall_keeps (o : BitVec 25) (s : State) (hwf : Memory.wf s.mem = true) : Keeps (execCall o s) := by
  unfold execCall
  with_reducible refine guardedForm_keeps hwf (fun k => ?_); (repeat' split) <;> simp [hwf]

theorem execJoin_keeps (s : State) (hwf : Memory.wf s.mem = true) : Keeps (execJoin  s) := by
  unfold execJoin
  refine issued_keeps (fun k => ?_)
  split
  · exact ite_wf _ _ _ (lanternDone_wf _ _ _ hwf) (by rw [pass_mem]; exact hwf)
  · split
    · exact ite_wf _ _ _ (spilled_wf _ _ _ _ _ _ (endPathOf_wf _ _ _ (by rw [retire_mem]; exact hwf)) hwf) (by rw [pass_mem]; exact hwf)
    · rw [pass_mem]; exact hwf

theorem execBrx_keeps (x : Sel) (j : BitVec 16) (s : State) (hwf : Memory.wf s.mem = true) : Keeps (execBrx x j s) := by
  unfold execBrx
  with_reducible refine guardedForm_keeps hwf (fun k => ?_); dsimp only; (repeat' split) <;> simp [hwf]

theorem execCalli_keeps (a : Sel) (s : State) (hwf : Memory.wf s.mem = true) : Keeps (execCalli a s) := by
  unfold execCalli
  refine guardedForm_keeps hwf (fun k => ?_)
  dsimp only
  split
  · next h => rw [waitOn_mem]; exact budgetWord_error h hwf
  · next h =>
    have h1 := budgetWord_error h hwf
    split
    · exact raiseSet_wf _ _ _ _ h1
    · exact ite_wf _ _ _ (raiseSet_wf _ _ _ _ (by rw [setAside_mem]; exact h1)) (spilled_wf _ _ _ _ _ _ (raiseSet_wf _ _ _ _ (by rw [setAside_mem]; exact h1)) h1)
  · next h =>
    have h1 := budgetWord_ok h hwf
    split
    · rw [jump_mem, modRec_mem]; exact h1
    · exact ite_wf _ _ _ (by rw [retireWith_mem, setAside_mem]; exact h1) (spilled_wf _ _ _ _ _ _ (by rw [retireWith_mem, setAside_mem]; exact h1) h1)

theorem execRet_keeps (s : State) (hwf : Memory.wf s.mem = true) : Keeps (execRet  s) := by
  unfold execRet
  with_reducible refine guardedForm_keeps hwf (fun k => ?_); dsimp only; (repeat' split) <;> simp [hwf]

theorem execExit_keeps (s : State) (hwf : Memory.wf s.mem = true) : Keeps (execExit  s) := by
  unfold execExit
  with_reducible refine guardedForm_keeps hwf (fun k => ?_); dsimp only; (repeat' split) <;> simp [hwf]

theorem execLd_keeps (n : Bool) (d : Sel) (k : BitVec 5) (o : Sel) (i : BitVec 3) (s : State) (hwf : Memory.wf s.mem = true) : Keeps (execLd n d k o imm s) := by
  unfold execLd
  exact loadM_keeps hwf

theorem execSt_keeps (d : Sel) (k : BitVec 5) (o : Sel) (i : BitVec 3) (s : State) (hwf : Memory.wf s.mem = true) : Keeps (execSt x k o imm s) := by
  unfold execSt
  exact storeM_keeps hwf

theorem execLds_keeps (n : Bool) (d : Sel) (k : BitVec 5) (o : Sel) (i : BitVec 3) (s : State) (hwf : Memory.wf s.mem = true) : Keeps (execLds n d k o imm s) := by
  unfold execLds
  exact loadM_keeps hwf

theorem execSts_keeps (d : Sel) (k : BitVec 5) (o : Sel) (i : BitVec 3) (s : State) (hwf : Memory.wf s.mem = true) : Keeps (execSts x k o imm s) := by
  unfold execSts
  exact storeM_keeps hwf

theorem execLdp_keeps (n : Bool) (d : Sel) (k : BitVec 5) (o : Sel) (i : BitVec 3) (s : State) (hwf : Memory.wf s.mem = true) : Keeps (execLdp n d k o imm s) := by
  unfold execLdp
  exact loadM_keeps hwf

theorem execStp_keeps (d : Sel) (k : BitVec 5) (o : Sel) (i : BitVec 3) (s : State) (hwf : Memory.wf s.mem = true) : Keeps (execStp x k o imm s) := by
  unfold execStp
  exact storeM_keeps hwf

theorem execLdt_keeps (n : Bool) (d : Sel) (m : BitVec 5) (v : Sel) (h : BitVec 3) (s : State) (hwf : Memory.wf s.mem = true) : Keeps (execLdt n d k v h s) := by
  unfold execLdt
  exact shaped_keeps hwf (fun k s r a h => loadForm_wf _ _ _ _ _ _ _ _ _ _ _ h)

theorem execStt_keeps (d : Sel) (m : BitVec 5) (v : Sel) (h : BitVec 3) (s : State) (hwf : Memory.wf s.mem = true) : Keeps (execStt x k v h s) := by
  unfold execStt
  exact shaped_keeps hwf (fun k s r a h => storeForm_wf _ _ _ _ _ h)

theorem execAtomAdd_keeps (n : Bool) (d : Sel) (k : BitVec 5) (o : Sel) (c : BitVec 3) (s : State) (hwf : Memory.wf s.mem = true) : Keeps (execAtomAdd n d k o c s) := by
  unfold execAtomAdd
  exact atomM_keeps hwf

theorem execAtomMin_keeps (n : Bool) (d : Sel) (k : BitVec 5) (o : Sel) (c : BitVec 3) (s : State) (hwf : Memory.wf s.mem = true) : Keeps (execAtomMin n d k o c s) := by
  unfold execAtomMin
  exact atomM_keeps hwf

theorem execAtomMax_keeps (n : Bool) (d : Sel) (k : BitVec 5) (o : Sel) (c : BitVec 3) (s : State) (hwf : Memory.wf s.mem = true) : Keeps (execAtomMax n d k o c s) := by
  unfold execAtomMax
  exact atomM_keeps hwf

theorem execAtomAnd_keeps (n : Bool) (d : Sel) (k : BitVec 5) (o : Sel) (c : BitVec 3) (s : State) (hwf : Memory.wf s.mem = true) : Keeps (execAtomAnd n d k o c s) := by
  unfold execAtomAnd
  exact atomM_keeps hwf

theorem execAtomOr_keeps (n : Bool) (d : Sel) (k : BitVec 5) (o : Sel) (c : BitVec 3) (s : State) (hwf : Memory.wf s.mem = true) : Keeps (execAtomOr n d k o c s) := by
  unfold execAtomOr
  exact atomM_keeps hwf

theorem execAtomXor_keeps (n : Bool) (d : Sel) (k : BitVec 5) (o : Sel) (c : BitVec 3) (s : State) (hwf : Memory.wf s.mem = true) : Keeps (execAtomXor n d k o c s) := by
  unfold execAtomXor
  exact atomM_keeps hwf

theorem execAtomXchg_keeps (n : Bool) (d : Sel) (k : BitVec 5) (o : Sel) (c : BitVec 3) (s : State) (hwf : Memory.wf s.mem = true) : Keeps (execAtomXchg n d k o c s) := by
  unfold execAtomXchg
  exact atomM_keeps hwf

theorem execAtomCas_keeps (n : Bool) (d : Sel) (k : BitVec 5) (o : Sel) (c : BitVec 3) (s : State) (hwf : Memory.wf s.mem = true) : Keeps (execAtomCas n d k o c s) := by
  unfold execAtomCas
  exact atomM_keeps hwf

theorem execRedAdd_keeps (d : Sel) (k : BitVec 5) (o : Sel) (c : BitVec 3) (s : State) (hwf : Memory.wf s.mem = true) : Keeps (execRedAdd x k o c s) := by
  unfold execRedAdd
  exact redM_keeps hwf

theorem execRedMin_keeps (d : Sel) (k : BitVec 5) (o : Sel) (c : BitVec 3) (s : State) (hwf : Memory.wf s.mem = true) : Keeps (execRedMin x k o c s) := by
  unfold execRedMin
  exact redM_keeps hwf

theorem execRedMax_keeps (d : Sel) (k : BitVec 5) (o : Sel) (c : BitVec 3) (s : State) (hwf : Memory.wf s.mem = true) : Keeps (execRedMax x k o c s) := by
  unfold execRedMax
  exact redM_keeps hwf

theorem execRedAnd_keeps (d : Sel) (k : BitVec 5) (o : Sel) (c : BitVec 3) (s : State) (hwf : Memory.wf s.mem = true) : Keeps (execRedAnd x k o c s) := by
  unfold execRedAnd
  exact redM_keeps hwf

theorem execRedOr_keeps (d : Sel) (k : BitVec 5) (o : Sel) (c : BitVec 3) (s : State) (hwf : Memory.wf s.mem = true) : Keeps (execRedOr x k o c s) := by
  unfold execRedOr
  exact redM_keeps hwf

theorem execRedXor_keeps (d : Sel) (k : BitVec 5) (o : Sel) (c : BitVec 3) (s : State) (hwf : Memory.wf s.mem = true) : Keeps (execRedXor x k o c s) := by
  unfold execRedXor
  exact redM_keeps hwf

theorem execMma_keeps (n : Bool) (d a b : Sel) (s : State) (hwf : Memory.wf s.mem = true) : Keeps (execMma n d a b s) := by
  unfold execMma
  exact matForm_keeps hwf

theorem execMmad_keeps (n : Bool) (d a b : Sel) (s : State) (hwf : Memory.wf s.mem = true) : Keeps (execMmad n d a b s) := by
  unfold execMmad
  exact matForm_keeps hwf

theorem execMmadg_keeps (n : Bool) (d a b : Sel) (s : State) (hwf : Memory.wf s.mem = true) : Keeps (execMmadg n d a b s) := by
  unfold execMmadg
  exact matForm_keeps hwf

theorem execMmadw_keeps (n : Bool) (d a b : Sel) (s : State) (hwf : Memory.wf s.mem = true) : Keeps (execMmadw n d a b s) := by
  unfold execMmadw
  exact matForm_keeps hwf

theorem execRast_keeps (n : Bool) (d a b : Sel) (s : State) (hwf : Memory.wf s.mem = true) : Keeps (execRast n d a b s) := by
  unfold execRast
  with_reducible refine guardedForm_keeps hwf (fun k => ?_); (repeat' split) <;> simp [hwf]

theorem execTex_keeps (n : Bool) (d a b : Sel) (s : State) (hwf : Memory.wf s.mem = true) : Keeps (execTex n d a b s) := by
  unfold execTex
  refine texForm_keeps hwf (fun k t l s h => ?_)
  split
  · next u v ux vx uy vy _ =>
    have h1 := readEls_sound k l t.bytes none ((t.taps u v ux vx uy vy).map (fun p => t.addr p.m p.i p.j)) s h
    dsimp only
    split
    · next hx => exact sound_error h1 hx
    · next hx => exact sound_ok (h1.1 _ _ hx)
  · exact sound_ok h

theorem execTexg_keeps (n : Bool) (d a b : Sel) (s : State) (hwf : Memory.wf s.mem = true) : Keeps (execTexg n d a b s) := by
  unfold execTexg
  refine texForm_keeps hwf (fun k t l s h => ?_)
  dsimp only
  split
  · next u v _ _ =>
    split
    · next hx => exact sound_error (readEls_sound k l t.bytes none _ s h) hx
    · next hx => exact sound_ok ((readEls_sound k l t.bytes none _ s h).1 _ _ hx)
  · exact sound_ok h

theorem execRayq_keeps (n : Bool) (d a b : Sel) (s : State) (hwf : Memory.wf s.mem = true) : Keeps (execRayq n d a b s) := by
  unfold execRayq
  exact guardedForm_keeps hwf (fun k => walk_wf (fun l s h => rayLane_sound _ _ _ _ _ l s h) (fun s l b h => runEnd_wf _ _ _ _ _ _ _ h) hwf)

theorem execTrace_keeps (n : Bool) (d a b : Sel) (s : State) (hwf : Memory.wf s.mem = true) : Keeps (execTrace n d a b s) := by
  unfold execTrace
  refine issued_keeps (fun k => ?_)
  dsimp only
  refine ite_wf _ _ _ (raise_wf _ _ _ hwf) (ite_wf _ _ _ (by rw [retireWith_mem]; exact hwf) (ite_wf _ _ _ (raise_wf _ _ _ hwf) (ite_wf _ _ _ (raise_wf _ _ _ hwf) ?_)))
  split
  · exact raise_wf _ _ _ hwf
  refine walk_wf (fun l s h => readEl_sound _ _ _ _ _ s h) (fun s heads bad h => ?_) hwf
  have ho : Memory.wf (memOver k s).mem = true := by rw [memOver_mem]; exact h
  split
  · exact raiseAccess_wf _ _ _ ho
  · split
    · exact raise_wf _ _ _ ho
    · refine ite_wf _ _ _ (raise_wf _ _ _ ho) ?_
      split
      · exact raise_wf _ _ _ ho
      · refine ite_wf _ _ _ (traceFault_wf _ _ _ ho) (ite_wf _ _ _ (traceFault_wf _ _ _ ho) ?_)
        refine walk_wf (fun l s h => rayLane_sound _ _ _ _ _ l s h) (fun s wins bad h => ?_) h
        have ho : Memory.wf (memOver k s).mem = true := by rw [memOver_mem]; exact h
        split
        · exact traceFault_wf _ _ _ ho
        · refine ite_wf _ _ _ (traceFault_wf _ _ _ ho) ?_
          refine walk_wf (fun l s h => ?_) (fun s ts bad h => ?_) h
          · split
            · exact readEl_sound _ _ _ _ _ s h
            · exact sound_ok h
          · split
            · exact traceFault_wf _ _ _ (by rw [memOver_mem]; exact h)
            · exact traceCall_wf _ _ _ _ _ _ h

theorem execLupd_keeps (d a b : Sel) (s : State) (hwf : Memory.wf s.mem = true) : Keeps (execLupd d a b s) := by
  unfold execLupd
  with_reducible refine guardedForm_keeps hwf (fun k => ?_); simp [hwf]

@[simp] theorem doRelease_wf (s : State) (tid role : Nat) (r : Release) (hwf : Memory.wf s.mem = true) : Memory.wf (s.doRelease tid role r).mem = true := by
  unfold State.doRelease
  dsimp only
  (repeat' split) <;> first | exact hwf | (simp [hwf]; done)

@[simp] theorem tryRelease_wf (s : State) (tid role : Nat) (hwf : Memory.wf s.mem = true) : Memory.wf (s.tryRelease tid role).mem = true := by
  unfold State.tryRelease
  (repeat' split) <;> first | exact hwf | (simp [hwf]; done)

@[simp] theorem release_wf (k : Iss) (s : State) (scope : Nat) (step : RelStep) (hwf : Memory.wf s.mem = true) : Memory.wf (release k s scope step).mem = true := by
  have made : Memory.wf (modOwn k { s with nextOp := s.nextOp + 1 } (fun c => { c with
      lastRel := s.nextOp, releases := c.releases ++ [{ before := s.nextOp, scope := scope, step := step, pc := k.th.pc }] })).mem = true := by
    rw [modOwn_mem]; exact hwf
  unfold release
  exact ite_wf _ _ _ (tryRelease_wf _ _ _ made) made

@[simp] theorem noteRelease_mem (k : Iss) (s : State) : (noteRelease k s).mem = s.mem := modOwn_mem _ _ _

@[simp] theorem endWait_mem (s : State) (tid role : Nat) : (s.endWait tid role).mem = s.mem := by
  unfold State.endWait
  (repeat' split) <;> simp

@[simp] theorem hostBytes_wf (s : State) (pa : Nat) (bs : List Byte) (hwf : Memory.wf s.mem = true) : Memory.wf (s.hostBytes pa bs).mem = true :=
  ite_wf _ _ _ hwf (physWrite_wf _ _ _ hwf)

@[simp] theorem hostData_wf (s : State) (pa size : Nat) (data : List Host.Cell) (hwf : Memory.wf s.mem = true) : Memory.wf (s.hostData pa size data).mem = true :=
  foldl_wf _ _ _ (fun s x h => ite_wf _ _ _ (physWrite_wf _ _ _ h) h) hwf

theorem hostTurn_wf {s s' : State} {t : Team} {c : Section} {h : HostReq} {x : LaneOp} (e : hostTurn s t c h x = .go s') (hwf : Memory.wf s.mem = true) :
    Memory.wf s'.mem = true := by
  revert e
  unfold hostTurn
  split
  · exact fun e => choose_wf e hwf
  · exact fun e => Turn.go.inj e ▸ hwf

theorem execTbinit_keeps (d a b : Sel) (s : State) (hwf : Memory.wf s.mem = true) : Keeps (execTbinit d a b s) := by
  unfold execTbinit
  refine sectionForm_keeps hwf (fun k => ite_wf _ _ _ hwf (whenPresent_wf _ _ _ _ _ ?_ hwf))
  dsimp only; rw [modTeam_mem, pass_mem]; exact hwf

theorem execTbtest_keeps (n : Bool) (d a b : Sel) (s : State) (hwf : Memory.wf s.mem = true) : Keeps (execTbtest n d a b s) := by
  unfold execTbtest
  with_reducible refine tbForm_keeps hwf (fun k off b => ?_); simp [hwf]

theorem execCvtF32F64_keeps (r : BitVec 2) (a b : Sel) (s : State) (hwf : Memory.wf s.mem = true) : Keeps (execCvtF32F64 r a b s) := by
  unfold execCvtF32F64
  exact cvtForm_keeps _ _ _ _ _ _ _ hwf

theorem execCvtF64F32_keeps (r : BitVec 2) (a b : Sel) (s : State) (hwf : Memory.wf s.mem = true) : Keeps (execCvtF64F32 r a b s) := by
  unfold execCvtF64F32
  exact cvtForm_keeps _ _ _ _ _ _ _ hwf

theorem execCvtF32H16_keeps (r : BitVec 2) (a b : Sel) (s : State) (hwf : Memory.wf s.mem = true) : Keeps (execCvtF32H16 r a b s) := by
  unfold execCvtF32H16
  exact cvtForm_keeps _ _ _ _ _ _ _ hwf

theorem execCvtH16F32_keeps (r : BitVec 2) (a b : Sel) (s : State) (hwf : Memory.wf s.mem = true) : Keeps (execCvtH16F32 r a b s) := by
  unfold execCvtH16F32
  exact cvtForm_keeps _ _ _ _ _ _ _ hwf

theorem execCvtF32W16_keeps (r : BitVec 2) (a b : Sel) (s : State) (hwf : Memory.wf s.mem = true) : Keeps (execCvtF32W16 r a b s) := by
  unfold execCvtF32W16
  exact cvtForm_keeps _ _ _ _ _ _ _ hwf

theorem execCvtW16F32_keeps (r : BitVec 2) (a b : Sel) (s : State) (hwf : Memory.wf s.mem = true) : Keeps (execCvtW16F32 r a b s) := by
  unfold execCvtW16F32
  exact cvtForm_keeps _ _ _ _ _ _ _ hwf

theorem execCvtF32S32_keeps (r : BitVec 2) (a b : Sel) (s : State) (hwf : Memory.wf s.mem = true) : Keeps (execCvtF32S32 r a b s) := by
  unfold execCvtF32S32
  exact cvtForm_keeps _ _ _ _ _ _ _ hwf

theorem execCvtF32Z32_keeps (r : BitVec 2) (a b : Sel) (s : State) (hwf : Memory.wf s.mem = true) : Keeps (execCvtF32Z32 r a b s) := by
  unfold execCvtF32Z32
  exact cvtForm_keeps _ _ _ _ _ _ _ hwf

theorem execCvtS32F32_keeps (r : BitVec 2) (a b : Sel) (s : State) (hwf : Memory.wf s.mem = true) : Keeps (execCvtS32F32 r a b s) := by
  unfold execCvtS32F32
  exact cvtForm_keeps _ _ _ _ _ _ _ hwf

theorem execCvtZ32F32_keeps (r : BitVec 2) (a b : Sel) (s : State) (hwf : Memory.wf s.mem = true) : Keeps (execCvtZ32F32 r a b s) := by
  unfold execCvtZ32F32
  exact cvtForm_keeps _ _ _ _ _ _ _ hwf

theorem execCvtF64S64_keeps (r : BitVec 2) (a b : Sel) (s : State) (hwf : Memory.wf s.mem = true) : Keeps (execCvtF64S64 r a b s) := by
  unfold execCvtF64S64
  exact cvtForm_keeps _ _ _ _ _ _ _ hwf

theorem execCvtF64Z64_keeps (r : BitVec 2) (a b : Sel) (s : State) (hwf : Memory.wf s.mem = true) : Keeps (execCvtF64Z64 r a b s) := by
  unfold execCvtF64Z64
  exact cvtForm_keeps _ _ _ _ _ _ _ hwf

theorem execCvtS64F64_keeps (r : BitVec 2) (a b : Sel) (s : State) (hwf : Memory.wf s.mem = true) : Keeps (execCvtS64F64 r a b s) := by
  unfold execCvtS64F64
  exact cvtForm_keeps _ _ _ _ _ _ _ hwf

theorem execCvtZ64F64_keeps (r : BitVec 2) (a b : Sel) (s : State) (hwf : Memory.wf s.mem = true) : Keeps (execCvtZ64F64 r a b s) := by
  unfold execCvtZ64F64
  exact cvtForm_keeps _ _ _ _ _ _ _ hwf

theorem execCvtF64S32_keeps (r : BitVec 2) (a b : Sel) (s : State) (hwf : Memory.wf s.mem = true) : Keeps (execCvtF64S32 r a b s) := by
  unfold execCvtF64S32
  exact cvtForm_keeps _ _ _ _ _ _ _ hwf

theorem execCvtS32F64_keeps (r : BitVec 2) (a b : Sel) (s : State) (hwf : Memory.wf s.mem = true) : Keeps (execCvtS32F64 r a b s) := by
  unfold execCvtS32F64
  exact cvtForm_keeps _ _ _ _ _ _ _ hwf

theorem execCvtF32S64_keeps (r : BitVec 2) (a b : Sel) (s : State) (hwf : Memory.wf s.mem = true) : Keeps (execCvtF32S64 r a b s) := by
  unfold execCvtF32S64
  exact cvtForm_keeps _ _ _ _ _ _ _ hwf

theorem execCvtS64F32_keeps (r : BitVec 2) (a b : Sel) (s : State) (hwf : Memory.wf s.mem = true) : Keeps (execCvtS64F32 r a b s) := by
  unfold execCvtS64F32
  exact cvtForm_keeps _ _ _ _ _ _ _ hwf

theorem execCvtQ8F32_keeps (r : BitVec 2) (a b : Sel) (s : State) (hwf : Memory.wf s.mem = true) : Keeps (execCvtQ8F32 r a b s) := by
  unfold execCvtQ8F32
  exact cvtForm_keeps _ _ _ _ _ _ _ hwf

theorem execCvtF32Q8_keeps (r : BitVec 2) (a b : Sel) (s : State) (hwf : Memory.wf s.mem = true) : Keeps (execCvtF32Q8 r a b s) := by
  unfold execCvtF32Q8
  exact cvtForm_keeps _ _ _ _ _ _ _ hwf

theorem execCvtQ6F32_keeps (r : BitVec 2) (a b : Sel) (s : State) (hwf : Memory.wf s.mem = true) : Keeps (execCvtQ6F32 r a b s) := by
  unfold execCvtQ6F32
  exact cvtForm_keeps _ _ _ _ _ _ _ hwf

theorem execCvtF32Q6_keeps (r : BitVec 2) (a b : Sel) (s : State) (hwf : Memory.wf s.mem = true) : Keeps (execCvtF32Q6 r a b s) := by
  unfold execCvtF32Q6
  exact cvtForm_keeps _ _ _ _ _ _ _ hwf

theorem execCvtQ4F32_keeps (r : BitVec 2) (a b : Sel) (s : State) (hwf : Memory.wf s.mem = true) : Keeps (execCvtQ4F32 r a b s) := by
  unfold execCvtQ4F32
  exact cvtForm_keeps _ _ _ _ _ _ _ hwf

theorem execCvtF32Q4_keeps (r : BitVec 2) (a b : Sel) (s : State) (hwf : Memory.wf s.mem = true) : Keeps (execCvtF32Q4 r a b s) := by
  unfold execCvtF32Q4
  exact cvtForm_keeps _ _ _ _ _ _ _ hwf

theorem execCvtS8S32_keeps (r : BitVec 2) (a b : Sel) (s : State) (hwf : Memory.wf s.mem = true) : Keeps (execCvtS8S32 r a b s) := by
  unfold execCvtS8S32
  exact cvtForm_keeps _ _ _ _ _ _ _ hwf

theorem execCvtZ8Z32_keeps (r : BitVec 2) (a b : Sel) (s : State) (hwf : Memory.wf s.mem = true) : Keeps (execCvtZ8Z32 r a b s) := by
  unfold execCvtZ8Z32
  exact cvtForm_keeps _ _ _ _ _ _ _ hwf

theorem execCvtS16S32_keeps (r : BitVec 2) (a b : Sel) (s : State) (hwf : Memory.wf s.mem = true) : Keeps (execCvtS16S32 r a b s) := by
  unfold execCvtS16S32
  exact cvtForm_keeps _ _ _ _ _ _ _ hwf

theorem execCvtZ16Z32_keeps (r : BitVec 2) (a b : Sel) (s : State) (hwf : Memory.wf s.mem = true) : Keeps (execCvtZ16Z32 r a b s) := by
  unfold execCvtZ16Z32
  exact cvtForm_keeps _ _ _ _ _ _ _ hwf

theorem execCvtS64S32_keeps (r : BitVec 2) (a b : Sel) (s : State) (hwf : Memory.wf s.mem = true) : Keeps (execCvtS64S32 r a b s) := by
  unfold execCvtS64S32
  exact cvtForm_keeps _ _ _ _ _ _ _ hwf

theorem execCvtZ64Z32_keeps (r : BitVec 2) (a b : Sel) (s : State) (hwf : Memory.wf s.mem = true) : Keeps (execCvtZ64Z32 r a b s) := by
  unfold execCvtZ64Z32
  exact cvtForm_keeps _ _ _ _ _ _ _ hwf

theorem execCvtS32S64_keeps (r : BitVec 2) (a b : Sel) (s : State) (hwf : Memory.wf s.mem = true) : Keeps (execCvtS32S64 r a b s) := by
  unfold execCvtS32S64
  exact cvtForm_keeps _ _ _ _ _ _ _ hwf

theorem execCvtZ32Z64_keeps (r : BitVec 2) (a b : Sel) (s : State) (hwf : Memory.wf s.mem = true) : Keeps (execCvtZ32Z64 r a b s) := by
  unfold execCvtZ32Z64
  exact cvtForm_keeps _ _ _ _ _ _ _ hwf

theorem execPackH16_keeps (r : BitVec 2) (a b : Sel) (s : State) (hwf : Memory.wf s.mem = true) : Keeps (execPackH16 r a b s) := by
  unfold execPackH16
  exact packForm_keeps _ _ _ _ _ _ _ _ hwf

theorem execUnpackH16_keeps (a b : Sel) (s : State) (hwf : Memory.wf s.mem = true) : Keeps (execUnpackH16 a b s) := by
  unfold execUnpackH16
  exact unpackForm_keeps _ _ _ _ _ _ _ hwf

theorem execPackW16_keeps (r : BitVec 2) (a b : Sel) (s : State) (hwf : Memory.wf s.mem = true) : Keeps (execPackW16 r a b s) := by
  unfold execPackW16
  exact packForm_keeps _ _ _ _ _ _ _ _ hwf

theorem execUnpackW16_keeps (a b : Sel) (s : State) (hwf : Memory.wf s.mem = true) : Keeps (execUnpackW16 a b s) := by
  unfold execUnpackW16
  exact unpackForm_keeps _ _ _ _ _ _ _ hwf

theorem execPackQ8_keeps (r : BitVec 2) (a b : Sel) (s : State) (hwf : Memory.wf s.mem = true) : Keeps (execPackQ8 r a b s) := by
  unfold execPackQ8
  exact packForm_keeps _ _ _ _ _ _ _ _ hwf

theorem execUnpackQ8_keeps (a b : Sel) (s : State) (hwf : Memory.wf s.mem = true) : Keeps (execUnpackQ8 a b s) := by
  unfold execUnpackQ8
  exact unpackForm_keeps _ _ _ _ _ _ _ hwf

theorem execPackQ6_keeps (r : BitVec 2) (a b : Sel) (s : State) (hwf : Memory.wf s.mem = true) : Keeps (execPackQ6 r a b s) := by
  unfold execPackQ6
  exact packForm_keeps _ _ _ _ _ _ _ _ hwf

theorem execUnpackQ6_keeps (a b : Sel) (s : State) (hwf : Memory.wf s.mem = true) : Keeps (execUnpackQ6 a b s) := by
  unfold execUnpackQ6
  exact unpackForm_keeps _ _ _ _ _ _ _ hwf

theorem execPackQ4_keeps (r : BitVec 2) (a b : Sel) (s : State) (hwf : Memory.wf s.mem = true) : Keeps (execPackQ4 r a b s) := by
  unfold execPackQ4
  exact packForm_keeps _ _ _ _ _ _ _ _ hwf

theorem execUnpackQ4_keeps (a b : Sel) (s : State) (hwf : Memory.wf s.mem = true) : Keeps (execUnpackQ4 a b s) := by
  unfold execUnpackQ4
  exact unpackForm_keeps _ _ _ _ _ _ _ hwf

theorem execPackS8_keeps (a b : Sel) (s : State) (hwf : Memory.wf s.mem = true) : Keeps (execPackS8 a b s) := by
  unfold execPackS8
  exact packForm_keeps _ _ _ _ _ _ _ _ hwf

theorem execUnpackS8_keeps (a b : Sel) (s : State) (hwf : Memory.wf s.mem = true) : Keeps (execUnpackS8 a b s) := by
  unfold execUnpackS8
  exact unpackForm_keeps _ _ _ _ _ _ _ hwf

theorem execPackZ8_keeps (a b : Sel) (s : State) (hwf : Memory.wf s.mem = true) : Keeps (execPackZ8 a b s) := by
  unfold execPackZ8
  exact packForm_keeps _ _ _ _ _ _ _ _ hwf

theorem execUnpackZ8_keeps (a b : Sel) (s : State) (hwf : Memory.wf s.mem = true) : Keeps (execUnpackZ8 a b s) := by
  unfold execUnpackZ8
  exact unpackForm_keeps _ _ _ _ _ _ _ hwf

theorem execPackS4_keeps (a b : Sel) (s : State) (hwf : Memory.wf s.mem = true) : Keeps (execPackS4 a b s) := by
  unfold execPackS4
  exact packForm_keeps _ _ _ _ _ _ _ _ hwf

theorem execUnpackS4_keeps (a b : Sel) (s : State) (hwf : Memory.wf s.mem = true) : Keeps (execUnpackS4 a b s) := by
  unfold execUnpackS4
  exact unpackForm_keeps _ _ _ _ _ _ _ hwf

theorem execPackZ4_keeps (a b : Sel) (s : State) (hwf : Memory.wf s.mem = true) : Keeps (execPackZ4 a b s) := by
  unfold execPackZ4
  exact packForm_keeps _ _ _ _ _ _ _ _ hwf

theorem execUnpackZ4_keeps (a b : Sel) (s : State) (hwf : Memory.wf s.mem = true) : Keeps (execUnpackZ4 a b s) := by
  unfold execUnpackZ4
  exact unpackForm_keeps _ _ _ _ _ _ _ hwf

theorem execTcopy_keeps (a : Sel) (s : State) (hwf : Memory.wf s.mem = true) : Keeps (execTcopy a s) := by
  unfold execTcopy
  exact copyForm_keeps hwf

theorem execTcopys_keeps (a : Sel) (s : State) (hwf : Memory.wf s.mem = true) : Keeps (execTcopys a s) := by
  unfold execTcopys
  exact copyForm_keeps hwf

theorem execTreduce_keeps (a : Sel) (s : State) (hwf : Memory.wf s.mem = true) : Keeps (execTreduce a s) := by
  unfold execTreduce
  exact copyForm_keeps hwf

theorem execBind_keeps (a : Sel) (s : State) (hwf : Memory.wf s.mem = true) : Keeps (execBind a s) := by
  unfold execBind
  with_reducible refine sectionForm_keeps hwf (fun k => ?_); (repeat' split) <;> simp [hwf]

theorem execUnbind_keeps (a : Sel) (s : State) (hwf : Memory.wf s.mem = true) : Keeps (execUnbind a s) := by
  unfold execUnbind
  with_reducible refine sectionForm_keeps hwf (fun k => ?_); (repeat' split) <;> simp [hwf]

theorem execWaitc_keeps (c : BitVec 3) (t : BitVec 6) (s : State) (hwf : Memory.wf s.mem = true) : Keeps (execWaitc c t s) := by
  unfold execWaitc
  with_reducible refine sectionForm_keeps hwf (fun k => ?_); (repeat' split) <;> simp [hwf]

theorem execTbexpect_keeps (a b : Sel) (s : State) (hwf : Memory.wf s.mem = true) : Keeps (execTbexpect a b s) := by
  unfold execTbexpect
  with_reducible refine tbForm_keeps hwf (fun k off b => ?_)
  split <;> simp [hwf]

theorem execTbarrive_keeps (a : Sel) (s : State) (hwf : Memory.wf s.mem = true) : Keeps (execTbarrive a s) := by
  unfold execTbarrive
  with_reducible refine tbForm_keeps hwf (fun k off b => ?_)
  split <;> simp [hwf]

theorem execTbwait_keeps (a b : Sel) (s : State) (hwf : Memory.wf s.mem = true) : Keeps (execTbwait a b s) := by
  unfold execTbwait
  with_reducible refine tbForm_keeps hwf (fun k off b => ?_); (repeat' split) <;> simp [hwf]

theorem execBar_keeps (c : BitVec 3) (m : BitVec 4) (s : State) (hwf : Memory.wf s.mem = true) : Keeps (execBar c m s) := by
  unfold execBar
  refine sectionForm_keeps hwf (fun k => ?_)
  split
  · exact barGo_wf _ _ _ _ (fun s h => h) hwf
  · exact barGo_wf _ _ _ _ (fun s h => h) (release_wf _ _ _ _ (by rw [modOwn_mem]; exact hwf))

theorem execGbar_keeps (s : State) (hwf : Memory.wf s.mem = true) : Keeps (execGbar  s) := by
  unfold execGbar
  refine sectionForm_keeps hwf (fun k => ?_)
  dsimp only
  split
  · exact barGo_wf _ _ _ _ (fun s h => by rw [modCore_mem]; exact h) hwf
  · exact barGo_wf _ _ _ _ (fun s h => by rw [modCore_mem]; exact h) (release_wf _ _ _ _ (by rw [modOwn_mem]; exact hwf))

theorem execBackoff_keeps (s : State) (hwf : Memory.wf s.mem = true) : Keeps (execBackoff  s) := by
  unfold execBackoff
  with_reducible refine sectionForm_keeps hwf (fun k => ?_); simp [hwf]

theorem execFence_keeps (c : BitVec 3) (s : State) (hwf : Memory.wf s.mem = true) : Keeps (execFence x s) := by
  unfold execFence
  with_reducible refine pathForm_keeps hwf (fun k => ?_); (repeat' split) <;> simp [hwf]

theorem execFenceRp_keeps (c : BitVec 3) (a : Sel) (s : State) (hwf : Memory.wf s.mem = true) : Keeps (execFenceRp x a s) := by
  unfold execFenceRp
  refine pathForm_keeps hwf (fun k => ?_)
  dsimp only
  split
  · exact raise_wf _ _ _ hwf
  · refine ite_wf _ _ _ ?_ (by rw [modOwn_mem]; exact hwf)
    rw [noteRelease_mem, pass_mem, modOwn_mem, fenceDrop_mem, foldl_mem _ _ _ (fun s x => dropLineAll_mem s x)]; exact hwf

theorem execSptest_keeps (d b : Sel) (s : State) (hwf : Memory.wf s.mem = true) : Keeps (execSptest d b s) := by
  unfold execSptest
  exact laneForm_keeps hwf

theorem execSpcast_keeps (c : BitVec 3) (d b : Sel) (s : State) (hwf : Memory.wf s.mem = true) : Keeps (execSpcast c d b s) := by
  unfold execSpcast
  exact castForm_keeps hwf

theorem execSpcastOff_keeps (c : BitVec 3) (d b : Sel) (s : State) (hwf : Memory.wf s.mem = true) : Keeps (execSpcastOff c d b s) := by
  unfold execSpcastOff
  exact castForm_keeps hwf

theorem execSysflush_keeps (a b : Sel) (s : State) (hwf : Memory.wf s.mem = true) : Keeps (execSysflush a b s) := by
  unfold execSysflush
  exact sysForm_keeps hwf

theorem execSysinv_keeps (a b : Sel) (s : State) (hwf : Memory.wf s.mem = true) : Keeps (execSysinv a b s) := by
  unfold execSysinv
  exact sysForm_keeps hwf

theorem execMldn_keeps (a b : Sel) (s : State) (hwf : Memory.wf s.mem = true) : Keeps (execMldn a b s) := by
  unfold execMldn
  exact mldForm_keeps hwf

theorem execMldw_keeps (a b : Sel) (s : State) (hwf : Memory.wf s.mem = true) : Keeps (execMldw a b s) := by
  unfold execMldw
  exact mldForm_keeps hwf

theorem execCurve_keeps (i : BitVec 3) (b : Sel) (s : State) (hwf : Memory.wf s.mem = true) : Keeps (execCurve x b s) := by
  unfold execCurve
  exact tableForm_keeps hwf

theorem execBmap_keeps (b : Sel) (s : State) (hwf : Memory.wf s.mem = true) : Keeps (execBmap b s) := by
  unfold execBmap
  exact tableForm_keeps hwf

theorem execDtest_keeps (p : BitVec 3) (a b : Sel) (s : State) (hwf : Memory.wf s.mem = true) : Keeps (execDtest p a b s) := by
  unfold execDtest
  exact tileForm_keeps hwf (fun k t s p h => by split <;> first | exact h | (dsimp only; rw [tilePut_mem]; exact h))

theorem execBlend_keeps (o : BitVec 3) (a b : Sel) (s : State) (hwf : Memory.wf s.mem = true) : Keeps (execBlend o a b s) := by
  unfold execBlend
  exact tileForm_keeps hwf (fun k t s p h => by dsimp only; rw [tilePut_mem]; exact h)

theorem execPstore_keeps (l : BitVec 3) (a b : Sel) (s : State) (hwf : Memory.wf s.mem = true) : Keeps (execPstore l a b s) := by
  unfold execPstore
  exact tileForm_keeps hwf (fun k t s p h => by dsimp only; rw [tilePut_mem]; exact h)

theorem execResid_keeps (a : Sel) (s : State) (hwf : Memory.wf s.mem = true) : Keeps (execResid a s) := by
  unfold execResid
  with_reducible refine sectionForm_keeps hwf (fun k => ?_); (repeat' split) <;> simp [hwf]

theorem execEvpop_keeps (d b : Sel) (s : State) (hwf : Memory.wf s.mem = true) : Keeps (execEvpop d b s) := by
  unfold execEvpop
  with_reducible refine guardedForm_keeps hwf (fun k => ?_); dsimp only; (repeat' split) <;> simp [hwf]

theorem execSvc_keeps (w : Bool) (h l : BitVec 8) (s : State) (hwf : Memory.wf s.mem = true) : Keeps (execSvc w h l s) := by
  unfold execSvc
  with_reducible refine guardedForm_keeps hwf (fun k => ?_); dsimp only; (repeat' split) <;> simp [hwf]

theorem execAssert_keeps (a : Sel) (s : State) (hwf : Memory.wf s.mem = true) : Keeps (execAssert a s) := by
  unfold execAssert
  with_reducible refine guardedForm_keeps hwf (fun k => ?_); simp [hwf]

theorem execTrap_keeps (c : BitVec 8) (s : State) (hwf : Memory.wf s.mem = true) : Keeps (execTrap c s) := by
  unfold execTrap
  with_reducible refine guardedForm_keeps hwf (fun k => ?_); simp [hwf]

/-- The answers of a form that returns from a handler. -/
theorem returned_wf (k : Iss) (s : State) (f : Section → Section) (hwf : Memory.wf s.mem = true) :
    Memory.wf (afterHandler (modOwn k (retire k s) f) k.team.tid k.sec.role).mem = true :=
  afterHandler_wf _ _ _ (by rw [modOwn_mem, retire_mem]; exact hwf)

theorem execResume_keeps (s : State) (hwf : Memory.wf s.mem = true) : Keeps (execResume  s) := by
  unfold execResume
  refine returnForm_keeps hwf (fun k => ?_)
  split
  · exact hwf
  · exact ite_wf _ _ _ (returned_wf _ _ _ hwf) (ite_wf _ _ _ (returned_wf _ _ _ hwf)
      (ite_wf _ _ _ (skipTo_wf _ _ _ (by rw [retire_mem]; exact hwf)) (returned_wf _ _ _ hwf)))

theorem execSkip_keeps (s : State) (hwf : Memory.wf s.mem = true) : Keeps (execSkip  s) := by
  unfold execSkip
  with_reducible refine returnForm_keeps hwf (fun k => ?_)
  (repeat' split) <;> simp [hwf]

theorem execBrkpt_keeps (s : State) (hwf : Memory.wf s.mem = true) : Keeps (execBrkpt  s) := by
  unfold execBrkpt
  with_reducible refine pathForm_keeps hwf (fun k => ?_); (repeat' split) <;> simp [hwf]

/-- What a send does once it may (R345, R376). -/
theorem sent_wf (k : Iss) (s : State) (d : Sel) (peer : Prop) [Decidable peer] (route : Option (Nat × Nat)) (p : Nat → Nat → PeerSend) (r : Nat × State)
    (hr : r.2.mem = s.mem) (hwf : Memory.wf s.mem = true) : Memory.wf (if peer then
      (match route with
        | none => sendStatus k s d k.act 2
        | some (pctx, dev) => if (!s.peers.contains dev) = true then sendStatus k s d k.act 2
          else modOwn k { s with nextOp := s.nextOp + 1 } (fun c => { c with peerSend := some (p pctx dev) }))
      else sendStatus k r.2 d k.act r.1).mem = true := by
  refine ite_wf _ _ _ ?_ (by rw [sendStatus_mem, hr]; exact hwf)
  split
  · rw [sendStatus_mem]; exact hwf
  · exact ite_wf _ _ _ (by rw [sendStatus_mem]; exact hwf) (by rw [modOwn_mem]; exact hwf)

theorem execUisend_keeps (d b : Sel) (s : State) (hwf : Memory.wf s.mem = true) : Keeps (execUisend d b s) := by
  unfold execUisend
  refine guardedForm_keeps hwf (fun k => ?_)
  dsimp only
  have noted : Memory.wf (noteRelease k s).mem = true := (noteRelease_mem k s).symm ▸ hwf
  exact ite_wf _ _ _ hwf (sent_wf k _ d _ _ _ _ (accept_mem _ _ _ _ _) noted)

theorem execUiret_keeps (s : State) (hwf : Memory.wf s.mem = true) : Keeps (execUiret  s) := by
  unfold execUiret
  with_reducible refine returnForm_keeps hwf (fun k => ?_)
  (repeat' split) <;> simp [hwf]

theorem execIdemEnter_keeps (s : State) (hwf : Memory.wf s.mem = true) : Keeps (execIdemEnter  s) := by
  unfold execIdemEnter
  with_reducible refine sectionForm_keeps hwf (fun k => ?_); simp [hwf]

theorem execIdemLeave_keeps (s : State) (hwf : Memory.wf s.mem = true) : Keeps (execIdemLeave  s) := by
  unfold execIdemLeave
  with_reducible refine sectionForm_keeps hwf (fun k => ?_); simp [hwf]

theorem execHold_keeps (s : State) (hwf : Memory.wf s.mem = true) : Keeps (execHold  s) := by
  unfold execHold
  with_reducible refine sectionForm_keeps hwf (fun k => ?_); simp [hwf]

theorem execWaitEnd_keeps (tid role : Nat) (s : State) (hwf : Memory.wf s.mem = true) : Keeps (execWaitEnd tid role s) := by
  unfold execWaitEnd
  exact keeps_next (by simp [hwf])

theorem execLoadReturn_keeps (tid role : Nat) (status : Nat) (data : List (BitVec 64)) (s : State) (hwf : Memory.wf s.mem = true) : Keeps (execLoadReturn tid role status data s) := by
  unfold execLoadReturn
  refine keeps_next ?_
  have key : ∀ (l : List (Nat × Byte)) (s : State), Memory.wf s.mem = true → Memory.wf (l.foldl (fun s b => s.hostBytes b.1 [b.2]) s).mem = true :=
    fun l s h => foldl_wf _ _ _ (fun s x h => hostBytes_wf _ _ _ h) h
  split
  · split
    · dsimp only
      refine ite_wf _ _ _ (by rw [hostStep_mem]; exact hwf) (ite_wf _ _ _ (by rw [hostStep_mem]; exact hwf) ?_)
      split
      · refine ite_wf _ _ _ ?_ (ite_wf _ _ _ hwf ?_)
        · rw [hostStep_mem, modCore_mem]
          exact ite_wf _ _ _ (takeSlice_wf _ _ _ (hostBytes_wf _ _ _ hwf)) (hostBytes_wf _ _ _ hwf)
        · rw [hostStep_mem]; exact key _ _ hwf
      · exact hwf
    · exact hwf
  · exact hwf

theorem execHeldLoadComplete_keeps (tid role : Nat) (s : State) (hwf : Memory.wf s.mem = true) : Keeps (execHeldLoadComplete tid role s) := by
  unfold execHeldLoadComplete
  refine keeps_next ?_; (repeat' split) <;> simp [hwf]

theorem execStorePerform_keeps (die core idx : Nat) (s : State) (hwf : Memory.wf s.mem = true) : Keeps (execStorePerform die core idx s) := by
  unfold execStorePerform
  refine keeps_next ?_; dsimp only; (repeat' split) <;> simp [hwf]

theorem execRemotePerform_keeps (tid role op : Nat) (s : State) (hwf : Memory.wf s.mem = true) : Keeps (execRemotePerform tid role op s) := by
  unfold execRemotePerform
  refine keeps_next ?_
  split
  · split
    · exact hwf
    · split
      · exact hwf
      · refine ite_wf _ _ _ hwf (ite_wf _ _ _ hwf ?_)
        split
        · next h => rw [placeOpen_mem h]; exact hwf
        · split
          · rw [waitTurn_mem]; exact hwf
          · exact replayDiverged_wf _ _ hwf
          · next h => have h1 := postLane_wf h hwf; rw [partDone_mem]; exact h1
  · exact hwf

theorem execMatrixWriteback_keeps (tid role : Nat) (s : State) (hwf : Memory.wf s.mem = true) : Keeps (execMatrixWriteback tid role s) := by
  unfold execMatrixWriteback
  refine keeps_next ?_; (repeat' split) <;> simp [hwf]

theorem execFmtEmuComplete_keeps (tid role : Nat) (s : State) (hwf : Memory.wf s.mem = true) : Keeps (execFmtEmuComplete tid role s) := by
  unfold execFmtEmuComplete
  refine keeps_next ?_; (repeat' split) <;> simp [hwf]

theorem execWalkComplete_keeps (die core ctx : Nat) (va : BitVec 64) (s : State) (hwf : Memory.wf s.mem = true) : Keeps (execWalkComplete die core ctx va s) := by
  unfold execWalkComplete
  refine keeps_next ?_
  dsimp only
  refine ite_wf _ _ _ hwf ?_
  rw [modCore_mem, pmAdd_mem]; exact hwf

theorem execDemandMapComplete_keeps (ctx : Nat) (va : BitVec 64) (s : State) (hwf : Memory.wf s.mem = true) : Keeps (execDemandMapComplete ctx va s) := by
  unfold execDemandMapComplete
  refine keeps_next ?_
  split
  · exact hwf
  · dsimp only
    split
    · exact hwf
    · split
      · refine ite_wf _ _ _ ?_ (homeFails_wf _ _ _ _ hwf)
        dsimp only
        exact setLeaf_wf _ _ _ _ _ (dropRange_wf _ _ _ (filter_wf' _ _ hwf))
      · exact homeFails_wf _ _ _ _ hwf

theorem execFrameGrant_keeps (die slice : Nat) (frames : List (Option Nat)) (s : State) (hwf : Memory.wf s.mem = true) : Keeps (execFrameGrant die slice frames s) := by
  unfold execFrameGrant
  refine keeps_next ?_; exact hwf

theorem execMigrationComplete_keeps (ctx : Nat) (va : BitVec 64) (data : List Host.Cell) (s : State) (hwf : Memory.wf s.mem = true) : Keeps (execMigrationComplete ctx va data s) := by
  have ending : ∀ (a : State) (hs : List HomeReq), Memory.wf a.mem = true → Memory.wf ({ a with homes := hs } : State).mem = true := fun _ _ h => h
  unfold execMigrationComplete
  refine keeps_next ?_
  split
  · exact hwf
  · dsimp only
    split
    · exact hwf
    · refine ite_wf _ _ _ hwf (ite_wf _ _ _ (ite_wf _ _ _ hwf ?_) (ite_wf _ _ _ (ite_wf _ _ _ (ending _ _ (setLeaf_wf _ _ _ _ _ hwf)) (ite_wf _ _ _ (ending _ _ hwf) (ite_wf _ _ _ ?_ hwf))) (ite_wf _ _ _ (ending _ _ hwf) ?_)))
      · with_reducible exact ending _ _ (pin_wf _ _ _ _ _ (hostData_wf _ _ _ _ (physWrite_wf _ _ _ (dropRange_wf _ _ _ hwf))))
      · refine ending _ _ ?_
        rw [moved_mem]; exact dropRange_wf _ _ _ hwf
      · refine ending _ _ ?_
        rw [moved_mem]
        exact setLeaf_wf _ _ _ _ _ (dropRange_wf _ _ _ (hostData_wf _ _ _ _ hwf))

theorem execHostMigrationRequest_keeps (ctx : Nat) (va : BitVec 64) (s : State) (hwf : Memory.wf s.mem = true) : Keeps (execHostMigrationRequest ctx va s) := by
  unfold execHostMigrationRequest
  refine keeps_next ?_; dsimp only; (repeat' split) <;> simp [hwf]

theorem execThrottleExpiry_keeps (ctx : Nat) (va : BitVec 64) (s : State) (hwf : Memory.wf s.mem = true) : Keeps (execThrottleExpiry ctx va s) := by
  unfold execThrottleExpiry
  refine keeps_next ?_
  split
  · exact hwf
  · split
    · exact hwf
    · refine ite_wf _ _ _ hwf ?_
      rw [modCtx_mem]
      exact setLeaf_wf _ _ _ _ _ (physWrite_wf _ _ _ (dropRange_wf _ _ _ hwf))

theorem execSideLogReplay_keeps (ctx : Nat) (va : BitVec 64) (s : State) (hwf : Memory.wf s.mem = true) : Keeps (execSideLogReplay ctx va s) := by
  unfold execSideLogReplay
  refine keeps_next ?_
  split
  · exact hwf
  · dsimp only
    split
    · exact hwf
    · split
      · split
        · rw [askHome_mem]; exact hwf
        · exact endContext_wf _ _ _ _ _ hwf
        · refine ite_wf _ _ _ hwf (ite_wf _ _ _ hwf (ite_wf _ _ _ hwf ?_))
          split
          · rw [waitTurn_mem]; exact hwf
          · exact replayDiverged_wf _ _ hwf
          · next h =>
            rw [partDone_mem, unlog_mem]
            exact turns_wf _ _ (fun _ _ _ hc hs => replayLane_wf hc hs) _ _ h (fun q hq => Turn.go.inj hq ▸ hwf)
      · exact hwf

theorem execCacheEviction_keeps (kind die unit line : Nat) (s : State) (hwf : Memory.wf s.mem = true) : Keeps (execCacheEviction kind die unit line s) := by
  unfold execCacheEviction
  refine keeps_next ?_; (repeat' split) <;> simp [hwf]

theorem execSysCacheOpComplete_keeps (tid role op : Nat) (s : State) (hwf : Memory.wf s.mem = true) : Keeps (execSysCacheOpComplete tid role op s) := by
  unfold execSysCacheOpComplete
  refine keeps_next ?_
  split
  · refine ite_wf _ _ _ hwf ?_
    dsimp only
    rw [opDone_mem]
    refine ite_wf _ _ _ (foldl_wf _ _ _ (fun s x h => writeBack_wf _ _ h) hwf) ?_
    show Memory.wf (List.foldl _ _ _ : State).mem = true
    rw [foldl_mem _ _ _ (fun s x => dropSlice_mem s x)]; exact hwf
  · exact hwf

theorem execAtomicopCompletion_keeps (tid role : Nat) (status : Nat) (old : BitVec 64) (s : State) (hwf : Memory.wf s.mem = true) : Keeps (execAtomicopCompletion tid role status old s) := by
  unfold execAtomicopCompletion
  refine keeps_next ?_
  split
  · split
    · dsimp only
      refine ite_wf _ _ _ (by rw [hostFail_mem]; exact hwf) (ite_wf _ _ _ (by rw [hostFail_mem]; exact hwf) ?_)
      split
      · rw [waitTurn_mem]; exact hwf
      · exact replayDiverged_wf _ _ hwf
      · next h =>
        have h1 := hostTurn_wf h hwf
        rw [hostTwin_mem, hostStep_mem]
        split
        · exact foldl_wf _ _ _ (fun s x h => physWrite_wf _ _ _ h) h1
        · exact h1
    · exact hwf
  · exact hwf

theorem execEpochClose_keeps (lid : Nat) (s : State) (hwf : Memory.wf s.mem = true) : Keeps (execEpochClose lid s) := by
  unfold execEpochClose
  refine keeps_next ?_; dsimp only; (repeat' split) <;> simp [hwf]

/-- A section changed only in one case: memory stands. -/
theorem ite_modSec_mem (p : Prop) [Decidable p] (s : State) (tid role : Nat) (f : Section → Section) :
    (if p then s else s.modSec tid role f).mem = s.mem := by
  split
  · rfl
  · exact modSec_mem _ _ _ _

theorem execDmrCompare_keeps (tid role : Nat) (s : State) (hwf : Memory.wf s.mem = true) : Keeps (execDmrCompare tid role s) := by
  unfold execDmrCompare
  refine keeps_next ?_
  have part : ∀ (s : State) (o : Option Nat) (t : Nat), Memory.wf s.mem = true → Memory.wf (match o with
      | some id => s.partDone t role id
      | none => s).mem = true := by
    intro s o t h
    split
    · rw [partDone_mem]; exact h
    · exact h
  split
  · split
    · split
      · exact hwf
      · refine ite_wf _ _ _ (dmrEnd_wf _ _ _ _ hwf) (ite_wf _ _ _ hwf (ite_wf _ _ _ ?_ (ite_wf _ _ _ hwf ?_)))
        · rw [modSec_mem, modSec_mem]
          exact clearLines_wf _ _ (by rw [modSec_mem, modSec_mem, modCtx_mem]; exact hwf)
        · dsimp only
          split
          · rw [waitTurn_mem]; exact hwf
          · exact replayDiverged_wf _ _ hwf
          · next h =>
            have h1 := dmrPerform_wf h hwf
            refine ite_wf _ _ _ ?_ ?_
            · rw [modSec_mem, modSec_mem, foldl_mem _ _ _ (fun s x => askHome_mem _ _ _ _), ite_modSec_mem]; exact h1
            · refine part _ _ _ (part _ _ _ ?_)
              refine ite_wf _ _ _ ?_ ?_
              · rw [hostStep_mem, hostStep_mem, modCtx_mem, modSec_mem, modSec_mem, foldl_mem _ _ _ (fun s x => askHome_mem _ _ _ _), ite_modSec_mem]; exact h1
              · rw [modCtx_mem, modSec_mem, modSec_mem, foldl_mem _ _ _ (fun s x => askHome_mem _ _ _ _), ite_modSec_mem]; exact h1
    · exact hwf
  · exact hwf

theorem execCopyStart_keeps (die core : Nat) (s : State) (hwf : Memory.wf s.mem = true) : Keeps (execCopyStart die core s) := by
  unfold execCopyStart
  refine keeps_next ?_
  dsimp only
  refine ite_wf _ _ _ hwf ?_
  split
  · rw [foldl_mem _ _ _ (fun s x => by split <;> first | rfl | exact copyTouch_mem (by assumption))]; exact hwf
  · split
    · exact startEntry_wf _ _ _ _ _ hwf
    · exact dropCopy_wf _ _ _ _ hwf
    · exact hwf

theorem execSectorLanding_keeps (die core copy n : Nat) (s : State) (hwf : Memory.wf s.mem = true) : Keeps (execSectorLanding die core copy n s) := by
  unfold execSectorLanding
  refine keeps_next ?_; (repeat' split) <;> simp [hwf]

theorem execCopyPause_keeps (die core copy : Nat) (s : State) (hwf : Memory.wf s.mem = true) : Keeps (execCopyPause die core copy s) := by
  unfold execCopyPause
  refine keeps_next ?_; (repeat' split) <;> simp [hwf]

theorem execCopyResume_keeps (die core copy : Nat) (s : State) (hwf : Memory.wf s.mem = true) : Keeps (execCopyResume die core copy s) := by
  unfold execCopyResume
  refine keeps_next ?_; dsimp only; (repeat' split) <;> simp [hwf]

theorem execCopyStop_keeps (die core copy cause : Nat) (s : State) (hwf : Memory.wf s.mem = true) : Keeps (execCopyStop die core copy cause s) := by
  unfold execCopyStop
  refine keeps_next ?_; dsimp only; (repeat' split) <;> simp [hwf]

theorem execTreduceComplete_keeps (lid gang : Nat) (s : State) (hwf : Memory.wf s.mem = true) : Keeps (execTreduceComplete lid gang s) := by
  unfold execTreduceComplete
  refine keeps_next ?_
  dsimp only
  split
  · exact hwf
  · have drop : ∀ l : List (Team × Copy), Memory.wf (l.foldl (fun s e => haltDrop s e.1.die e.1.core e.2) s).mem = true :=
      fun l => foldl_wf _ _ _ (fun s x h => haltDrop_wf _ _ _ _ h) hwf
    refine ite_wf _ _ _ hwf (ite_wf _ _ _ (drop _) (ite_wf _ _ _ (ite_wf _ _ _ (drop _) hwf) ?_))
    split
    · exact hwf
    · refine ite_wf _ _ _ (drop _) (ite_wf _ _ _ (foldl_wf _ _ _ (fun s x h => dropCopy_wf _ _ _ _ h) hwf) (ite_wf _ _ _ hwf ?_))
      refine foldl_wf _ _ _ (fun s x h => ?_) hwf
      rw [copyDone_mem, foldl_mem _ _ _ (fun s y => copyBar_mem s _ _), lineDone_mem, overtake_mem, fillBytes_mem]; exact h

theorem execOculusCompare_keeps (die core : Nat) (s : State) (hwf : Memory.wf s.mem = true) : Keeps (execOculusCompare die core s) := by
  unfold execOculusCompare
  refine keeps_next ?_
  dsimp only
  split
  · exact hwf
  · split
    · rw [modCore_mem]; exact hwf
    · split
      · rw [modOwn_mem, modCore_mem]; exact hwf
      · split
        · rw [touch_mem _ _ _ _ _ (by assumption)]; exact hwf
        · exact raise_wf _ _ _ (by rw [modOwn_mem, modCore_mem]; exact hwf)
        · refine unlessFailed_wf _ _ _ _ _ ?_ (by rw [modOwn_mem, modCore_mem]; exact hwf)
          rw [modOwn_mem, modCore_mem, retireWith_mem, pmAdd_mem, pmAdd_mem, modTeam_mem]; exact hwf

theorem execGangDieArrival_keeps (lid gang die : Nat) (s : State) (hwf : Memory.wf s.mem = true) : Keeps (execGangDieArrival lid gang die s) := by
  unfold execGangDieArrival
  refine keeps_next ?_; dsimp only; (repeat' split) <;> simp [hwf]

theorem execLanternExec_keeps (die core idx : Nat) (s : State) (hwf : Memory.wf s.mem = true) : Keeps (execLanternExec die core idx s) := by
  unfold execLanternExec
  refine keeps_next ?_; (repeat' split) <;> simp [hwf]

theorem execUiDelivery_keeps (ctx : Nat) (s : State) (hwf : Memory.wf s.mem = true) : Keeps (execUiDelivery ctx s) := by
  unfold execUiDelivery
  refine keeps_next ?_
  split
  · rw [waitTurn_mem]; exact hwf
  · exact replayDiverged_wf _ _ hwf
  · next h =>
    dsimp only
    rw [modSec_mem, modCore_mem, modCtx_mem]
    unfold State.uiTurn? at h
    split at h
    · dsimp only at h
      injection h with h
      injection h with _ h
      injection h with _ h
      injection h with _ h
      split at h
      · cases h
      · exact choose_wf h hwf
    · cases h
  · exact hwf

theorem execAlarmExpiry_keeps (tid role : Nat) (s : State) (hwf : Memory.wf s.mem = true) : Keeps (execAlarmExpiry tid role s) := by
  unfold execAlarmExpiry
  refine keeps_next ?_; exact hwf

theorem execAlarmTrap_keeps (tid role : Nat) (s : State) (hwf : Memory.wf s.mem = true) : Keeps (execAlarmTrap tid role s) := by
  unfold execAlarmTrap
  refine keeps_next ?_; (repeat' split) <;> simp [hwf]

theorem execBreakpointMatch_keeps (tid role : Nat) (s : State) (hwf : Memory.wf s.mem = true) : Keeps (execBreakpointMatch tid role s) := by
  unfold execBreakpointMatch
  refine keeps_next ?_; dsimp only; (repeat' split) <;> simp [hwf]

theorem execStepHold_keeps (tid role : Nat) (s : State) (hwf : Memory.wf s.mem = true) : Keeps (execStepHold tid role s) := by
  unfold execStepHold
  refine keeps_next ?_; (repeat' split) <;> simp [hwf]

theorem execLatchIdleInvalidate_keeps (die core port : Nat) (s : State) (hwf : Memory.wf s.mem = true) : Keeps (execLatchIdleInvalidate die core port s) := by
  unfold execLatchIdleInvalidate
  refine keeps_next ?_; (repeat' split) <;> simp [hwf]

theorem execAging_keeps (tid role : Nat) (s : State) (hwf : Memory.wf s.mem = true) : Keeps (execAging tid role s) := by
  unfold execAging
  refine keeps_next ?_; (repeat' split) <;> simp [hwf]

theorem execBackoffDecay_keeps (tid role : Nat) (s : State) (hwf : Memory.wf s.mem = true) : Keeps (execBackoffDecay tid role s) := by
  unfold execBackoffDecay
  refine keeps_next ?_; exact hwf

theorem execBackoffDelayEnd_keeps (tid role : Nat) (s : State) (hwf : Memory.wf s.mem = true) : Keeps (execBackoffDelayEnd tid role s) := by
  unfold execBackoffDelayEnd
  refine keeps_next ?_; exact hwf

theorem execResumeClassExpiry_keeps (tid role : Nat) (s : State) (hwf : Memory.wf s.mem = true) : Keeps (execResumeClassExpiry tid role s) := by
  unfold execResumeClassExpiry
  refine keeps_next ?_; exact hwf

theorem execDemandParkEligible_keeps (tid role : Nat) (s : State) (hwf : Memory.wf s.mem = true) : Keeps (execDemandParkEligible tid role s) := by
  unfold execDemandParkEligible
  refine keeps_next ?_; exact hwf

theorem execDemandPark_keeps (die core : Nat) (s : State) (hwf : Memory.wf s.mem = true) : Keeps (execDemandPark die core s) := by
  unfold execDemandPark
  refine keeps_next ?_; (repeat' split) <;> simp [hwf]

theorem execImageDrainComplete_keeps (tid : Nat) (s : State) (hwf : Memory.wf s.mem = true) : Keeps (execImageDrainComplete tid s) := by
  unfold execImageDrainComplete
  refine keeps_next ?_
  split
  · refine ite_wf _ _ _ hwf ?_
    split
    · refine ite_wf _ _ _ hwf ?_
      split
      · rw [drainDone_mem]; exact imageOut_wf _ _ hwf
      · next h => rw [imageAt_wait h]; exact hwf
      · exact imageLost_wf _ _ _ hwf
    · split
      · exact ite_wf _ _ _ (by rw [shadowDrainDone_mem]; exact imageOut_wf _ _ hwf) hwf
      · next h => rw [imageAt_wait h]; exact hwf
      · exact imageLost_wf _ _ _ hwf
    · exact hwf
  · exact hwf

theorem execTeamRestore_keeps (die core : Nat) (s : State) (hwf : Memory.wf s.mem = true) : Keeps (execTeamRestore die core s) := by
  unfold execTeamRestore
  refine keeps_next ?_
  split
  · split
    · next h => exact resumeInPlace_wf h hwf
    · rw [waitTurn_mem]; exact hwf
    · exact replayDiverged_wf _ _ hwf
  · split
    · exact hwf
    · split
      · next h =>
        split at h
        · cases h
        · rw [imageAt_wait h]; exact hwf
      · exact imageLost_wf _ _ _ hwf
      · split
        · next h => exact restoreTeam_wf h (by rw [fillImage_mem]; exact hwf)
        · rw [waitTurn_mem]; exact hwf
        · exact replayDiverged_wf _ _ hwf

theorem execShadowFillComplete_keeps (die core ctx : Nat) (s : State) (hwf : Memory.wf s.mem = true) : Keeps (execShadowFillComplete die core ctx s) := by
  unfold execShadowFillComplete
  refine keeps_next ?_
  dsimp only
  refine ite_wf _ _ _ hwf (ite_wf _ _ _ (by rw [modCore_mem]; exact hwf) ?_)
  split
  · next h => rw [fillAt_wait _ h]; exact hwf
  · split
    · exact imageLost_wf _ _ _ hwf
    · exact hwf
  · rw [modCore_mem]
    dsimp only
    rw [foldl_mem _ _ _ fillImage_mem]; exact hwf

theorem execBankSwap_keeps (die core : Nat) (s : State) (hwf : Memory.wf s.mem = true) : Keeps (execBankSwap die core s) := by
  unfold execBankSwap
  refine keeps_next ?_
  dsimp only
  have swapped : Memory.wf (List.foldl swapIn (State.modCore { (List.foldl stow s (s.inBank die core .active)) with
      teams := (List.foldl stow s (s.inBank die core .active)).teams.map (fun t =>
        if t.die = die ∧ t.core = core ∧ t.bank = .active then { t with bank := .shadow, draining := true, secs := t.secs.map (parkSec 2) } else t) }
      die core (fun y => { y with
        preempt := false
        dcache := []
        tlb := y.tlb.filter (fun e => (s.coreAt die core).ctx != some (tlbCtx e))
        dirs := []
        ctx := if (s.inBank die core .shadow).isEmpty then none else (s.coreAt die core).shadowCtx
        shadow := if (s.inBank die core .active).isEmpty then .empty else .draining
        shadowCtx := if (s.inBank die core .active).isEmpty then none else (s.coreAt die core).ctx })) (s.inBank die core .shadow)).mem = true := by
    refine foldl_wf _ _ _ (fun s x h => swapIn_wf _ _ h) ?_
    rw [modCore_mem]
    show Memory.wf (List.foldl _ _ _ : State).mem = true
    rw [foldl_mem _ _ _ (fun s x => stow_mem s x)]; exact hwf
  refine ite_wf _ _ _ hwf ?_
  split
  · rw [wakeServed_mem]; exact swapped
  · exact swapped

theorem execPreemptRequest_keeps (die core : Nat) (s : State) (hwf : Memory.wf s.mem = true) : Keeps (execPreemptRequest die core s) := by
  unfold execPreemptRequest
  refine keeps_next ?_; (repeat' split) <;> simp [hwf]

theorem execPreemptSafePoint_keeps (die core : Nat) (s : State) (hwf : Memory.wf s.mem = true) : Keeps (execPreemptSafePoint die core s) := by
  unfold execPreemptSafePoint
  refine keeps_next ?_
  dsimp only
  refine ite_wf _ _ _ hwf ?_
  rw [modCore_mem]
  show Memory.wf (List.foldl _ _ _ : State).mem = true
  rw [foldl_mem _ _ _ (fun s x => ite_mem _ _ _ _ (discard_mem s x) rfl)]; exact hwf

theorem execContextWake_keeps (die : Nat) (s : State) (hwf : Memory.wf s.mem = true) : Keeps (execContextWake die s) := by
  unfold execContextWake
  refine keeps_next ?_
  dsimp only
  have served : ∀ s' : State, Memory.wf s'.mem = true → ∀ l : List Nat, Memory.wf (l.foldl (fun s ctx => if s.wakeOver ctx then s.wakeServed ctx else s) s').mem = true :=
    fun s' h l => by rw [foldl_mem _ _ _ (fun s x => ite_mem _ _ _ _ (wakeServed_mem s x) rfl)]; exact h
  split
  · exact served _ hwf _
  · rw [foldl_mem _ _ _ (fun s x => modCore_mem _ _ _ _)]; exact served _ hwf _

theorem execPacketRead_keeps (part err : Nat) (s : State) (hwf : Memory.wf s.mem = true) : Keeps (execPacketRead part err s) := by
  unfold execPacketRead
  refine keeps_next ?_
  refine ite_wf _ _ _ hwf ?_
  split
  · exact hwf
  · next q x _ =>
    dsimp only
    split
    · exact queueError_wf _ _ hwf
    · rw [askHome_mem]; exact hwf
    · next bs _ =>
      have h1 := takePacket_wf { s with turn := tset 0 s.turn (queueTurn part x.prio.toNat) (q + 1) } q x part err bs hwf
      split
      · next h => rw [h] at h1; exact h1
      · next h => rw [h] at h1; exact h1

theorem execTeamPlace_keeps (lid : Nat) (s : State) (hwf : Memory.wf s.mem = true) : Keeps (execTeamPlace lid s) := by
  have plan : ∀ (l : Launch) (p : Plan), Memory.wf (match s.logPlaces l p.cores with
      | .go s => placeGang s l p
      | .wait va => s.waitTurn l.ctx va
      | .diverged => replayDiverged s l.ctx).mem = true := by
    intro l p
    split
    · next h => exact placeGang_wf _ _ _ (logPlaces_wf h hwf)
    · rw [waitTurn_mem]; exact hwf
    · exact replayDiverged_wf _ _ hwf
  unfold execTeamPlace
  refine keeps_next ?_
  split
  · exact hwf
  · dsimp only
    refine ite_wf _ _ _ hwf (ite_wf _ _ _ ?_ ?_)
    · split
      · rw [waitTurn_mem]; exact hwf
      · exact replayDiverged_wf _ _ hwf
      · refine ite_wf _ _ _ (replayMismatch_wf _ _ hwf) ?_
        split
        · exact hwf
        · exact plan _ _
    · split
      · exact hwf
      · exact plan _ _

theorem execLaunchComplete_keeps (lid : Nat) (s : State) (hwf : Memory.wf s.mem = true) : Keeps (execLaunchComplete lid s) := by
  unfold execLaunchComplete
  refine keeps_next ?_; (repeat' split) <;> simp [hwf]

theorem execCompletionWordWrite_keeps (lid : Nat) (s : State) (hwf : Memory.wf s.mem = true) : Keeps (execCompletionWordWrite lid s) := by
  unfold execCompletionWordWrite
  refine keeps_next ?_; dsimp only; (repeat' split) <;> simp [hwf]

theorem execSvcDeferredPost_keeps (tid role : Nat) (s : State) (hwf : Memory.wf s.mem = true) : Keeps (execSvcDeferredPost tid role s) := by
  unfold execSvcDeferredPost
  refine keeps_next ?_; (repeat' split) <;> simp [hwf]

theorem execServiceRequestServe_keeps (die slice seq : Nat) (host : List (BitVec 64)) (s : State) (hwf : Memory.wf s.mem = true) : Keeps (execServiceRequestServe die slice seq host s) := by
  unfold execServiceRequestServe
  refine keeps_next ?_
  split
  · exact hwf
  · refine ite_wf _ _ _ (by rw [reqDone_mem]; exact hwf) (ite_wf _ _ _ (replyOut_wf _ _ _ _ _ hwf) (ite_wf _ _ _ (serveAlloc_wf _ _ _ _ hwf) (ite_wf _ _ _ (serveFree_wf _ _ _ _ hwf) (ite_wf _ _ _ ?_ (postReply_wf _ _ _ _ _ hwf)))))
    exact postReply_wf _ _ _ _ _ (hostAtomics_wf _ _ _ _ hwf)

theorem execCupolaDoorbell_keeps (die : Nat) (s : State) (hwf : Memory.wf s.mem = true) : Keeps (execCupolaDoorbell die s) := by
  unfold execCupolaDoorbell
  refine keeps_next ?_; dsimp only; (repeat' split) <;> simp [hwf]

@[simp] theorem cupolaSplit_wf (s : State) (die i : Nat) (c : Composite) (d j : Nat) (x : Composite) (hwf : Memory.wf s.mem = true) :
    Memory.wf (cupolaSplit s die i c d j x).mem = true := by
  unfold cupolaSplit
  exact cupolaStop_wf _ _ _ _ (cupolaStop_wf _ _ _ _ (by rw [setComp_mem, setComp_mem]; exact hwf))

theorem execCupolaRound_keeps (die idx : Nat) (peer : List Host.Cell) (s : State) (hwf : Memory.wf s.mem = true) : Keeps (execCupolaRound die idx peer s) := by
  unfold execCupolaRound
  refine keeps_next ?_
  split
  · dsimp only
    refine ite_wf _ _ _ (by rw [compEnd_mem]; exact hwf) (ite_wf _ _ _ (by rw [setComp_mem]; exact hwf) ?_)
    split
    · exact hwf
    · exact ite_wf _ _ _ (cupolaSplit_wf _ _ _ _ _ _ _ hwf) (ite_wf _ _ _ hwf (by rw [setComp_mem, setComp_mem]; exact hwf))
  · exact hwf

theorem execLaunchQueueDoorbell_keeps (q : Nat) (v : BitVec 32) (s : State) (hwf : Memory.wf s.mem = true) : Keeps (execLaunchQueueDoorbell q v s) := by
  unfold execLaunchQueueDoorbell
  refine keeps_next ?_; (repeat' split) <;> simp [hwf]

theorem execQctlWrite_keeps (q : Nat) (v : BitVec 64) (s : State) (hwf : Memory.wf s.mem = true) : Keeps (execQctlWrite q v s) := by
  unfold execQctlWrite
  refine keeps_next ?_; (repeat' split) <;> simp [hwf]

theorem execInvgo_keeps (v : BitVec 64) (s : State) (hwf : Memory.wf s.mem = true) : Keeps (execInvgo v s) := by
  unfold execInvgo
  refine keeps_next ?_; simp [hwf]

theorem execInvalidationComplete_keeps (s : State) (hwf : Memory.wf s.mem = true) : Keeps (execInvalidationComplete  s) := by
  unfold execInvalidationComplete
  refine keeps_next ?_; (repeat' split) <;> simp [hwf]

theorem execChalt_keeps (die : Nat) (v : BitVec 64) (s : State) (hwf : Memory.wf s.mem = true) : Keeps (execChalt die v s) := by
  unfold execChalt
  refine keeps_next ?_; (repeat' split) <;> simp [hwf]

theorem execContextEnable_keeps (ctx : Nat) (s : State) (hwf : Memory.wf s.mem = true) : Keeps (execContextEnable ctx s) := by
  unfold execContextEnable
  refine keeps_next ?_; (repeat' split) <;> simp [hwf]

theorem execContextEndRequest_keeps (ctx : Nat) (s : State) (hwf : Memory.wf s.mem = true) : Keeps (execContextEndRequest ctx s) := by
  unfold execContextEndRequest
  refine keeps_next ?_; (repeat' split) <;> simp [hwf]

theorem execLoghead_keeps (ctx : Nat) (v : BitVec 32) (s : State) (hwf : Memory.wf s.mem = true) : Keeps (execLoghead ctx v s) := by
  unfold execLoghead
  refine keeps_next ?_; (repeat' split) <;> simp [hwf]

theorem execDoorbellSend_keeps (page : Nat) (v : BitVec 32) (s : State) (hwf : Memory.wf s.mem = true) : Keeps (execDoorbellSend page v s) := by
  unfold execDoorbellSend
  refine keeps_next ?_; (repeat' split) <;> simp [hwf]

theorem execPeerSendReceive_keeps (peer : BitVec 16) (ctx vec : Nat) (pay : BitVec 64) (s : State) (hwf : Memory.wf s.mem = true) : Keeps (execPeerSendReceive peer ctx vec pay s) := by
  unfold execPeerSendReceive
  refine keeps_next ?_; (repeat' split) <;> simp [hwf]

theorem execDebugHold_keeps (ctx : Nat) (s : State) (hwf : Memory.wf s.mem = true) : Keeps (execDebugHold ctx s) := by
  unfold execDebugHold
  refine keeps_next ?_; simp [hwf]

theorem execDebugRelease_keeps (ctx : Nat) (s : State) (hwf : Memory.wf s.mem = true) : Keeps (execDebugRelease ctx s) := by
  unfold execDebugRelease
  refine keeps_next ?_; simp [hwf]

theorem execDebugHoldAll_keeps (ctx : Nat) (s : State) (hwf : Memory.wf s.mem = true) : Keeps (execDebugHoldAll ctx s) := by
  unfold execDebugHoldAll
  refine keeps_next ?_; simp [hwf]

theorem execDebugWindowWrite_keeps (ctx off : Nat) (v : BitVec 64) (s : State) (hwf : Memory.wf s.mem = true) : Keeps (execDebugWindowWrite ctx off v s) := by
  unfold execDebugWindowWrite
  refine keeps_next ?_; (repeat' split) <;> simp [hwf]

theorem execRegisterWrite_keeps (bar off size : Nat) (v : BitVec 64) (s : State) (hwf : Memory.wf s.mem = true) : Keeps (execRegisterWrite bar off size v s) := by
  unfold execRegisterWrite
  refine keeps_next ?_; simp [hwf]

theorem execAtsInvalidationRequest_keeps (page : Nat) (s : State) (hwf : Memory.wf s.mem = true) : Keeps (execAtsInvalidationRequest page s) := by
  unfold execAtsInvalidationRequest
  refine keeps_next ?_; (repeat' split) <;> simp [hwf]

theorem execPageRequestResponse_keeps (ctx : Nat) (va : BitVec 64) (ok : Bool) (s : State) (hwf : Memory.wf s.mem = true) : Keeps (execPageRequestResponse ctx va ok s) := by
  unfold execPageRequestResponse
  refine keeps_next ?_; (repeat' split) <;> simp [hwf]

theorem execInboundAtomicop_keeps (s : State) (hwf : Memory.wf s.mem = true) : Keeps (execInboundAtomicop  s) := by
  unfold execInboundAtomicop
  with_reducible exact keeps_next hwf

theorem execFirmwareRecovery_keeps (len : BitVec 64) (s : State) (hwf : Memory.wf s.mem = true) : Keeps (execFirmwareRecovery len s) := by
  unfold execFirmwareRecovery
  refine keeps_next ?_; simp [hwf]

theorem execPowerGood_keeps (s : State) (hwf : Memory.wf s.mem = true) : Keeps (execPowerGood  s) := by
  unfold execPowerGood
  refine keeps_next ?_; (repeat' split) <;> simp [hwf]

theorem execStage1Complete_keeps (header body : List (BitVec 8)) (trained : Bool) (s : State) (hwf : Memory.wf s.mem = true) : Keeps (execStage1Complete header body trained s) := by
  unfold execStage1Complete
  refine keeps_next ?_; dsimp only; (repeat' split) <;> simp [hwf]

theorem execStage2Complete_keeps (cxl : Nat) (ports peers : List Nat) (s : State) (hwf : Memory.wf s.mem = true) : Keeps (execStage2Complete cxl ports peers s) := by
  unfold execStage2Complete
  refine keeps_next ?_; (repeat' split) <;> simp [hwf]

theorem execClockStep_keeps (up : Bool) (s : State) (hwf : Memory.wf s.mem = true) : Keeps (execClockStep up s) := by
  unfold execClockStep
  refine keeps_next ?_; (repeat' split) <;> simp [hwf]

theorem execHotSpot105_keeps (s : State) (hwf : Memory.wf s.mem = true) : Keeps (execHotSpot105  s) := by
  unfold execHotSpot105
  refine keeps_next ?_; (repeat' split) <;> simp [hwf]

theorem execHotSpot115_keeps (s : State) (hwf : Memory.wf s.mem = true) : Keeps (execHotSpot115  s) := by
  unfold execHotSpot115
  refine keeps_next ?_; (repeat' split) <;> simp [hwf]

theorem execCxlPortFailure_keeps (port : Nat) (s : State) (hwf : Memory.wf s.mem = true) : Keeps (execCxlPortFailure port s) := by
  unfold execCxlPortFailure
  refine keeps_next ?_; (repeat' split) <;> simp [hwf]

theorem execServiceInstanceFailure_keeps (die slice : Nat) (s : State) (hwf : Memory.wf s.mem = true) : Keeps (execServiceInstanceFailure die slice s) := by
  unfold execServiceInstanceFailure
  refine keeps_next ?_; (repeat' split) <;> simp [hwf]

theorem execEccCorrected_keeps (array : Nat) (s : State) (hwf : Memory.wf s.mem = true) : Keeps (execEccCorrected array s) := by
  unfold execEccCorrected
  refine keeps_next ?_
  split <;> exact hwf

theorem execEccImageError_keeps (ctx : Nat) (s : State) (hwf : Memory.wf s.mem = true) : Keeps (execEccImageError ctx s) := by
  unfold execEccImageError
  refine keeps_next ?_; (repeat' split) <;> simp [hwf]

theorem execStage0Complete_keeps (s : State) (hwf : Memory.wf s.mem = true) : Keeps (execStage0Complete  s) := by
  unfold execStage0Complete
  refine keeps_next ?_; (repeat' split) <;> simp [hwf]

theorem execCompletionTimeout_keeps (tid role : Nat) (s : State) (hwf : Memory.wf s.mem = true) : Keeps (execCompletionTimeout tid role s) := by
  unfold execCompletionTimeout
  refine keeps_next ?_; (repeat' split) <;> simp [hwf]

theorem execHostRuntimeServiceReply_keeps (die slice : Nat) (seq : Nat) (reply : List (BitVec 64 × BitVec 32)) (s : State) (hwf : Memory.wf s.mem = true) : Keeps (execHostRuntimeServiceReply die slice seq reply s) := by
  unfold execHostRuntimeServiceReply
  refine keeps_next ?_; (repeat' split) <;> simp [hwf]

theorem execSendStatusReturn_keeps (tid role : Nat) (status : BitVec 2) (s : State) (hwf : Memory.wf s.mem = true) : Keeps (execSendStatusReturn tid role status s) := by
  unfold execSendStatusReturn
  refine keeps_next ?_; dsimp only; (repeat' split) <;> simp [hwf]

theorem execPartitionChange_keeps (part : Nat) (cells : List Nat) (s : State) (hwf : Memory.wf s.mem = true) : Keeps (execPartitionChange part cells s) := by
  unfold execPartitionChange
  refine keeps_next ?_; dsimp only; (repeat' split) <;> simp [hwf]

theorem execDoorbellPageBind_keeps (page : Nat) (token : Option (BitVec 48)) (s : State) (hwf : Memory.wf s.mem = true) : Keeps (execDoorbellPageBind page token s) := by
  unfold execDoorbellPageBind
  refine keeps_next ?_; (repeat' split) <;> simp [hwf]

theorem execDieScratchpadBlockGive_keeps (die block ctx : Nat) (s : State) (hwf : Memory.wf s.mem = true) : Keeps (execDieScratchpadBlockGive die block ctx s) := by
  unfold execDieScratchpadBlockGive
  refine keeps_next ?_; (repeat' split) <;> simp [hwf]

/-- Whatever an instruction or an event does, memory keeps its canonical form. -/
theorem exec_keeps (i : Instr) (s : State) (hwf : Memory.wf s.mem = true) : Keeps (exec i s) :=
  match i with
  | .iadd n d a b => execIadd_keeps n d a b s hwf
  | .isub n d a b => execIsub_keeps n d a b s hwf
  | .imul n d a b => execImul_keeps n d a b s hwf
  | .imulh n d a b => execImulh_keeps n d a b s hwf
  | .imad n d a b => execImad_keeps n d a b s hwf
  | .imin n d a b => execImin_keeps n d a b s hwf
  | .imax n d a b => execImax_keeps n d a b s hwf
  | .iabs n d a => execIabs_keeps n d a s hwf
  | .icmp c p a b => execIcmp_keeps c p a b s hwf
  | .lea n d a b => execLea_keeps n d a b s hwf
  | .addi n d imm => execAddi_keeps n d imm s hwf
  | .movi n d imm => execMovi_keeps n d imm s hwf
  | .movhi n d imm => execMovhi_keeps n d imm s hwf
  | .and n d a b => execAnd_keeps n d a b s hwf
  | .or n d a b => execOr_keeps n d a b s hwf
  | .xor n d a b => execXor_keeps n d a b s hwf
  | .not n d a => execNot_keeps n d a s hwf
  | .shl n d a b => execShl_keeps n d a b s hwf
  | .shr n d a b => execShr_keeps n d a b s hwf
  | .popc n d a => execPopc_keeps n d a s hwf
  | .clz n d a => execClz_keeps n d a s hwf
  | .mov n d a => execMov_keeps n d a s hwf
  | .rdlane n d a b => execRdlane_keeps n d a b s hwf
  | .shfl n d a b => execShfl_keeps n d a b s hwf
  | .shflx n d a b => execShflx_keeps n d a b s hwf
  | .ballot n d a => execBallot_keeps n d a s hwf
  | .vote o p a => execVote_keeps o p a s hwf
  | .plop o p a b => execPlop_keeps o p a b s hwf
  | .movp n d => execMovp_keeps n d s hwf
  | .fadd n d a b => execFadd_keeps n d a b s hwf
  | .fsub n d a b => execFsub_keeps n d a b s hwf
  | .fmul n d a b => execFmul_keeps n d a b s hwf
  | .ffma n d a b => execFfma_keeps n d a b s hwf
  | .fdiv n d a b => execFdiv_keeps n d a b s hwf
  | .fsqrt n d a => execFsqrt_keeps n d a s hwf
  | .fmin n d a b => execFmin_keeps n d a b s hwf
  | .fmax n d a b => execFmax_keeps n d a b s hwf
  | .fabs n d a => execFabs_keeps n d a s hwf
  | .fneg n d a => execFneg_keeps n d a s hwf
  | .fcmp c p a b => execFcmp_keeps c p a b s hwf
  | .fclass n d a => execFclass_keeps n d a s hwf
  | .frcp n d a => execFrcp_keeps n d a s hwf
  | .frsq n d a => execFrsq_keeps n d a s hwf
  | .fexp2 n d a => execFexp2_keeps n d a s hwf
  | .flog2 n d a => execFlog2_keeps n d a s hwf
  | .fsin n d a => execFsin_keeps n d a s hwf
  | .fcos n d a => execFcos_keeps n d a s hwf
  | .dot2 n d a b => execDot2_keeps n d a b s hwf
  | .dot4 n d a b => execDot4_keeps n d a b s hwf
  | .dot8 n d a b => execDot8_keeps n d a b s hwf
  | .setmode e g => execSetmode_keeps e g s hwf
  | .getmode n d => execGetmode_keeps n d s hwf
  | .mfs n d r => execMfs_keeps n d r s hwf
  | .mts x imm => execMts_keeps x imm s hwf
  | .bra o j => execBra_keeps o j s hwf
  | .call o => execCall_keeps o s hwf
  | .join => execJoin_keeps s hwf
  | .brx x j => execBrx_keeps x j s hwf
  | .calli a => execCalli_keeps a s hwf
  | .ret => execRet_keeps s hwf
  | .exit => execExit_keeps s hwf
  | .ld n d k o imm => execLd_keeps n d k o imm s hwf
  | .st x k o imm => execSt_keeps x k o imm s hwf
  | .lds n d k o imm => execLds_keeps n d k o imm s hwf
  | .sts x k o imm => execSts_keeps x k o imm s hwf
  | .ldp n d k o imm => execLdp_keeps n d k o imm s hwf
  | .stp x k o imm => execStp_keeps x k o imm s hwf
  | .ldt n d k v h => execLdt_keeps n d k v h s hwf
  | .stt x k v h => execStt_keeps x k v h s hwf
  | .atomAdd n d k o c => execAtomAdd_keeps n d k o c s hwf
  | .atomMin n d k o c => execAtomMin_keeps n d k o c s hwf
  | .atomMax n d k o c => execAtomMax_keeps n d k o c s hwf
  | .atomAnd n d k o c => execAtomAnd_keeps n d k o c s hwf
  | .atomOr n d k o c => execAtomOr_keeps n d k o c s hwf
  | .atomXor n d k o c => execAtomXor_keeps n d k o c s hwf
  | .atomXchg n d k o c => execAtomXchg_keeps n d k o c s hwf
  | .atomCas n d k o c => execAtomCas_keeps n d k o c s hwf
  | .redAdd x k o c => execRedAdd_keeps x k o c s hwf
  | .redMin x k o c => execRedMin_keeps x k o c s hwf
  | .redMax x k o c => execRedMax_keeps x k o c s hwf
  | .redAnd x k o c => execRedAnd_keeps x k o c s hwf
  | .redOr x k o c => execRedOr_keeps x k o c s hwf
  | .redXor x k o c => execRedXor_keeps x k o c s hwf
  | .mma n d a b => execMma_keeps n d a b s hwf
  | .mmad n d a b => execMmad_keeps n d a b s hwf
  | .mmadg n d a b => execMmadg_keeps n d a b s hwf
  | .mmadw n d a b => execMmadw_keeps n d a b s hwf
  | .rast n d a b => execRast_keeps n d a b s hwf
  | .tex n d a b => execTex_keeps n d a b s hwf
  | .texg n d a b => execTexg_keeps n d a b s hwf
  | .rayq n d a b => execRayq_keeps n d a b s hwf
  | .trace n d a b => execTrace_keeps n d a b s hwf
  | .lupd d a b => execLupd_keeps d a b s hwf
  | .tbinit d a b => execTbinit_keeps d a b s hwf
  | .tbtest n d a b => execTbtest_keeps n d a b s hwf
  | .cvtF32F64 r a b => execCvtF32F64_keeps r a b s hwf
  | .cvtF64F32 r a b => execCvtF64F32_keeps r a b s hwf
  | .cvtF32H16 r a b => execCvtF32H16_keeps r a b s hwf
  | .cvtH16F32 r a b => execCvtH16F32_keeps r a b s hwf
  | .cvtF32W16 r a b => execCvtF32W16_keeps r a b s hwf
  | .cvtW16F32 r a b => execCvtW16F32_keeps r a b s hwf
  | .cvtF32S32 r a b => execCvtF32S32_keeps r a b s hwf
  | .cvtF32Z32 r a b => execCvtF32Z32_keeps r a b s hwf
  | .cvtS32F32 r a b => execCvtS32F32_keeps r a b s hwf
  | .cvtZ32F32 r a b => execCvtZ32F32_keeps r a b s hwf
  | .cvtF64S64 r a b => execCvtF64S64_keeps r a b s hwf
  | .cvtF64Z64 r a b => execCvtF64Z64_keeps r a b s hwf
  | .cvtS64F64 r a b => execCvtS64F64_keeps r a b s hwf
  | .cvtZ64F64 r a b => execCvtZ64F64_keeps r a b s hwf
  | .cvtF64S32 r a b => execCvtF64S32_keeps r a b s hwf
  | .cvtS32F64 r a b => execCvtS32F64_keeps r a b s hwf
  | .cvtF32S64 r a b => execCvtF32S64_keeps r a b s hwf
  | .cvtS64F32 r a b => execCvtS64F32_keeps r a b s hwf
  | .cvtQ8F32 r a b => execCvtQ8F32_keeps r a b s hwf
  | .cvtF32Q8 r a b => execCvtF32Q8_keeps r a b s hwf
  | .cvtQ6F32 r a b => execCvtQ6F32_keeps r a b s hwf
  | .cvtF32Q6 r a b => execCvtF32Q6_keeps r a b s hwf
  | .cvtQ4F32 r a b => execCvtQ4F32_keeps r a b s hwf
  | .cvtF32Q4 r a b => execCvtF32Q4_keeps r a b s hwf
  | .cvtS8S32 r a b => execCvtS8S32_keeps r a b s hwf
  | .cvtZ8Z32 r a b => execCvtZ8Z32_keeps r a b s hwf
  | .cvtS16S32 r a b => execCvtS16S32_keeps r a b s hwf
  | .cvtZ16Z32 r a b => execCvtZ16Z32_keeps r a b s hwf
  | .cvtS64S32 r a b => execCvtS64S32_keeps r a b s hwf
  | .cvtZ64Z32 r a b => execCvtZ64Z32_keeps r a b s hwf
  | .cvtS32S64 r a b => execCvtS32S64_keeps r a b s hwf
  | .cvtZ32Z64 r a b => execCvtZ32Z64_keeps r a b s hwf
  | .packH16 r a b => execPackH16_keeps r a b s hwf
  | .unpackH16 a b => execUnpackH16_keeps a b s hwf
  | .packW16 r a b => execPackW16_keeps r a b s hwf
  | .unpackW16 a b => execUnpackW16_keeps a b s hwf
  | .packQ8 r a b => execPackQ8_keeps r a b s hwf
  | .unpackQ8 a b => execUnpackQ8_keeps a b s hwf
  | .packQ6 r a b => execPackQ6_keeps r a b s hwf
  | .unpackQ6 a b => execUnpackQ6_keeps a b s hwf
  | .packQ4 r a b => execPackQ4_keeps r a b s hwf
  | .unpackQ4 a b => execUnpackQ4_keeps a b s hwf
  | .packS8 a b => execPackS8_keeps a b s hwf
  | .unpackS8 a b => execUnpackS8_keeps a b s hwf
  | .packZ8 a b => execPackZ8_keeps a b s hwf
  | .unpackZ8 a b => execUnpackZ8_keeps a b s hwf
  | .packS4 a b => execPackS4_keeps a b s hwf
  | .unpackS4 a b => execUnpackS4_keeps a b s hwf
  | .packZ4 a b => execPackZ4_keeps a b s hwf
  | .unpackZ4 a b => execUnpackZ4_keeps a b s hwf
  | .tcopy a => execTcopy_keeps a s hwf
  | .tcopys a => execTcopys_keeps a s hwf
  | .treduce a => execTreduce_keeps a s hwf
  | .bind a => execBind_keeps a s hwf
  | .unbind a => execUnbind_keeps a s hwf
  | .waitc c t => execWaitc_keeps c t s hwf
  | .tbexpect a b => execTbexpect_keeps a b s hwf
  | .tbarrive a => execTbarrive_keeps a s hwf
  | .tbwait a b => execTbwait_keeps a b s hwf
  | .bar c m => execBar_keeps c m s hwf
  | .gbar => execGbar_keeps s hwf
  | .backoff => execBackoff_keeps s hwf
  | .fence x => execFence_keeps x s hwf
  | .fenceRp x a => execFenceRp_keeps x a s hwf
  | .sptest d b => execSptest_keeps d b s hwf
  | .spcast c d b => execSpcast_keeps c d b s hwf
  | .spcastOff c d b => execSpcastOff_keeps c d b s hwf
  | .sysflush a b => execSysflush_keeps a b s hwf
  | .sysinv a b => execSysinv_keeps a b s hwf
  | .mldn a b => execMldn_keeps a b s hwf
  | .mldw a b => execMldw_keeps a b s hwf
  | .curve x b => execCurve_keeps x b s hwf
  | .bmap b => execBmap_keeps b s hwf
  | .dtest p a b => execDtest_keeps p a b s hwf
  | .blend o a b => execBlend_keeps o a b s hwf
  | .pstore l a b => execPstore_keeps l a b s hwf
  | .resid a => execResid_keeps a s hwf
  | .evpop d b => execEvpop_keeps d b s hwf
  | .svc w h l => execSvc_keeps w h l s hwf
  | .assert a => execAssert_keeps a s hwf
  | .trap c => execTrap_keeps c s hwf
  | .resume => execResume_keeps s hwf
  | .skip => execSkip_keeps s hwf
  | .brkpt => execBrkpt_keeps s hwf
  | .uisend d b => execUisend_keeps d b s hwf
  | .uiret => execUiret_keeps s hwf
  | .idemEnter => execIdemEnter_keeps s hwf
  | .idemLeave => execIdemLeave_keeps s hwf
  | .hold => execHold_keeps s hwf
  | .waitEnd tid role => execWaitEnd_keeps tid role s hwf
  | .loadReturn tid role status data => execLoadReturn_keeps tid role status data s hwf
  | .heldLoadComplete tid role => execHeldLoadComplete_keeps tid role s hwf
  | .storePerform die core idx => execStorePerform_keeps die core idx s hwf
  | .remotePerform tid role op => execRemotePerform_keeps tid role op s hwf
  | .matrixWriteback tid role => execMatrixWriteback_keeps tid role s hwf
  | .fmtEmuComplete tid role => execFmtEmuComplete_keeps tid role s hwf
  | .walkComplete die core ctx va => execWalkComplete_keeps die core ctx va s hwf
  | .demandMapComplete ctx va => execDemandMapComplete_keeps ctx va s hwf
  | .frameGrant die slice frames => execFrameGrant_keeps die slice frames s hwf
  | .migrationComplete ctx va data => execMigrationComplete_keeps ctx va data s hwf
  | .hostMigrationRequest ctx va => execHostMigrationRequest_keeps ctx va s hwf
  | .throttleExpiry ctx va => execThrottleExpiry_keeps ctx va s hwf
  | .sideLogReplay ctx va => execSideLogReplay_keeps ctx va s hwf
  | .cacheEviction kind die unit line => execCacheEviction_keeps kind die unit line s hwf
  | .sysCacheOpComplete tid role op => execSysCacheOpComplete_keeps tid role op s hwf
  | .atomicopCompletion tid role status old => execAtomicopCompletion_keeps tid role status old s hwf
  | .epochClose lid => execEpochClose_keeps lid s hwf
  | .dmrCompare tid role => execDmrCompare_keeps tid role s hwf
  | .copyStart die core => execCopyStart_keeps die core s hwf
  | .sectorLanding die core copy n => execSectorLanding_keeps die core copy n s hwf
  | .copyPause die core copy => execCopyPause_keeps die core copy s hwf
  | .copyResume die core copy => execCopyResume_keeps die core copy s hwf
  | .copyStop die core copy cause => execCopyStop_keeps die core copy cause s hwf
  | .treduceComplete lid gang => execTreduceComplete_keeps lid gang s hwf
  | .oculusCompare die core => execOculusCompare_keeps die core s hwf
  | .gangDieArrival lid gang die => execGangDieArrival_keeps lid gang die s hwf
  | .lanternExec die core idx => execLanternExec_keeps die core idx s hwf
  | .uiDelivery ctx => execUiDelivery_keeps ctx s hwf
  | .alarmExpiry tid role => execAlarmExpiry_keeps tid role s hwf
  | .alarmTrap tid role => execAlarmTrap_keeps tid role s hwf
  | .breakpointMatch tid role => execBreakpointMatch_keeps tid role s hwf
  | .stepHold tid role => execStepHold_keeps tid role s hwf
  | .latchIdleInvalidate die core port => execLatchIdleInvalidate_keeps die core port s hwf
  | .aging tid role => execAging_keeps tid role s hwf
  | .backoffDecay tid role => execBackoffDecay_keeps tid role s hwf
  | .backoffDelayEnd tid role => execBackoffDelayEnd_keeps tid role s hwf
  | .resumeClassExpiry tid role => execResumeClassExpiry_keeps tid role s hwf
  | .demandParkEligible tid role => execDemandParkEligible_keeps tid role s hwf
  | .demandPark die core => execDemandPark_keeps die core s hwf
  | .imageDrainComplete tid => execImageDrainComplete_keeps tid s hwf
  | .teamRestore die core => execTeamRestore_keeps die core s hwf
  | .shadowFillComplete die core ctx => execShadowFillComplete_keeps die core ctx s hwf
  | .bankSwap die core => execBankSwap_keeps die core s hwf
  | .preemptRequest die core => execPreemptRequest_keeps die core s hwf
  | .preemptSafePoint die core => execPreemptSafePoint_keeps die core s hwf
  | .contextWake die => execContextWake_keeps die s hwf
  | .packetRead part err => execPacketRead_keeps part err s hwf
  | .teamPlace lid => execTeamPlace_keeps lid s hwf
  | .launchComplete lid => execLaunchComplete_keeps lid s hwf
  | .completionWordWrite lid => execCompletionWordWrite_keeps lid s hwf
  | .svcDeferredPost tid role => execSvcDeferredPost_keeps tid role s hwf
  | .serviceRequestServe die slice seq host => execServiceRequestServe_keeps die slice seq host s hwf
  | .cupolaDoorbell die => execCupolaDoorbell_keeps die s hwf
  | .cupolaRound die idx peer => execCupolaRound_keeps die idx peer s hwf
  | .launchQueueDoorbell q v => execLaunchQueueDoorbell_keeps q v s hwf
  | .qctlWrite q v => execQctlWrite_keeps q v s hwf
  | .invgo v => execInvgo_keeps v s hwf
  | .invalidationComplete => execInvalidationComplete_keeps s hwf
  | .chalt die v => execChalt_keeps die v s hwf
  | .contextEnable ctx => execContextEnable_keeps ctx s hwf
  | .contextEndRequest ctx => execContextEndRequest_keeps ctx s hwf
  | .loghead ctx v => execLoghead_keeps ctx v s hwf
  | .doorbellSend page v => execDoorbellSend_keeps page v s hwf
  | .peerSendReceive peer ctx vec pay => execPeerSendReceive_keeps peer ctx vec pay s hwf
  | .debugHold ctx => execDebugHold_keeps ctx s hwf
  | .debugRelease ctx => execDebugRelease_keeps ctx s hwf
  | .debugHoldAll ctx => execDebugHoldAll_keeps ctx s hwf
  | .debugWindowWrite ctx off v => execDebugWindowWrite_keeps ctx off v s hwf
  | .registerWrite bar off size v => execRegisterWrite_keeps bar off size v s hwf
  | .atsInvalidationRequest page => execAtsInvalidationRequest_keeps page s hwf
  | .pageRequestResponse ctx va ok => execPageRequestResponse_keeps ctx va ok s hwf
  | .inboundAtomicop => execInboundAtomicop_keeps s hwf
  | .firmwareRecovery len => execFirmwareRecovery_keeps len s hwf
  | .powerGood => execPowerGood_keeps s hwf
  | .stage1Complete header body trained => execStage1Complete_keeps header body trained s hwf
  | .stage2Complete cxl ports peers => execStage2Complete_keeps cxl ports peers s hwf
  | .clockStep up => execClockStep_keeps up s hwf
  | .hotSpot105 => execHotSpot105_keeps s hwf
  | .hotSpot115 => execHotSpot115_keeps s hwf
  | .cxlPortFailure port => execCxlPortFailure_keeps port s hwf
  | .serviceInstanceFailure die slice => execServiceInstanceFailure_keeps die slice s hwf
  | .eccCorrected array => execEccCorrected_keeps array s hwf
  | .eccImageError ctx => execEccImageError_keeps ctx s hwf
  | .stage0Complete => execStage0Complete_keeps s hwf
  | .completionTimeout tid role => execCompletionTimeout_keeps tid role s hwf
  | .hostRuntimeServiceReply die slice seq reply => execHostRuntimeServiceReply_keeps die slice seq reply s hwf
  | .sendStatusReturn tid role status => execSendStatusReturn_keeps tid role status s hwf
  | .partitionChange part cells => execPartitionChange_keeps part cells s hwf
  | .doorbellPageBind page token => execDoorbellPageBind_keeps page token s hwf
  | .dieScratchpadBlockGive die block ctx => execDieScratchpadBlockGive_keeps die block ctx s hwf

end Sys2Proof.Machine
end

