-- ==== Sys2Proof/Laws/Operands.lean ====
section
/-!
SUPPORT. What the writing of results does to a thread: which registers, predicates and flags change, and that the latches never touch
them.
-/

namespace Sys2Proof.Machine

namespace Thread

/-- A thread that differs from another in its latches alone. -/
def SameButLatches (a b : Thread) : Prop := ∃ ls, a = { b with latches := ls }

theorem SameButLatches.refl (a : Thread) : SameButLatches a a := ⟨a.latches, rfl⟩

theorem SameButLatches.trans {a b c : Thread} (h : SameButLatches a b) (g : SameButLatches b c) : SameButLatches a c := by
  obtain ⟨x, rfl⟩ := h
  obtain ⟨y, rfl⟩ := g
  exact ⟨x, rfl⟩

theorem SameButLatches.foldl {α : Type} (f : Thread → α → Thread) (hf : ∀ t x, SameButLatches (f t x) t) (l : List α) (t : Thread) :
    SameButLatches (l.foldl f t) t := by
  induction l generalizing t with
  | nil => exact .refl t
  | cons x r ih => exact (ih _).trans (hf t x)

theorem unrec_same (th : Thread) (g : Nat) (x : Sel) (c : Nat) : SameButLatches (th.unrec g x c) th := ⟨_, rfl⟩
theorem pushLatch_same (th : Thread) (g : Nat) (b : Latch) : SameButLatches (th.pushLatch g b) th := ⟨_, rfl⟩
theorem killLatches_same (th : Thread) : SameButLatches th.killLatches th := ⟨_, rfl⟩

/-- A pass moves latches and nothing else (R66). -/
theorem latchPass_same (th : Thread) (n w : Bool) (path act : Mask) (d : Sel) (f : Nat → DWord) :
    SameButLatches (th.latchPass n w path act d f) th :=
  SameButLatches.foldl _ (fun t g => pushLatch_same t g _) _ _

theorem vreg_of_same {a b : Thread} (h : SameButLatches a b) (l x : Nat) : a.vreg l x = b.vreg l x := by obtain ⟨_, rfl⟩ := h; rfl
theorem kreg_of_same {a b : Thread} (h : SameButLatches a b) (x : Nat) : a.kreg x = b.kreg x := by obtain ⟨_, rfl⟩ := h; rfl
theorem pred_of_same {a b : Thread} (h : SameButLatches a b) (l p : Nat) : a.pred l p = b.pred l p := by obtain ⟨_, rfl⟩ := h; rfl

/-- Register `x` of lane `l` after one register is written. -/
theorem vreg_setV (th : Thread) (l n l' x : Nat) (w : Word) (hn : n < 256) (hx : x < 256) :
    (th.setV l n w).vreg l' x = if l' = l ∧ x = n then w else th.vreg l' x := by
  unfold vreg setV
  rw [tget_tset]
  by_cases h : l' = l ∧ x = n
  · rw [if_pos h, if_pos (by omega)]
  · rw [if_neg h, if_neg (by omega)]

theorem kreg_setK (th : Thread) (n x : Nat) (w : Word) : (th.setK n w).kreg x = if x = n then w else th.kreg x := tget_tset _ _ _ _ _

/-- Predicate `q` of lane `l'` after one is written: p7 discards writes and reads 1 (R57). -/
theorem pred_setP (th : Thread) (l p l' q : Nat) (b : Bool) (hp : p < 8) (hq : q < 8) :
    (th.setP l p b).pred l' q = if l' = l ∧ q = p ∧ p ≠ 7 then b else th.pred l' q := by
  unfold setP
  by_cases h7 : p = 7
  · rw [if_pos h7, if_neg (fun h => h.2.2 h7)]
  · rw [if_neg h7]
    unfold pred
    by_cases hq7 : q = 7
    · rw [if_pos hq7, if_neg (by omega), if_pos hq7]
    · rw [if_neg hq7, tget_tset]
      by_cases h : l' = l ∧ q = p
      · rw [if_pos (by omega), if_pos ⟨h.1, h.2, h7⟩]
      · rw [if_neg (by omega), if_neg (fun g => h ⟨g.1, g.2.1⟩), if_neg hq7]

/-- Every lane of a list has its predicate written; no other changes. -/
theorem pred_putPred (th : Thread) (act : Mask) (p : Nat) (f : Nat → Bool) (l q : Nat) (hp : p < 8) (hq : q < 8) :
    (th.putPred act p f).pred l q = if l ∈ th.lanes act ∧ q = p ∧ p ≠ 7 then f l else th.pred l q := by
  unfold putPred
  generalize th.lanes act = ls
  induction ls generalizing th with
  | nil => simp
  | cons x r ih =>
    rw [List.foldl_cons, ih, pred_setP _ _ _ _ _ _ hp hq]
    by_cases hr : l ∈ r ∧ q = p ∧ p ≠ 7
    · rw [if_pos hr, if_pos ⟨List.mem_cons_of_mem _ hr.1, hr.2⟩]
    · rw [if_neg hr]
      by_cases hx : l = x ∧ q = p ∧ p ≠ 7
      · rw [if_pos hx, if_pos ⟨hx.1 ▸ List.mem_cons_self, hx.2⟩, hx.1]
      · rw [if_neg hx, if_neg]
        rintro ⟨hm, h2⟩
        rcases List.mem_cons.1 hm with h | h
        · exact hx ⟨h, h2⟩
        · exact hr ⟨h, h2⟩

end Thread

end Sys2Proof.Machine
end

