-- ==== Sys2Proof/Tests/Slice0.lean ====
section
/-!
SUPPORT. Tests: ill-formed operands refused, words written out from the spec's encodings, single steps with results worked out from the
rules, and for every statement with hypotheses a concrete state and operands that meet them.
-/

set_option maxRecDepth 100000
set_option Elab.async false

namespace Sys2Proof.Tests

open Sys2Proof Sys2Proof.Machine Sys2Proof.Claims

/-! ## Well-formedness: what each check refuses, beside what stands at its edge (R58, R200 to R211) -/

/-- `zero` may be a destination and `lane` may not; 0xF6 may be a source and 0xF7 may not. -/
theorem test_wf_selectors :
    [Instr.iadd false 0xF5 0 0, .iadd false 0 0xF7 0, .iadd false 0 0 0xF7, .iabs false 0xF0 0, .addi false 0xF6 0, .movp false 0xFF,
     .sptest 0xF5 0, .uisend 0xF0 0xC0, .st 0xF7 0 0 0, .mov false 0xF1 0].all (fun i => !i.wellFormed) = true ∧
    [Instr.iadd false 0xF4 0xF6 0xF6, .iadd false 0xEF 0 0, .movp false 0xBF].all Instr.wellFormed = true := by decide +kernel

/-- Pairs are even (R58, R282). -/
theorem test_wf_pairs :
    [Instr.lea false 1 0 0, .lea false 0 1 0, .cvtF32F64 0 0 1, .cvtF64F32 0 1 0, .cvtS64F64 0 2 1, .cvtF32S64 0 0 1, .cvtS64F32 0 1 0, .cvtS64S32 0 1 0,
     .cvtS32S64 0 0 1, .mfs false 1 0x00, .mts 1 0x02, .mts 1 0x10, .brx 1 0, .calli 1, .sptest 0 1, .spcast 0 1 0, .spcastOff 0 0 1].all
      (fun i => i == .mts 1 0x02 || !i.wellFormed) = true ∧
    [Instr.lea false 0xEE 0xBE 0, .mts 1 0x02, .spcast 4 0xF4 1].all Instr.wellFormed = true := by decide +kernel

/-- Codes of conditions, operations, scopes, classes and counters that name nothing. -/
theorem test_wf_codes :
    [Instr.icmp 6 0 0 0, .fcmp 7 0 0 0, .vote 3 0 0, .plop 3 0 0 0, .fence 6, .fenceRp 6 0xC0, .atomAdd false 0 0 0 6, .redAdd 0 0 0 7, .waitc 5 0,
     .bar 4 1, .spcast 5 0 0, .spcastOff 5 0 0, .blend 4 0 0xC0, .pstore 4 0 0xC0, .dtest 7 0 0xC0, .ldt false 0 0 0 3, .stt 0 0 0 3].all
      (fun i => !i.wellFormed) = true ∧
    [Instr.icmp 5 7 0 0, .fcmp 6 0 0 0, .vote 2 0 0, .plop 2 0 0 0, .fence 5, .waitc 4 63, .bar 3 15, .spcast 4 0 0, .blend 3 0 0xC0, .dtest 6 0 0xC0,
     .ldt false 0 0 0 2].all Instr.wellFormed = true := by decide +kernel

/-- Predicate operands above 15, base pairs above k46, reserved system registers, overrides of integer conversions. -/
theorem test_wf_fields :
    [Instr.ballot false 0 16, .vote 0 0 16, .plop 0 0 16 0, .plop 0 0 0 16, .ld false 0 24 0 0, .st 0 24 0 0, .ldt false 0 24 0 0, .stt 0 24 0 0, .ldt false 0 0 0xC0 0,
     .atomCas false 0 24 0 0, .redAdd 0 24 0 0, .mfs false 0 5, .mfs false 0 0x67, .mts 0 5, .mts 0 0x100, .cvtS8S32 1 0 0, .cvtZ16Z32 2 0 0,
     .cvtS64S32 3 0 0].all (fun i => !i.wellFormed) = true ∧
    [Instr.ballot false 0 15, .ld false 0 23 0 0, .mfs false 0 0x66, .mts 0 0xFF, .cvtS8S32 0 0 0].all Instr.wellFormed = true := by decide +kernel

/-- Runs leave their file, or mix files, or a uniform operand is none or misaligned. -/
theorem test_wf_runs :
    [Instr.mma false 161 0 0xC0, .mmad false 161 0 0, .mmadg false 0 161 0, .mmadw false 0 153 0, .mma false 0 0 0xF0, .rast false 186 0xC0 0xC0,
     .rast false 0 0xC2 0xC0, .rast false 0 0xE8 0xC0, .rast false 0 0xC0 0, .tex false 189 0 0xC0, .tex false 0 187 0xC0, .texg false 0 189 0xC0,
     .rayq false 0 185 0xC0, .rayq false 0 0 0xC1, .trace false 0 184 0xC0, .trace false 0 0 0xC2, .lupd 0 0xC1 0, .tbinit 0 0 0, .tbtest false 0 0 0,
     .packH16 0 0 191, .packQ4 0 0 0xE9, .packS8 0 189, .unpackQ4 185 0, .unpackZ4 0xE9 0, .unpackH16 0xBF 0, .atomCas false 1 0 0 0,
     .atomCas false 0xF4 0 0 0, .dtest 0 189 0xC0, .evpop 189 0xC0, .evpop 0 0].all (fun i => !i.wellFormed) = true ∧
    [Instr.mma false 160 0 0xC0, .mmadw false 0 152 0, .rast false 185 0xE4 0xC0, .packQ4 0 0 0xE8, .unpackQ4 184 0, .evpop 188 0xEF].all Instr.wellFormed = true := by
  decide +kernel

/-- Uniform operands of the control forms: k registers at multiples of 8, 4 and 2. -/
theorem test_wf_uniform_operands :
    [Instr.tcopy 0xC4, .tcopys 0xC1, .treduce 0, .bind 0xC2, .resid 0xC1, .unbind 0xF0, .tbarrive 0, .tbexpect 0 0, .tbwait 0xF4 0, .fenceRp 0 0xC1,
     .sysflush 0xC1 0xC0, .sysinv 0xC0 0, .mldn 0xC0 0xC0, .mldw 0 0, .curve 0 0, .bmap 0xF4, .assert 0xC1, .uisend 0 0xC2].all (fun i => !i.wellFormed) = true ∧
    [Instr.tcopy 0xE8, .bind 0xEC, .assert 0xEE, .uisend 0 0xEC, .bmap 0xEF].all Instr.wellFormed = true := by decide +kernel

/-! ## Words, put together field by field from the formats, majors and minors of the spec (R200, R207, R209 to R211), and decoded -/

/-- R199, R200, R207, R209 to R211: a word of each constructor, field by field: integer, logic and move forms. -/
theorem test_words_integer :
    decode (0x1#7 ++ 0x1#1 ++ 0x24#8 ++ 0x46#8 ++ 0x6A#8) = .ok (.iadd true 0x24 0x46 0x6a) ∧
    decode (0x2#7 ++ 0x1#1 ++ 0x24#8 ++ 0x46#8 ++ 0x6A#8) = .ok (.isub true 0x24 0x46 0x6a) ∧
    decode (0x3#7 ++ 0x1#1 ++ 0x24#8 ++ 0x46#8 ++ 0x6A#8) = .ok (.imul true 0x24 0x46 0x6a) ∧
    decode (0x4#7 ++ 0x1#1 ++ 0x24#8 ++ 0x46#8 ++ 0x6A#8) = .ok (.imulh true 0x24 0x46 0x6a) ∧
    decode (0x5#7 ++ 0x1#1 ++ 0x24#8 ++ 0x46#8 ++ 0x6A#8) = .ok (.imad true 0x24 0x46 0x6a) ∧
    decode (0x6#7 ++ 0x1#1 ++ 0x24#8 ++ 0x46#8 ++ 0x6A#8) = .ok (.imin true 0x24 0x46 0x6a) ∧
    decode (0x7#7 ++ 0x1#1 ++ 0x24#8 ++ 0x46#8 ++ 0x6A#8) = .ok (.imax true 0x24 0x46 0x6a) ∧
    decode (0x8#7 ++ 0x1#1 ++ 0x24#8 ++ 0x46#8 ++ 0x0#8) = .ok (.iabs true 0x24 0x46) ∧
    decode (0x9#7 ++ 0x0#3 ++ 0x2#3 ++ 0x5#3 ++ 0x46#8 ++ 0x6A#8) = .ok (.icmp 0x2 0x5 0x46 0x6a) ∧
    decode (0xA#7 ++ 0x1#1 ++ 0x24#8 ++ 0x46#8 ++ 0x6A#8) = .ok (.lea true 0x24 0x46 0x6a) ∧
    decode (0xB#7 ++ 0x1#1 ++ 0x24#8 ++ 0x9234#16) = .ok (.addi true 0x24 0x9234) ∧
    decode (0xC#7 ++ 0x1#1 ++ 0x24#8 ++ 0x9234#16) = .ok (.movi true 0x24 0x9234) ∧
    decode (0xD#7 ++ 0x1#1 ++ 0x24#8 ++ 0x9234#16) = .ok (.movhi true 0x24 0x9234) ∧
    decode (0x10#7 ++ 0x1#1 ++ 0x24#8 ++ 0x46#8 ++ 0x6A#8) = .ok (.and true 0x24 0x46 0x6a) ∧
    decode (0x11#7 ++ 0x1#1 ++ 0x24#8 ++ 0x46#8 ++ 0x6A#8) = .ok (.or true 0x24 0x46 0x6a) ∧
    decode (0x12#7 ++ 0x1#1 ++ 0x24#8 ++ 0x46#8 ++ 0x6A#8) = .ok (.xor true 0x24 0x46 0x6a) ∧
    decode (0x13#7 ++ 0x1#1 ++ 0x24#8 ++ 0x46#8 ++ 0x0#8) = .ok (.not true 0x24 0x46) ∧
    decode (0x14#7 ++ 0x1#1 ++ 0x24#8 ++ 0x46#8 ++ 0x6A#8) = .ok (.shl true 0x24 0x46 0x6a) ∧
    decode (0x15#7 ++ 0x1#1 ++ 0x24#8 ++ 0x46#8 ++ 0x6A#8) = .ok (.shr true 0x24 0x46 0x6a) ∧
    decode (0x16#7 ++ 0x1#1 ++ 0x24#8 ++ 0x46#8 ++ 0x0#8) = .ok (.popc true 0x24 0x46) ∧
    decode (0x17#7 ++ 0x1#1 ++ 0x24#8 ++ 0x46#8 ++ 0x0#8) = .ok (.clz true 0x24 0x46) ∧
    decode (0x18#7 ++ 0x1#1 ++ 0x24#8 ++ 0x46#8 ++ 0x0#8) = .ok (.mov true 0x24 0x46) ∧
    decode (0x19#7 ++ 0x1#1 ++ 0x24#8 ++ 0x46#8 ++ 0x6A#8) = .ok (.rdlane true 0x24 0x46 0x6a) ∧
    decode (0x1A#7 ++ 0x1#1 ++ 0x24#8 ++ 0x46#8 ++ 0x6A#8) = .ok (.shfl true 0x24 0x46 0x6a) ∧
    decode (0x1B#7 ++ 0x1#1 ++ 0x24#8 ++ 0x46#8 ++ 0x6A#8) = .ok (.shflx true 0x24 0x46 0x6a) ∧
    decode (0x1C#7 ++ 0x1#1 ++ 0x24#8 ++ 0x46#8 ++ 0x0#8) = .ok (.ballot true 0x24 0x46) ∧
    decode (0x1D#7 ++ 0x0#4 ++ 0x1#2 ++ 0x5#3 ++ 0x46#8 ++ 0x0#8) = .ok (.vote 0x1 0x5 0x46) ∧
    decode (0x1E#7 ++ 0x0#4 ++ 0x1#2 ++ 0x5#3 ++ 0x46#8 ++ 0x6A#8) = .ok (.plop 0x1 0x5 0x46 0x6a) := by
  and_intros <;> rfl

/-- R199, R200, R207, R209 to R211: a word of each constructor, field by field: predicates, floats and modes. -/
theorem test_words_lanes_floats :
    decode (0x1F#7 ++ 0x1#1 ++ 0x24#8 ++ 0x0#16) = .ok (.movp true 0x24) ∧
    decode (0x20#7 ++ 0x1#1 ++ 0x24#8 ++ 0x46#8 ++ 0x6A#8) = .ok (.fadd true 0x24 0x46 0x6a) ∧
    decode (0x21#7 ++ 0x1#1 ++ 0x24#8 ++ 0x46#8 ++ 0x6A#8) = .ok (.fsub true 0x24 0x46 0x6a) ∧
    decode (0x22#7 ++ 0x1#1 ++ 0x24#8 ++ 0x46#8 ++ 0x6A#8) = .ok (.fmul true 0x24 0x46 0x6a) ∧
    decode (0x23#7 ++ 0x1#1 ++ 0x24#8 ++ 0x46#8 ++ 0x6A#8) = .ok (.ffma true 0x24 0x46 0x6a) ∧
    decode (0x24#7 ++ 0x1#1 ++ 0x24#8 ++ 0x46#8 ++ 0x6A#8) = .ok (.fdiv true 0x24 0x46 0x6a) ∧
    decode (0x25#7 ++ 0x1#1 ++ 0x24#8 ++ 0x46#8 ++ 0x0#8) = .ok (.fsqrt true 0x24 0x46) ∧
    decode (0x26#7 ++ 0x1#1 ++ 0x24#8 ++ 0x46#8 ++ 0x6A#8) = .ok (.fmin true 0x24 0x46 0x6a) ∧
    decode (0x27#7 ++ 0x1#1 ++ 0x24#8 ++ 0x46#8 ++ 0x6A#8) = .ok (.fmax true 0x24 0x46 0x6a) ∧
    decode (0x28#7 ++ 0x1#1 ++ 0x24#8 ++ 0x46#8 ++ 0x0#8) = .ok (.fabs true 0x24 0x46) ∧
    decode (0x29#7 ++ 0x1#1 ++ 0x24#8 ++ 0x46#8 ++ 0x0#8) = .ok (.fneg true 0x24 0x46) ∧
    decode (0x2A#7 ++ 0x0#3 ++ 0x2#3 ++ 0x5#3 ++ 0x46#8 ++ 0x6A#8) = .ok (.fcmp 0x2 0x5 0x46 0x6a) ∧
    decode (0x2B#7 ++ 0x1#1 ++ 0x24#8 ++ 0x46#8 ++ 0x0#8) = .ok (.fclass true 0x24 0x46) ∧
    decode (0x2C#7 ++ 0x1#1 ++ 0x24#8 ++ 0x46#8 ++ 0x0#8) = .ok (.frcp true 0x24 0x46) ∧
    decode (0x2D#7 ++ 0x1#1 ++ 0x24#8 ++ 0x46#8 ++ 0x0#8) = .ok (.frsq true 0x24 0x46) ∧
    decode (0x2E#7 ++ 0x1#1 ++ 0x24#8 ++ 0x46#8 ++ 0x0#8) = .ok (.fexp2 true 0x24 0x46) ∧
    decode (0x2F#7 ++ 0x1#1 ++ 0x24#8 ++ 0x46#8 ++ 0x0#8) = .ok (.flog2 true 0x24 0x46) ∧
    decode (0x30#7 ++ 0x1#1 ++ 0x24#8 ++ 0x46#8 ++ 0x0#8) = .ok (.fsin true 0x24 0x46) ∧
    decode (0x31#7 ++ 0x1#1 ++ 0x24#8 ++ 0x46#8 ++ 0x0#8) = .ok (.fcos true 0x24 0x46) ∧
    decode (0x32#7 ++ 0x1#1 ++ 0x24#8 ++ 0x46#8 ++ 0x6A#8) = .ok (.dot2 true 0x24 0x46 0x6a) ∧
    decode (0x33#7 ++ 0x1#1 ++ 0x24#8 ++ 0x46#8 ++ 0x6A#8) = .ok (.dot4 true 0x24 0x46 0x6a) ∧
    decode (0x34#7 ++ 0x1#1 ++ 0x24#8 ++ 0x46#8 ++ 0x6A#8) = .ok (.dot8 true 0x24 0x46 0x6a) ∧
    decode (0x35#7 ++ 0x0#5 ++ 0xA#4 ++ 0x5678#16) = .ok (.setmode 0xa 0x5678) ∧
    decode (0x36#7 ++ 0x1#1 ++ 0x24#8 ++ 0x0#16) = .ok (.getmode true 0x24) ∧
    decode (0x37#7 ++ 0x1#1 ++ 0x24#8 ++ 0x0#8 ++ 0x1B#8) = .ok (.mfs true 0x24 0x1b) ∧
    decode (0x38#7 ++ 0x0#1 ++ 0x2C#8 ++ 0x9234#16) = .ok (.mts 0x2c 0x9234) := by
  and_intros <;> rfl

/-- R199, R200, R207, R209 to R211: a word of each constructor, field by field: branches, loads and stores. -/
theorem test_words_control_loads :
    decode (0x40#7 ++ 0x3155#14 ++ 0x743#11) = .ok (.bra 0x3155 0x743) ∧
    decode (0x41#7 ++ 0x3155#25) = .ok (.call 0x3155) ∧
    decode (0x42#7 ++ 0x0#25) = .ok (.join) ∧
    decode (0x43#7 ++ 0x0#1 ++ 0x2C#8 ++ 0x8743#16) = .ok (.brx 0x2c 0x8743) ∧
    decode (0x44#7 ++ 0x0#9 ++ 0x46#8 ++ 0x0#8) = .ok (.calli 0x46) ∧
    decode (0x45#7 ++ 0x0#25) = .ok (.ret) ∧
    decode (0x46#7 ++ 0x0#25) = .ok (.exit) ∧
    decode (0x50#7 ++ 0x1#1 ++ 0x24#8 ++ 0xD#5 ++ 0x55#8 ++ 0x4#3) = .ok (.ld true 0x24 0xd 0x55 0x4) ∧
    decode (0x51#7 ++ 0x0#1 ++ 0x2C#8 ++ 0xD#5 ++ 0x55#8 ++ 0x4#3) = .ok (.st 0x2c 0xd 0x55 0x4) ∧
    decode (0x52#7 ++ 0x1#1 ++ 0x24#8 ++ 0xD#5 ++ 0x55#8 ++ 0x4#3) = .ok (.lds true 0x24 0xd 0x55 0x4) ∧
    decode (0x53#7 ++ 0x0#1 ++ 0x2C#8 ++ 0xD#5 ++ 0x55#8 ++ 0x4#3) = .ok (.sts 0x2c 0xd 0x55 0x4) ∧
    decode (0x54#7 ++ 0x1#1 ++ 0x24#8 ++ 0xD#5 ++ 0x55#8 ++ 0x4#3) = .ok (.ldp true 0x24 0xd 0x55 0x4) ∧
    decode (0x55#7 ++ 0x0#1 ++ 0x2C#8 ++ 0xD#5 ++ 0x55#8 ++ 0x4#3) = .ok (.stp 0x2c 0xd 0x55 0x4) ∧
    decode (0x56#7 ++ 0x1#1 ++ 0x24#8 ++ 0xD#5 ++ 0x7A#8 ++ 0x1#3) = .ok (.ldt true 0x24 0xd 0x7a 0x1) ∧
    decode (0x57#7 ++ 0x0#1 ++ 0x2C#8 ++ 0xD#5 ++ 0x7A#8 ++ 0x1#3) = .ok (.stt 0x2c 0xd 0x7a 0x1) := by
  and_intros <;> rfl

/-- R199, R200, R207, R209 to R211: a word of each constructor, field by field: atomics, matrix, sampling. -/
theorem test_words_atomics_arrays :
    decode (0x60#7 ++ 0x1#1 ++ 0x24#8 ++ 0xD#5 ++ 0x55#8 ++ 0x2#3) = .ok (.atomAdd true 0x24 0xd 0x55 0x2) ∧
    decode (0x61#7 ++ 0x1#1 ++ 0x24#8 ++ 0xD#5 ++ 0x55#8 ++ 0x2#3) = .ok (.atomMin true 0x24 0xd 0x55 0x2) ∧
    decode (0x62#7 ++ 0x1#1 ++ 0x24#8 ++ 0xD#5 ++ 0x55#8 ++ 0x2#3) = .ok (.atomMax true 0x24 0xd 0x55 0x2) ∧
    decode (0x63#7 ++ 0x1#1 ++ 0x24#8 ++ 0xD#5 ++ 0x55#8 ++ 0x2#3) = .ok (.atomAnd true 0x24 0xd 0x55 0x2) ∧
    decode (0x64#7 ++ 0x1#1 ++ 0x24#8 ++ 0xD#5 ++ 0x55#8 ++ 0x2#3) = .ok (.atomOr true 0x24 0xd 0x55 0x2) ∧
    decode (0x65#7 ++ 0x1#1 ++ 0x24#8 ++ 0xD#5 ++ 0x55#8 ++ 0x2#3) = .ok (.atomXor true 0x24 0xd 0x55 0x2) ∧
    decode (0x66#7 ++ 0x1#1 ++ 0x24#8 ++ 0xD#5 ++ 0x55#8 ++ 0x2#3) = .ok (.atomXchg true 0x24 0xd 0x55 0x2) ∧
    decode (0x67#7 ++ 0x1#1 ++ 0x24#8 ++ 0xD#5 ++ 0x55#8 ++ 0x2#3) = .ok (.atomCas true 0x24 0xd 0x55 0x2) ∧
    decode (0x68#7 ++ 0x0#1 ++ 0x2C#8 ++ 0xD#5 ++ 0x55#8 ++ 0x2#3) = .ok (.redAdd 0x2c 0xd 0x55 0x2) ∧
    decode (0x69#7 ++ 0x0#1 ++ 0x2C#8 ++ 0xD#5 ++ 0x55#8 ++ 0x2#3) = .ok (.redMin 0x2c 0xd 0x55 0x2) ∧
    decode (0x6A#7 ++ 0x0#1 ++ 0x2C#8 ++ 0xD#5 ++ 0x55#8 ++ 0x2#3) = .ok (.redMax 0x2c 0xd 0x55 0x2) ∧
    decode (0x6B#7 ++ 0x0#1 ++ 0x2C#8 ++ 0xD#5 ++ 0x55#8 ++ 0x2#3) = .ok (.redAnd 0x2c 0xd 0x55 0x2) ∧
    decode (0x6C#7 ++ 0x0#1 ++ 0x2C#8 ++ 0xD#5 ++ 0x55#8 ++ 0x2#3) = .ok (.redOr 0x2c 0xd 0x55 0x2) ∧
    decode (0x6D#7 ++ 0x0#1 ++ 0x2C#8 ++ 0xD#5 ++ 0x55#8 ++ 0x2#3) = .ok (.redXor 0x2c 0xd 0x55 0x2) ∧
    decode (0x70#7 ++ 0x1#1 ++ 0x24#8 ++ 0x46#8 ++ 0x6A#8) = .ok (.mma true 0x24 0x46 0x6a) ∧
    decode (0x71#7 ++ 0x1#1 ++ 0x24#8 ++ 0x46#8 ++ 0x6A#8) = .ok (.mmad true 0x24 0x46 0x6a) ∧
    decode (0x72#7 ++ 0x1#1 ++ 0x24#8 ++ 0x46#8 ++ 0x6A#8) = .ok (.mmadg true 0x24 0x46 0x6a) ∧
    decode (0x73#7 ++ 0x1#1 ++ 0x24#8 ++ 0x46#8 ++ 0x6A#8) = .ok (.mmadw true 0x24 0x46 0x6a) ∧
    decode (0x74#7 ++ 0x1#1 ++ 0x24#8 ++ 0x46#8 ++ 0x6A#8) = .ok (.rast true 0x24 0x46 0x6a) ∧
    decode (0x75#7 ++ 0x1#1 ++ 0x24#8 ++ 0x46#8 ++ 0x6A#8) = .ok (.tex true 0x24 0x46 0x6a) ∧
    decode (0x76#7 ++ 0x1#1 ++ 0x24#8 ++ 0x46#8 ++ 0x6A#8) = .ok (.texg true 0x24 0x46 0x6a) ∧
    decode (0x77#7 ++ 0x1#1 ++ 0x24#8 ++ 0x46#8 ++ 0x6A#8) = .ok (.rayq true 0x24 0x46 0x6a) ∧
    decode (0x78#7 ++ 0x1#1 ++ 0x24#8 ++ 0x46#8 ++ 0x6A#8) = .ok (.trace true 0x24 0x46 0x6a) ∧
    decode (0x79#7 ++ 0x0#1 ++ 0x24#8 ++ 0x46#8 ++ 0x6A#8) = .ok (.lupd 0x24 0x46 0x6a) ∧
    decode (0x7A#7 ++ 0x0#1 ++ 0x24#8 ++ 0x46#8 ++ 0x6A#8) = .ok (.tbinit 0x24 0x46 0x6a) ∧
    decode (0x7B#7 ++ 0x1#1 ++ 0x24#8 ++ 0x46#8 ++ 0x6A#8) = .ok (.tbtest true 0x24 0x46 0x6a) ∧
    decode (0x7E#7 ++ 0x0#6 ++ 0x0#1 ++ 0x3#2 ++ 0x46#8 ++ 0x6A#8) = .ok (.cvtF32F64 0x3 0x46 0x6a) := by
  and_intros <;> rfl

/-- R199, R200, R207, R209 to R211: a word of each constructor, field by field: conversions. -/
theorem test_words_conversions :
    decode (0x7E#7 ++ 0x1#6 ++ 0x0#1 ++ 0x3#2 ++ 0x46#8 ++ 0x6A#8) = .ok (.cvtF64F32 0x3 0x46 0x6a) ∧
    decode (0x7E#7 ++ 0x2#6 ++ 0x0#1 ++ 0x3#2 ++ 0x46#8 ++ 0x6A#8) = .ok (.cvtF32H16 0x3 0x46 0x6a) ∧
    decode (0x7E#7 ++ 0x3#6 ++ 0x0#1 ++ 0x3#2 ++ 0x46#8 ++ 0x6A#8) = .ok (.cvtH16F32 0x3 0x46 0x6a) ∧
    decode (0x7E#7 ++ 0x4#6 ++ 0x0#1 ++ 0x3#2 ++ 0x46#8 ++ 0x6A#8) = .ok (.cvtF32W16 0x3 0x46 0x6a) ∧
    decode (0x7E#7 ++ 0x5#6 ++ 0x0#1 ++ 0x3#2 ++ 0x46#8 ++ 0x6A#8) = .ok (.cvtW16F32 0x3 0x46 0x6a) ∧
    decode (0x7E#7 ++ 0x6#6 ++ 0x0#1 ++ 0x3#2 ++ 0x46#8 ++ 0x6A#8) = .ok (.cvtF32S32 0x3 0x46 0x6a) ∧
    decode (0x7E#7 ++ 0x7#6 ++ 0x0#1 ++ 0x3#2 ++ 0x46#8 ++ 0x6A#8) = .ok (.cvtF32Z32 0x3 0x46 0x6a) ∧
    decode (0x7E#7 ++ 0x8#6 ++ 0x0#1 ++ 0x3#2 ++ 0x46#8 ++ 0x6A#8) = .ok (.cvtS32F32 0x3 0x46 0x6a) ∧
    decode (0x7E#7 ++ 0x9#6 ++ 0x0#1 ++ 0x3#2 ++ 0x46#8 ++ 0x6A#8) = .ok (.cvtZ32F32 0x3 0x46 0x6a) ∧
    decode (0x7E#7 ++ 0xA#6 ++ 0x0#1 ++ 0x3#2 ++ 0x46#8 ++ 0x6A#8) = .ok (.cvtF64S64 0x3 0x46 0x6a) ∧
    decode (0x7E#7 ++ 0xB#6 ++ 0x0#1 ++ 0x3#2 ++ 0x46#8 ++ 0x6A#8) = .ok (.cvtF64Z64 0x3 0x46 0x6a) ∧
    decode (0x7E#7 ++ 0xC#6 ++ 0x0#1 ++ 0x3#2 ++ 0x46#8 ++ 0x6A#8) = .ok (.cvtS64F64 0x3 0x46 0x6a) ∧
    decode (0x7E#7 ++ 0xD#6 ++ 0x0#1 ++ 0x3#2 ++ 0x46#8 ++ 0x6A#8) = .ok (.cvtZ64F64 0x3 0x46 0x6a) ∧
    decode (0x7E#7 ++ 0xE#6 ++ 0x0#1 ++ 0x3#2 ++ 0x46#8 ++ 0x6A#8) = .ok (.cvtF64S32 0x3 0x46 0x6a) ∧
    decode (0x7E#7 ++ 0xF#6 ++ 0x0#1 ++ 0x3#2 ++ 0x46#8 ++ 0x6A#8) = .ok (.cvtS32F64 0x3 0x46 0x6a) ∧
    decode (0x7E#7 ++ 0x10#6 ++ 0x0#1 ++ 0x3#2 ++ 0x46#8 ++ 0x6A#8) = .ok (.cvtF32S64 0x3 0x46 0x6a) ∧
    decode (0x7E#7 ++ 0x11#6 ++ 0x0#1 ++ 0x3#2 ++ 0x46#8 ++ 0x6A#8) = .ok (.cvtS64F32 0x3 0x46 0x6a) ∧
    decode (0x7E#7 ++ 0x12#6 ++ 0x0#1 ++ 0x3#2 ++ 0x46#8 ++ 0x6A#8) = .ok (.cvtQ8F32 0x3 0x46 0x6a) ∧
    decode (0x7E#7 ++ 0x13#6 ++ 0x0#1 ++ 0x3#2 ++ 0x46#8 ++ 0x6A#8) = .ok (.cvtF32Q8 0x3 0x46 0x6a) ∧
    decode (0x7E#7 ++ 0x14#6 ++ 0x0#1 ++ 0x3#2 ++ 0x46#8 ++ 0x6A#8) = .ok (.cvtQ6F32 0x3 0x46 0x6a) ∧
    decode (0x7E#7 ++ 0x15#6 ++ 0x0#1 ++ 0x3#2 ++ 0x46#8 ++ 0x6A#8) = .ok (.cvtF32Q6 0x3 0x46 0x6a) ∧
    decode (0x7E#7 ++ 0x16#6 ++ 0x0#1 ++ 0x3#2 ++ 0x46#8 ++ 0x6A#8) = .ok (.cvtQ4F32 0x3 0x46 0x6a) ∧
    decode (0x7E#7 ++ 0x17#6 ++ 0x0#1 ++ 0x3#2 ++ 0x46#8 ++ 0x6A#8) = .ok (.cvtF32Q4 0x3 0x46 0x6a) ∧
    decode (0x7E#7 ++ 0x18#6 ++ 0x0#1 ++ 0x3#2 ++ 0x46#8 ++ 0x6A#8) = .ok (.cvtS8S32 0x3 0x46 0x6a) ∧
    decode (0x7E#7 ++ 0x19#6 ++ 0x0#1 ++ 0x3#2 ++ 0x46#8 ++ 0x6A#8) = .ok (.cvtZ8Z32 0x3 0x46 0x6a) ∧
    decode (0x7E#7 ++ 0x1A#6 ++ 0x0#1 ++ 0x3#2 ++ 0x46#8 ++ 0x6A#8) = .ok (.cvtS16S32 0x3 0x46 0x6a) ∧
    decode (0x7E#7 ++ 0x1B#6 ++ 0x0#1 ++ 0x3#2 ++ 0x46#8 ++ 0x6A#8) = .ok (.cvtZ16Z32 0x3 0x46 0x6a) ∧
    decode (0x7E#7 ++ 0x1C#6 ++ 0x0#1 ++ 0x3#2 ++ 0x46#8 ++ 0x6A#8) = .ok (.cvtS64S32 0x3 0x46 0x6a) ∧
    decode (0x7E#7 ++ 0x1D#6 ++ 0x0#1 ++ 0x3#2 ++ 0x46#8 ++ 0x6A#8) = .ok (.cvtZ64Z32 0x3 0x46 0x6a) ∧
    decode (0x7E#7 ++ 0x1E#6 ++ 0x0#1 ++ 0x3#2 ++ 0x46#8 ++ 0x6A#8) = .ok (.cvtS32S64 0x3 0x46 0x6a) := by
  and_intros <;> rfl

/-- R199, R200, R207, R209 to R211: a word of each constructor, field by field: conversions and packing. -/
theorem test_words_packing :
    decode (0x7E#7 ++ 0x1F#6 ++ 0x0#1 ++ 0x3#2 ++ 0x46#8 ++ 0x6A#8) = .ok (.cvtZ32Z64 0x3 0x46 0x6a) ∧
    decode (0x7E#7 ++ 0x20#6 ++ 0x0#1 ++ 0x3#2 ++ 0x46#8 ++ 0x6A#8) = .ok (.packH16 0x3 0x46 0x6a) ∧
    decode (0x7E#7 ++ 0x21#6 ++ 0x0#3 ++ 0x46#8 ++ 0x6A#8) = .ok (.unpackH16 0x46 0x6a) ∧
    decode (0x7E#7 ++ 0x22#6 ++ 0x0#1 ++ 0x3#2 ++ 0x46#8 ++ 0x6A#8) = .ok (.packW16 0x3 0x46 0x6a) ∧
    decode (0x7E#7 ++ 0x23#6 ++ 0x0#3 ++ 0x46#8 ++ 0x6A#8) = .ok (.unpackW16 0x46 0x6a) ∧
    decode (0x7E#7 ++ 0x24#6 ++ 0x0#1 ++ 0x3#2 ++ 0x46#8 ++ 0x6A#8) = .ok (.packQ8 0x3 0x46 0x6a) ∧
    decode (0x7E#7 ++ 0x25#6 ++ 0x0#3 ++ 0x46#8 ++ 0x6A#8) = .ok (.unpackQ8 0x46 0x6a) ∧
    decode (0x7E#7 ++ 0x26#6 ++ 0x0#1 ++ 0x3#2 ++ 0x46#8 ++ 0x6A#8) = .ok (.packQ6 0x3 0x46 0x6a) ∧
    decode (0x7E#7 ++ 0x27#6 ++ 0x0#3 ++ 0x46#8 ++ 0x6A#8) = .ok (.unpackQ6 0x46 0x6a) ∧
    decode (0x7E#7 ++ 0x28#6 ++ 0x0#1 ++ 0x3#2 ++ 0x46#8 ++ 0x6A#8) = .ok (.packQ4 0x3 0x46 0x6a) ∧
    decode (0x7E#7 ++ 0x29#6 ++ 0x0#3 ++ 0x46#8 ++ 0x6A#8) = .ok (.unpackQ4 0x46 0x6a) ∧
    decode (0x7E#7 ++ 0x2A#6 ++ 0x0#3 ++ 0x46#8 ++ 0x6A#8) = .ok (.packS8 0x46 0x6a) ∧
    decode (0x7E#7 ++ 0x2B#6 ++ 0x0#3 ++ 0x46#8 ++ 0x6A#8) = .ok (.unpackS8 0x46 0x6a) ∧
    decode (0x7E#7 ++ 0x2C#6 ++ 0x0#3 ++ 0x46#8 ++ 0x6A#8) = .ok (.packZ8 0x46 0x6a) ∧
    decode (0x7E#7 ++ 0x2D#6 ++ 0x0#3 ++ 0x46#8 ++ 0x6A#8) = .ok (.unpackZ8 0x46 0x6a) ∧
    decode (0x7E#7 ++ 0x2E#6 ++ 0x0#3 ++ 0x46#8 ++ 0x6A#8) = .ok (.packS4 0x46 0x6a) ∧
    decode (0x7E#7 ++ 0x2F#6 ++ 0x0#3 ++ 0x46#8 ++ 0x6A#8) = .ok (.unpackS4 0x46 0x6a) ∧
    decode (0x7E#7 ++ 0x30#6 ++ 0x0#3 ++ 0x46#8 ++ 0x6A#8) = .ok (.packZ4 0x46 0x6a) ∧
    decode (0x7E#7 ++ 0x31#6 ++ 0x0#3 ++ 0x46#8 ++ 0x6A#8) = .ok (.unpackZ4 0x46 0x6a) ∧
    decode (0x7F#7 ++ 0x0#6 ++ 0x0#3 ++ 0x46#8 ++ 0x0#8) = .ok (.tcopy 0x46) := by
  and_intros <;> rfl

/-- R199, R200, R207, R209 to R211: a word of each constructor, field by field: asynchronous and system forms. -/
theorem test_words_system :
    decode (0x7F#7 ++ 0x1#6 ++ 0x0#3 ++ 0x46#8 ++ 0x0#8) = .ok (.tcopys 0x46) ∧
    decode (0x7F#7 ++ 0x2#6 ++ 0x0#3 ++ 0x46#8 ++ 0x0#8) = .ok (.treduce 0x46) ∧
    decode (0x7F#7 ++ 0x3#6 ++ 0x0#3 ++ 0x46#8 ++ 0x0#8) = .ok (.bind 0x46) ∧
    decode (0x7F#7 ++ 0x4#6 ++ 0x0#3 ++ 0x46#8 ++ 0x0#8) = .ok (.unbind 0x46) ∧
    decode (0x7F#7 ++ 0x5#6 ++ 0x2#3 ++ 0x0#10 ++ 0x2D#6) = .ok (.waitc 0x2 0x2d) ∧
    decode (0x7F#7 ++ 0x6#6 ++ 0x0#3 ++ 0x46#8 ++ 0x6A#8) = .ok (.tbexpect 0x46 0x6a) ∧
    decode (0x7F#7 ++ 0x7#6 ++ 0x0#3 ++ 0x46#8 ++ 0x0#8) = .ok (.tbarrive 0x46) ∧
    decode (0x7F#7 ++ 0x8#6 ++ 0x0#3 ++ 0x46#8 ++ 0x6A#8) = .ok (.tbwait 0x46 0x6a) ∧
    decode (0x7F#7 ++ 0x9#6 ++ 0x2#3 ++ 0x0#4 ++ 0x9#4 ++ 0x0#8) = .ok (.bar 0x2 0x9) ∧
    decode (0x7F#7 ++ 0xA#6 ++ 0x0#19) = .ok (.gbar) ∧
    decode (0x7F#7 ++ 0xB#6 ++ 0x0#19) = .ok (.backoff) ∧
    decode (0x7F#7 ++ 0xC#6 ++ 0x4#3 ++ 0x0#16) = .ok (.fence 0x4) ∧
    decode (0x7F#7 ++ 0xD#6 ++ 0x4#3 ++ 0x46#8 ++ 0x0#8) = .ok (.fenceRp 0x4 0x46) ∧
    decode (0x7F#7 ++ 0xE#6 ++ 0x0#3 ++ 0x24#8 ++ 0x6A#8) = .ok (.sptest 0x24 0x6a) ∧
    decode (0x7F#7 ++ 0xF#6 ++ 0x2#3 ++ 0x24#8 ++ 0x6A#8) = .ok (.spcast 0x2 0x24 0x6a) ∧
    decode (0x7F#7 ++ 0x10#6 ++ 0x2#3 ++ 0x24#8 ++ 0x6A#8) = .ok (.spcastOff 0x2 0x24 0x6a) ∧
    decode (0x7F#7 ++ 0x11#6 ++ 0x0#3 ++ 0x46#8 ++ 0x6A#8) = .ok (.sysflush 0x46 0x6a) ∧
    decode (0x7F#7 ++ 0x12#6 ++ 0x0#3 ++ 0x46#8 ++ 0x6A#8) = .ok (.sysinv 0x46 0x6a) ∧
    decode (0x7F#7 ++ 0x13#6 ++ 0x0#3 ++ 0x46#8 ++ 0x6A#8) = .ok (.mldn 0x46 0x6a) ∧
    decode (0x7F#7 ++ 0x14#6 ++ 0x0#3 ++ 0x46#8 ++ 0x6A#8) = .ok (.mldw 0x46 0x6a) ∧
    decode (0x7F#7 ++ 0x15#6 ++ 0x4#3 ++ 0x0#8 ++ 0x6A#8) = .ok (.curve 0x4 0x6a) ∧
    decode (0x7F#7 ++ 0x16#6 ++ 0x0#11 ++ 0x6A#8) = .ok (.bmap 0x6a) ∧
    decode (0x7F#7 ++ 0x17#6 ++ 0x5#3 ++ 0x46#8 ++ 0x6A#8) = .ok (.dtest 0x5 0x46 0x6a) ∧
    decode (0x7F#7 ++ 0x18#6 ++ 0x5#3 ++ 0x46#8 ++ 0x6A#8) = .ok (.blend 0x5 0x46 0x6a) ∧
    decode (0x7F#7 ++ 0x19#6 ++ 0x3#3 ++ 0x46#8 ++ 0x6A#8) = .ok (.pstore 0x3 0x46 0x6a) ∧
    decode (0x7F#7 ++ 0x1A#6 ++ 0x0#3 ++ 0x46#8 ++ 0x0#8) = .ok (.resid 0x46) ∧
    decode (0x7F#7 ++ 0x1B#6 ++ 0x0#3 ++ 0x24#8 ++ 0x6A#8) = .ok (.evpop 0x24 0x6a) ∧
    decode (0x7F#7 ++ 0x1C#6 ++ 0x0#2 ++ 0x1#1 ++ 0xB1#8 ++ 0xE3#8) = .ok (.svc true 0xb1 0xe3) ∧
    decode (0x7F#7 ++ 0x1D#6 ++ 0x0#3 ++ 0x46#8 ++ 0x0#8) = .ok (.assert 0x46) ∧
    decode (0x7F#7 ++ 0x1E#6 ++ 0x0#11 ++ 0x2#8) = .ok (.trap 0x2) ∧
    decode (0x7F#7 ++ 0x1F#6 ++ 0x0#19) = .ok (.resume) ∧
    decode (0x7F#7 ++ 0x20#6 ++ 0x0#19) = .ok (.skip) ∧
    decode (0x7F#7 ++ 0x21#6 ++ 0x0#19) = .ok (.brkpt) ∧
    decode (0x7F#7 ++ 0x22#6 ++ 0x0#3 ++ 0x24#8 ++ 0x6A#8) = .ok (.uisend 0x24 0x6a) ∧
    decode (0x7F#7 ++ 0x23#6 ++ 0x0#19) = .ok (.uiret) ∧
    decode (0x7F#7 ++ 0x24#6 ++ 0x0#19) = .ok (.idemEnter) ∧
    decode (0x7F#7 ++ 0x24#6 ++ 0x10000#19) = .ok (.idemLeave) ∧
    decode (0x7F#7 ++ 0x25#6 ++ 0x0#19) = .ok (.hold) := by
  and_intros <;> rfl

/-- Words that are none (R205): an unassigned major, a `join` with an offset, N = 1 with no destination, an unassigned minor. -/
theorem test_words_refused :
    decode 0 = .error .opc ∧ decode (0x42#7 ++ 1#25) = .error .opnd ∧ decode (0x51#7 ++ 1#1 ++ 0#24) = .error .opnd ∧ decode 0xFFFFFFFF = .error .opc :=
  ⟨rfl, rfl, rfl, rfl⟩

/-! ## Small states -/

/-- One section of 32 lanes at 0x400000, about to issue. -/
def base : State := { bootProgram State.reset with sel := some (.sect 0 0) }
/-- The section, its thread, its registers and GMODE changed. -/
def onSec (f : Section → Section) (s : State) : State := s.modSec 0 0 f
def onTh (f : Thread → Thread) (s : State) : State := onSec (fun c => { c with th := f c.th }) s
def withK (l : List (Nat × Word)) (s : State) : State := onTh (fun th => l.foldl (fun th x => th.setK x.1 x.2) th) s
def withV (l : List (Nat × Nat × Word)) (s : State) : State := onTh (fun th => l.foldl (fun th x => th.setV x.1 x.2.1 x.2.2) th) s
def withMode (g : Word) (s : State) : State := onTh (fun th => { th with gmode := g }) s
/-- Lane `l` fails the guard of GMODE 0x20 (predicate 0), the others pass. -/
def guardOff (l : List Nat) (s : State) : State :=
  onTh (fun th => { (List.range 32).foldl (fun th i => th.setP i 0 (!l.contains i)) th with gmode := 0x20 }) s
def onTeam (f : Team → Team) (s : State) : State := s.modTeam 0 f
def onCore (f : Core → Core) (s : State) : State := s.modCore 0 0 f

/-- The issuer of a state. -/
def issOf (s : State) : Iss :=
  match s.iss? with
  | some k => k
  | none => ⟨bootTeam, newSection 0 0 1 192 0x400000 [] false false false, none, (newSection 0 0 1 192 0x400000 [] false false false).th, 0, 0⟩

theorem iss_is (s : State) (h : s.iss?.isSome = true) : s.iss? = some (issOf s) := by
  unfold issOf
  cases e : s.iss? with
  | none => simp [e] at h
  | some k => rfl

/-- What AtIssue, AtPath and AtSection ask, tested. -/
def issues (s : State) (i : Instr) (u : Uses) : Bool :=
  s.iss?.isSome && i.wellFormed && (issOf s).act != 0 && decide (regFault (issOf s).th (issOf s).act u = none)
def paths (s : State) (i : Instr) (u : Uses) : Bool :=
  s.iss?.isSome && i.wellFormed && (issOf s).path != 0 && decide (regFault (issOf s).th (issOf s).path u = none)

theorem atIssue (s : State) (i : Instr) (u : Uses) (h : issues s i u = true) : AtIssue s (issOf s) i u := by
  simp only [issues, Bool.and_eq_true, bne_iff_ne, decide_eq_true_eq] at h
  exact ⟨iss_is s h.1.1.1, h.1.1.2, h.1.2, h.2⟩

theorem atPath (s : State) (i : Instr) (u : Uses) (h : paths s i u = true) : AtPath s (issOf s) i u := by
  simp only [paths, Bool.and_eq_true, bne_iff_ne, decide_eq_true_eq] at h
  exact ⟨iss_is s h.1.1.1, h.1.1.2, h.1.2, h.2⟩

theorem atSection (s : State) (i : Instr) (u : Uses) (h : (paths s i (usesUnlatched (issOf s) u) && (issOf s).rec?.isNone) = true) :
    AtSection s (issOf s) i u := by
  simp only [paths, Bool.and_eq_true, bne_iff_ne, decide_eq_true_eq, Option.isNone_iff_eq_none] at h
  exact ⟨iss_is s h.1.1.1.1, h.2, h.1.1.1.2, h.1.1.2, h.1.2⟩

/-- A touch that meets nothing. -/
def touches : Touch → Bool
  | .ok => true
  | _ => false
theorem touch_ok (x : Touch) (h : touches x = true) : x = .ok := by cases x <;> first | rfl | cases h
theorem present (s : State) (k : Iss) (l : List Nat) (h : (!s.ownRemote k (.team k.team.tid 0) 1 && touches (touch s k.team.tid l)) = true) : Present s k l := by
  simp only [Bool.and_eq_true, Bool.not_eq_true'] at h
  exact ⟨h.1, touch_ok _ h.2⟩

/-! ## Witnesses: the hypotheses of each statement met together -/

/-- At TYPE s64, pairs. -/
theorem wit_IntegerArithmetic : ∃ i n d srcs t s k, IntRule i n d srcs t ∧
    AtIssue s k i ⟨n, [wsel (tyInt64 (gType k.th.gmode)) d], srcs.map (wsel (tyInt64 (gType k.th.gmode)))⟩ ∧ intDyn d srcs k.th.gmode = true :=
  ⟨_, _, _, _, _, withMode 0x37 base, _, .imad false 4 2 6, atIssue (withMode 0x37 base) _ _ (by decide +kernel), by decide +kernel⟩

theorem wit_FinWrapsOrSaturates : ∃ (sat sat' : BitVec 2) (n : Nat), 0 < n ∧ sat = 1 ∧ sat' ≠ 1 ∧ intLo true n ≤ 127 ∧ 127 ≤ intHi true n ∧
    (-129 : Int) < intLo true n ∧ intHi true n < 128 := ⟨1, 0, 8, by decide +kernel⟩

theorem wit_MovesLogicShifts :
    (∃ i n d srcs v s k, MoveRule i n d srcs v ∧ AtIssue s k i ⟨n, [(d, 1)], srcs.map (fun x => (x, 1))⟩) ∧
    (∃ s k, AtIssue s k (.lea false 4 2 6) ⟨false, [(4, 2)], [(2, 2), (6, 1)]⟩ ∧ tyInt (gType k.th.gmode) = true) ∧
    (∃ s k, intDyn 4 [2] k.th.gmode = true ∧
      AtIssue s k (.shl false 4 2 6) ⟨false, [wsel (tyInt64 (gType k.th.gmode)) 4], [wsel (tyInt64 (gType k.th.gmode)) 2, (6, 1)]⟩ ∧
      AtIssue s k (.shr false 4 2 6) ⟨false, [wsel (tyInt64 (gType k.th.gmode)) 4], [wsel (tyInt64 (gType k.th.gmode)) 2, (6, 1)]⟩) ∧
    (∃ s k, tyInt (gType k.th.gmode) = true ∧ pairSrc (tyInt64 (gType k.th.gmode)) 2 = true ∧
      AtIssue s k (.popc false 4 2) ⟨false, [wsel false 4], [wsel (tyInt64 (gType k.th.gmode)) 2]⟩ ∧
      AtIssue s k (.clz false 4 2) ⟨false, [wsel false 4], [wsel (tyInt64 (gType k.th.gmode)) 2]⟩) :=
  ⟨⟨_, _, _, _, _, base, _, .and false 191 0xEF 0xF6, atIssue base _ _ (by decide +kernel)⟩,
   ⟨base, _, atIssue base _ _ (by decide +kernel), by decide +kernel⟩,
   ⟨withMode 0x77 base, issOf (withMode 0x77 base), by decide +kernel, atIssue _ _ _ (by decide +kernel), atIssue _ _ _ (by decide +kernel)⟩,
   ⟨withMode 0x77 base, issOf (withMode 0x77 base), by decide +kernel, by decide +kernel, atIssue _ _ _ (by decide +kernel), atIssue _ _ _ (by decide +kernel)⟩⟩

theorem wit_PredicateForms :
    (∃ s k, AtIssue s k (.icmp 5 7 2 4) ⟨true, [], [wsel (tyInt64 (gType k.th.gmode)) 2, wsel (tyInt64 (gType k.th.gmode)) 4]⟩ ∧ tyInt (gType k.th.gmode) = true ∧
      pairSrc (tyInt64 (gType k.th.gmode)) 2 = true ∧ pairSrc (tyInt64 (gType k.th.gmode)) 4 = true) ∧
    (∃ s k, AtIssue s k (.fcmp 6 0 2 4) ⟨true, [], [wsel (isF64 k.th.gmode) 2, wsel (isF64 k.th.gmode) 4]⟩ ∧ floatDyn [] [2, 4] k.th.gmode = true) ∧
    (∃ s k, AtIssue s k (.plop 2 0 1 2) ⟨true, [], []⟩) ∧ ∃ s k, AtIssue s k (.vote 2 0 1) ⟨true, [], []⟩ :=
  ⟨⟨withMode 0x37 base, _, atIssue (withMode 0x37 base) _ _ (by decide +kernel), by decide +kernel, by decide +kernel, by decide +kernel⟩,
   ⟨withMode 0xA7 base, _, atIssue (withMode 0xA7 base) _ _ (by decide +kernel), by decide +kernel⟩,
   ⟨base, _, atIssue base _ _ (by decide +kernel)⟩, base, _, atIssue base _ _ (by decide +kernel)⟩

theorem wit_LaneExchange :
    (∃ s k, AtIssue s k (.rdlane false 4 2 0xF5) ⟨false, [(4, 1)], [(2, 1), (0xF5, 1)]⟩ ∧
      (0xF0 ≤ (2 : Sel).toNat → (2 : Sel).toNat < 0xF4 → k.th.latchReadable (rdLaneOf k 0xF5 / 32) ((2 : Sel).toNat - 0xF0) = true)) ∧
    (∃ s k, AtIssue s k (.shfl false 4 2 0xF5) ⟨false, [(4, 1)], [(2, 1), (0xF5, 1)]⟩) ∧
    (∃ s k, AtIssue s k (.shflx false 4 2 0xF5) ⟨false, [(4, 1)], [(2, 1), (0xF5, 1)]⟩) ∧ ∃ s k, AtIssue s k (.ballot false 4 2) ⟨false, [(4, 1)], []⟩ :=
  ⟨⟨base, _, atIssue base _ _ (by decide +kernel), by decide +kernel⟩, ⟨base, _, atIssue base _ _ (by decide +kernel)⟩,
   ⟨base, _, atIssue base _ _ (by decide +kernel)⟩, base, _, atIssue base _ _ (by decide +kernel)⟩

theorem wit_FloatArithmetic :
    (∃ i n d srcs v s k, FloatRule i n d srcs v ∧ AtIssue s k i ⟨n, [wsel (isF64 k.th.gmode) d], srcs.map (wsel (isF64 k.th.gmode))⟩ ∧
      floatDyn [d] srcs k.th.gmode = true) ∧
    ∃ s k, AtIssue s k (.fclass false 5 2) ⟨false, [wsel false 5], [wsel (isF64 k.th.gmode) 2]⟩ ∧ floatDyn [] [2] k.th.gmode = true :=
  ⟨⟨_, _, _, _, _, withMode 0xA7 base, _, .fdiv false 4 2 6, atIssue (withMode 0xA7 base) _ _ (by decide +kernel), by decide +kernel⟩,
   withMode 0xA7 base, _, atIssue (withMode 0xA7 base) _ _ (by decide +kernel), by decide +kernel⟩

theorem wit_Transcendentals : ∃ i op n d a f s k, TransRule i op n d a f ∧ AtIssue s k i ⟨n, [wsel (isF64 k.th.gmode) d], [wsel (isF64 k.th.gmode) a]⟩ ∧
    floatDyn [d] [a] k.th.gmode = true :=
  ⟨_, _, _, _, _, _, withMode 0xB7 base, _, .fsin false 5 3, atIssue (withMode 0xB7 base) _ _ (by decide +kernel), by decide +kernel⟩

theorem wit_Conversions : ∃ i ov a b dst src s k, CvtRule i ov a b dst src ∧ AtIssue s k i ⟨false, [wsel dst.isPair a], [wsel src.isPair b]⟩ :=
  ⟨_, _, _, _, _, _, base, _, .cvtS64F64 3 4 2, atIssue base _ _ (by decide +kernel)⟩

theorem wit_PackedForms :
    (∃ i cnt tys n d a b s k e, DotRule i cnt tys n d a b ∧ AtIssue s k i ⟨n, [(d, 1)], [(a, 1), (b, 1), (d, 1)]⟩ ∧
      tys.contains (gType k.th.gmode).toNat = true ∧ packedElem (gType k.th.gmode) = some e) ∧
    (∃ i ov a b n e wide s k, PackRule i ov a b n e wide ∧ AtIssue s k i ⟨false, [(a, 1)], [(b, n)]⟩) ∧
    ∃ i a b n e wide s k, UnpackRule i a b n e wide ∧ AtIssue s k i ⟨false, [(a, n)], [(b, 1)]⟩ :=
  ⟨⟨_, _, _, _, _, _, _, withMode 0x107 base, _, .float .q4, .dot8 false 4 2 6, atIssue (withMode 0x107 base) _ _ (by decide +kernel), by decide +kernel, rfl⟩,
   ⟨_, _, _, _, _, _, _, base, _, .packQ4 2 191 184, atIssue base _ _ (by decide +kernel)⟩,
   _, _, _, _, _, _, base, _, .unpackZ4 184 191, atIssue base _ _ (by decide +kernel)⟩

theorem wit_SystemRegistersReadBack : ∃ (s : State) (c : Section) (r : Nat), s.sec? bootTeam.tid 0 = some c ∧ (r = 0x02 ∨ r = 0x03 ∨ r = 0x09 ∨ r = 0x19) :=
  ⟨base, _, 0x19, rfl, by decide⟩

theorem wit_ModeAndSystemRegisters :
    (∃ s k, AtPath s k (.setmode 8 0x107) ⟨true, [], []⟩ ∧ k.rec? = none ∧ gmodeOk (((8 : BitVec 4) ++ (0x107 : BitVec 16)).setWidth 32) = true) ∧
    (∃ s k w, sysWidth 0x33 = some w ∧ AtIssue s k (.mfs false 4 0x33) ⟨false, [wsel w 4], []⟩ ∧ mayRead 0x33 k.sec.hmode = true) ∧
    (∃ s k w, sysWidth 0x19 = some w ∧ AtIssue s k (.mts 4 0x19) (usesUnlatched k ⟨true, [], [wsel w 4]⟩) ∧ k.rec? = none ∧
      sysValueOk k.sec 0x19 (BitVec.ofNat 64 (k.th.src w ((k.th.lowest k.act).getD 0) 4)) = true ∧ mayWrite 0x19 k.sec.hmode = true) ∧
    (∃ s k, AtIssue s k (.mfs false 4 0x28) ⟨false, [wsel true 4], []⟩ ∧ k.sec.hmode = false) ∧
    (∃ s k, AtIssue s k (.mfs false 4 0x33) ⟨false, [wsel true 4], []⟩ ∧ k.sec.hmode = false) ∧
    [0x28, 0x33, 0x09, 0x40, 0x5F].all (fun r => (sysWidth r).isSome) = true ∧
    (∃ s k, AtIssue s k (.mts 4 0x5F) (usesUnlatched k ⟨true, [], [wsel false 4]⟩) ∧ k.rec? = none ∧ k.sec.hmode = false ∧
      sysValueOk k.sec 0x5F (BitVec.ofNat 64 (k.th.src false ((k.th.lowest k.act).getD 0) 4)) = true) :=
  ⟨⟨base, _, atPath base _ _ (by decide +kernel), by decide +kernel, by decide +kernel⟩,
   ⟨onSec (fun c => { c with hmode := true }) base, _, true, rfl, atIssue (onSec (fun c => { c with hmode := true }) base) _ _ (by decide +kernel), by decide +kernel⟩,
   ⟨base, _, true, rfl, atIssue base _ _ (by decide +kernel), by decide +kernel, by decide +kernel, by decide +kernel⟩,
   ⟨base, _, atIssue base _ _ (by decide +kernel), by decide +kernel⟩, ⟨base, _, atIssue base _ _ (by decide +kernel), by decide +kernel⟩,
   by decide +kernel,
   ⟨base, _, atIssue base _ _ (by decide +kernel), by decide +kernel, by decide +kernel, by decide +kernel⟩⟩

theorem ok_is {α β : Type} (x : Except α β) (h : x.isOk = true) : ∃ y, x = .ok y :=
  match x, h with
  | .ok y, _ => ⟨y, rfl⟩

theorem xlat_is (x : Xlat) (h : (match x with
    | .ok _ _ => true
    | _ => false) = true) : ∃ pa p, x = .ok pa p := by cases x <;> first | exact ⟨_, _, rfl⟩ | cases h

def withStack (l : List Entry) (s : State) : State := onSec (fun c => { c with stack := l }) s
def entryAt (join : DWord) : Entry := branchEntry 0x3FFFF0 (some join) (fullMask 1) none
/-- Lane 3 fails the guard, and sixteen entries stand on the stack: the next goes to the spill area. -/
def deepBase : State := guardOff [3] (withStack (List.replicate 16 (entryAt 8)) base)

theorem deepBra : ∃ s k pa, AtIssue s k (.bra 4 6) ⟨true, [], []⟩ ∧ k.act ≠ k.th.path ∧ stackFull k.sec = false ∧ k.sec.stack.length + 1 = 17 ∧
    gEject k.th.gmode < (k.th.lanes (k.th.path &&& ~~~k.act)).length ∧ ∀ t, pushed k s 17 t = some (t.freeBytes pa 256) := by
  obtain ⟨pa, p, h⟩ := xlat_is (deepBase.translate 0 0 0 .store (spillAddr deepBase bootTeam 0 17)) (by decide +kernel)
  have h' : deepBase.translate (issOf deepBase).team.die (issOf deepBase).team.core (issOf deepBase).team.ctx .store
      (spillAddr deepBase (issOf deepBase).team (issOf deepBase).sec.role 17) = .ok pa p := by rw [← h]; decide +kernel
  exact ⟨deepBase, issOf deepBase, pa, atIssue _ _ _ (by decide +kernel), by decide +kernel, by decide +kernel, by decide +kernel, by decide +kernel,
    fun t => by simp [pushed, h']⟩

/-- All lanes; none of the smaller side may be ejected (EJECT 0); one lane ejected (EJECT 8). -/
theorem wit_Branches :
    (∃ s k, AtIssue s k (.bra 4 6) ⟨true, [], []⟩ ∧ k.act = k.th.path) ∧
    (∃ s k, AtIssue s k (.bra 4 6) ⟨true, [], []⟩ ∧ k.act ≠ k.th.path ∧ stackFull k.sec = false ∧ k.sec.stack.length + 1 ≤ 16 ∧
      gEject k.th.gmode < (k.th.lanes (k.th.path &&& ~~~k.act)).length) ∧
    (∃ s k pa, AtIssue s k (.bra 4 6) ⟨true, [], []⟩ ∧ k.act ≠ k.th.path ∧ stackFull k.sec = false ∧ k.sec.stack.length + 1 = 17 ∧
      gEject k.th.gmode < (k.th.lanes (k.th.path &&& ~~~k.act)).length ∧ ∀ t, pushed k s 17 t = some (t.freeBytes pa 256)) ∧
    (∃ s k, AtIssue s k (.bra 4 6) ⟨true, [], []⟩ ∧ k.act ≠ k.th.path ∧ k.rec? = none ∧ stackFull k.sec = false ∧ k.sec.stack.length + 1 ≤ 16 ∧
      (k.th.lanes (k.th.path &&& ~~~k.act)) ≠ [] ∧ (k.th.lanes (k.th.path &&& ~~~k.act)).length ≤ gEject k.th.gmode ∧
      (k.th.lanes (k.th.path &&& ~~~k.act)).length < (k.th.lanes k.act).length ∧
      (s.coreAt k.team.die k.team.core).lantern.length + (k.th.lanes (k.th.path &&& ~~~k.act)).length ≤ 64) :=
  ⟨⟨base, _, atIssue base _ _ (by decide +kernel), by decide +kernel⟩,
   ⟨guardOff [3] base, _, atIssue (guardOff [3] base) _ _ (by decide +kernel), by decide +kernel, by decide +kernel, by decide +kernel, by decide +kernel⟩,
   deepBra,
   ⟨withMode 0x80020 (guardOff [0, 1, 2, 3, 4, 5, 6, 7] base), _, atIssue (withMode 0x80020 (guardOff [0, 1, 2, 3, 4, 5, 6, 7] base)) _ _ (by decide +kernel),
    by decide +kernel, by decide +kernel, by decide +kernel, by decide +kernel, by decide +kernel, by decide +kernel, by decide +kernel⟩⟩
/-- An ejected lane 5 of the section, whose record stands first in the lantern and issues. -/
def laneRec (join : Option DWord) (calls : List (DWord × Bool)) : LanternRec :=
  { id := 9, tid := 0, role := 0, lane := 5
    th := { (issOf base).th with path := BitVec.twoPow 1024 5, live := BitVec.twoPow 1024 5, ejected := true }
    joinPc := join, owner := 0, calls := calls, waiting := false }
def onLane (join : Option DWord) (calls : List (DWord × Bool)) : State :=
  { onCore (fun x => { x with lantern := [laneRec join calls] }) base with sel := some (.lantern 0 0 9) }

theorem wit_JoinsAndPathEnds :
    (∃ s k e r, State.iss? s = some k ∧ k.rec? = none ∧ k.sec.stack = e :: r ∧ e.kind ≠ .call ∧ e.joinPc = some k.th.pc ∧ poppable k s) ∧
    (∃ s k, State.iss? s = some k ∧ k.rec? = none ∧ (∀ e r, k.sec.stack = e :: r → e.kind = .call ∨ e.joinPc ≠ some k.th.pc)) ∧
    (∃ s k d c r, State.iss? s = some k ∧ k.rec? = some (d, c, r) ∧ r.joinPc = some k.th.pc) ∧
    (∃ (c : Section) (e : Entry) (r : List Entry) (m : Mask) (pc : DWord), c.stack = e :: r ∧ e.kind ≠ .recall ∧ e.pend = some (m, pc) ∧ m ≠ 0) ∧
    (∃ (c : Section) (e : Entry) (r : List Entry), c.stack = e :: r ∧ e.kind ≠ .recall ∧ e.pend = none ∧ 0 < e.jc) ∧
    (∃ (c : Section) (e : Entry) (r : List Entry), c.stack = e :: r ∧ e.kind ≠ .recall ∧ e.pend = none ∧ e.jc = 0 ∧ e.hadEjected = false ∧ e.full ≠ 0) ∧
    (∃ (c : Section) (e : Entry) (r : List Entry) (m : Mask) (pc : DWord), c.stack = e :: r ∧ e.kind = .recall ∧ e.pend = some (m, pc) ∧ m ≠ 0) := by
  refine ⟨⟨withStack [entryAt 0x400000] base, _, _, _, iss_is _ (by decide +kernel), rfl, rfl, by decide, rfl, .inl (by decide)⟩,
    ⟨withStack [entryAt 0x400004] base, issOf (withStack [entryAt 0x400004] base), iss_is _ (by decide +kernel), rfl, ?_⟩,
    ⟨onLane (some 0x400000) [], issOf (onLane (some 0x400000) []), 0, 0, laneRec (some 0x400000) [], iss_is _ (by decide +kernel), rfl, rfl⟩,
    ⟨{ (issOf base).sec with stack := [{ entryAt 8 with pend := some (1, 4) }] }, _, _, 1, 4, rfl, by decide, rfl, by decide⟩,
    ⟨{ (issOf base).sec with stack := [{ entryAt 8 with jc := 1 }] }, _, _, rfl, by decide, rfl, by decide⟩,
    ⟨{ (issOf base).sec with stack := [entryAt 8] }, _, _, rfl, by decide, rfl, rfl, rfl, by decide +kernel⟩,
    ⟨{ (issOf base).sec with stack := [{ entryAt 8 with kind := .recall, pend := some (1, 4) }] }, _, _, 1, 4, rfl, rfl, rfl, by decide⟩⟩
  intro e r h
  cases h
  exact .inr (by decide)

/-- Every lane's register pair v2, v3 holds `t`. -/
def toAll (t : DWord) (s : State) : State :=
  withV ((List.range 32).flatMap (fun l => [(l, 2, t.setWidth 32), (l, 3, t.extractLsb' 32 32)])) s
/-- Lane 0 goes to `t`, the others to 0x400040. -/
def toTwo (t : DWord) : State := withV [(0, 2, t.setWidth 32), (0, 3, t.extractLsb' 32 32)] (toAll 0x400040 base)

/-- The edges of R251: 2^49 − 4 is the last target, 2^49 none; 0x400002 is misaligned. -/
theorem wit_CallsAndIndexedBranches :
    (∃ s k, AtIssue s k (.call 4) ⟨true, [], []⟩ ∧ k.rec? = none ∧ stackFull k.sec = false ∧ k.sec.stack.length + 1 ≤ 16) ∧
    (∃ s k d c r, AtIssue s k (.call 4) ⟨true, [], []⟩ ∧ k.rec? = some (d, c, r) ∧ r.calls.length < 8) ∧
    (∃ s k s', AtIssue s k (.calli 2) ⟨true, [], [(2, 2)]⟩ ∧ k.rec? = none ∧ stackFull k.sec = false ∧ k.sec.stack.length + 1 ≤ 16 ∧
      budgetWord k s (lowTarget k 2).1 (lowTarget k 2).2 = .ok s') ∧
    (∃ s k, AtIssue s k .ret ⟨true, [], []⟩ ∧ k.rec? = none ∧ k.sec.stack.any (fun e => e.kind == .call) = true ∧ k.th.path &&& ~~~k.act = 0) ∧
    (∃ s k, AtIssue s k .ret ⟨true, [], []⟩ ∧ k.rec? = none ∧ k.sec.stack.any (fun e => e.kind == .call) = true ∧ k.th.path &&& ~~~k.act ≠ 0) ∧
    (∃ s k, AtIssue s k (.brx 2 0) ⟨true, [], [(2, 2)]⟩ ∧ k.rec? = none ∧ reuses k .branch = false ∧ k.th.path = (lowTarget k 2).2 ∧
      (lowTarget k 2).1 = 0x1FFFFFFFFFFFC) ∧
    (∃ s k, AtIssue s k (.brx 2 0) ⟨true, [], [(2, 2)]⟩ ∧ k.rec? = none ∧ reuses k .branch = false ∧ k.th.path = (lowTarget k 2).2 ∧
      (lowTarget k 2).1 = 0x2000000000000) ∧
    (∃ s k, AtIssue s k (.brx 2 0) ⟨true, [], [(2, 2)]⟩ ∧ k.rec? = none ∧ reuses k .branch = false ∧ k.th.path = (lowTarget k 2).2 ∧
      (lowTarget k 2).1 = 0x400002) ∧
    (∃ s k, AtIssue s k (.brx 2 0) ⟨true, [], [(2, 2)]⟩ ∧ k.rec? = none ∧ reuses k .branch = false ∧ k.th.path ≠ (lowTarget k 2).2 ∧
      stackLacks k.sec 1 = false ∧ k.sec.stack.length + 1 ≤ 16 ∧ cleared k = 0 ∧ (lowTarget k 2).1.toNat < 2 ^ 49 ∧ (lowTarget k 2).1.toNat % 4 = 0) := by
  refine ⟨⟨base, _, atIssue base _ _ (by decide +kernel), by decide +kernel, by decide +kernel⟩,
    ⟨onLane none [], _, 0, 0, laneRec none [], atIssue (onLane none []) _ _ (by decide +kernel), rfl, by decide⟩, ?_,
    ⟨withStack [callEntry 0 (fullMask 1) none false] base, _, atIssue (withStack [callEntry 0 (fullMask 1) none false] base) _ _ (by decide +kernel),
      by decide +kernel, by decide +kernel, by decide +kernel⟩,
    ⟨guardOff [3] (withStack [callEntry 0 (fullMask 1) none false] base), _,
      atIssue (guardOff [3] (withStack [callEntry 0 (fullMask 1) none false] base)) _ _ (by decide +kernel), by decide +kernel, by decide +kernel, by decide +kernel⟩,
    ⟨toAll 0x1FFFFFFFFFFFC base, _, atIssue (toAll 0x1FFFFFFFFFFFC base) _ _ (by decide +kernel), by decide +kernel, by decide +kernel, by decide +kernel, by decide +kernel⟩,
    ⟨toAll 0x2000000000000 base, _, atIssue (toAll 0x2000000000000 base) _ _ (by decide +kernel), by decide +kernel, by decide +kernel, by decide +kernel, by decide +kernel⟩,
    ⟨toAll 0x400002 base, _, atIssue (toAll 0x400002 base) _ _ (by decide +kernel), by decide +kernel, by decide +kernel, by decide +kernel, by decide +kernel⟩,
    ⟨toTwo 0x400020, _, atIssue (toTwo 0x400020) _ _ (by decide +kernel), by decide +kernel, by decide +kernel, by decide +kernel, by decide +kernel, by decide +kernel,
      by decide +kernel, by decide +kernel, by decide +kernel⟩⟩
  obtain ⟨s', h⟩ := ok_is (budgetWord (issOf (toAll 0x400040 base)) (toAll 0x400040 base) (lowTarget (issOf (toAll 0x400040 base)) 2).1
    (lowTarget (issOf (toAll 0x400040 base)) 2).2) (by decide +kernel)
  exact ⟨toAll 0x400040 base, _, s', atIssue (toAll 0x400040 base) _ _ (by decide +kernel), by decide +kernel, by decide +kernel, by decide +kernel, h⟩

theorem wit_Exits :
    (∃ s k, AtIssue s k .exit ⟨true, [], []⟩ ∧ k.rec? = none ∧ k.sec.hmode = false ∧ k.th.path &&& ~~~k.act = 0) ∧
    (∃ s k, AtIssue s k .exit ⟨true, [], []⟩ ∧ k.rec? = none ∧ k.sec.hmode = false ∧ k.th.path &&& ~~~k.act ≠ 0) ∧
    (∃ s k, AtIssue s k .exit ⟨true, [], []⟩ ∧ k.rec? = none ∧ k.sec.hmode = true) ∧
    (∃ s k r, AtIssue s k .exit ⟨true, [], []⟩ ∧ k.rec? = some r) :=
  ⟨⟨base, _, atIssue base _ _ (by decide +kernel), by decide +kernel, by decide +kernel, by decide +kernel⟩,
   ⟨guardOff [31] base, _, atIssue (guardOff [31] base) _ _ (by decide +kernel), by decide +kernel, by decide +kernel, by decide +kernel⟩,
   ⟨onSec (fun c => { c with hmode := true }) base, _, atIssue (onSec (fun c => { c with hmode := true }) base) _ _ (by decide +kernel), by decide +kernel, by decide +kernel⟩,
   ⟨onLane none [], _, (0, 0, laneRec none []), atIssue (onLane none []) _ _ (by decide +kernel), rfl⟩⟩

/-- One lane; its 32-bit element at 0x500000 + 4 × lane; the last word of the scratchpad for lds. -/
def memBase : State := withK [(4, 0x500000), (6, 0x4FFFC), (30, 0x700000)] (onTh (fun th => { th with path := 1 }) base)

theorem all_stand (l : List (Elem × Ready)) (h : l.all (fun x => stands x.2) = true) : ∀ x ∈ l, stands x.2 = true := by
  simpa [List.all_eq_true] using h
theorem all_placed (l : List (Elem × Ready)) (h : l.all (fun x => placed x.2) = true) : ∀ x ∈ l, placed x.2 = true := by
  simpa [List.all_eq_true] using h

/-- The last word of the scratchpad holds an uncorrected error in its last byte. -/
def failBase : State := { memBase with failed := [.team 0 0x4FFFF] }
def failElem : Elem := mElem (issOf failBase) .core 3 0xF5 4 0 0 0 0
def failRs : List (Elem × Ready) :=
  let k := issOf failBase
  failBase.readyAll k .load none 4 ((k.th.lanes k.act).map (fun l => mElem k .core 3 0xF5 4 0 l 0 0))
theorem settled (l : List (Elem × Ready)) (h : l.all (fun y => stands y.2 || (match y.2 with
    | .fault .. => true
    | _ => false)) = true) : ∀ y ∈ l, stands y.2 = true ∨ ∃ c a u, y.2 = .fault c a u := by
  intro y hy
  have := (List.all_eq_true.1 h) y hy
  rcases y with ⟨e, r⟩
  cases r <;> simp_all [stands]
theorem spot_is (r : Ready) (f : Spot → Bool) (h : (match r with
    | .spot sp _ => f sp
    | _ => false) = true) : ∃ sp vas, r = .spot sp vas ∧ f sp = true := by
  cases r <;> first | exact ⟨_, _, rfl, h⟩ | cases h

def goes : Turn → Bool
  | .go _ => true
  | _ => false
def turnOf : Turn → State
  | .go s => s
  | _ => base
theorem goes_is (x : Turn) (h : goes x = true) : x = .go (turnOf x) := by cases x <;> first | rfl | cases h

theorem two_of {α : Type} (l : List α) (h : decide (2 ≤ l.length) = true) : ∃ x y r, l = x :: y :: r := by
  have h := of_decide_eq_true h
  exact ⟨l[0], l[1], l.drop 2, by rw [List.getElem_cons_drop, List.getElem_cons_drop (i := 0), List.drop_zero]⟩

/-- Watchpoint 0 watches loads with ACT 1, watchpoint 1 with ACT 0; an access that met the one of that number. -/
def watchBase : State := memBase.modCtx 0 (fun x => { x with wpt := [(0, 0x9000000000500000), (1, 0x8000000000500000)] })
def watchAt (i : Word) : Trap := ⟨cWATCH, 1, 0x500000, i⟩

theorem wit_Loads :
    (∃ s k e, AtIssue s k (.ld false 8 2 0xF5 0) ⟨false, [wsel (tyPair (gType k.th.gmode)) 8], [(0xF5, 1)]⟩ ∧ tyBytes (gType k.th.gmode) = some e ∧
      pairDst (tyPair (gType k.th.gmode)) 8 = true ∧
      ∀ x ∈ s.readyAll k .load none e ((k.th.lanes k.act).map (fun l => mElem k .any 2 0xF5 e 0 l 0 0)), stands x.2 = true) ∧
    (∃ s k e, AtIssue s k (.lds false 8 3 0xF5 0) ⟨false, [wsel (tyPair (gType k.th.gmode)) 8], [(0xF5, 1)]⟩ ∧ tyBytes (gType k.th.gmode) = some e ∧
      pairDst (tyPair (gType k.th.gmode)) 8 = true ∧ s.team? k.team.tid = some k.team ∧ k.team.die < 4 ∧ k.team.core < 64 ∧ k.team.scratchSize < 2 ^ 32 ∧
      k.team.bank = .active ∧ k.team.lines = [] ∧ s.remote = [] ∧ k.sec.taps = [] ∧ k.sec.cmp = [] ∧ k.sec.hostReq = none ∧
      (∀ l ∈ k.th.lanes k.act, 0 ≤ k.th.winSum l 3 0xF5 e 0 ∧ (k.th.winSum l 3 0xF5 e 0).toNat % e = 0 ∧
        (k.th.winSum l 3 0xF5 e 0).toNat + e ≤ k.team.scratchSize ∧ s.eccAt (.team k.team.tid (k.th.winSum l 3 0xF5 e 0).toNat) e = false) ∧
      (k.th.winSum 0 3 0xF5 e 0).toNat + e = k.team.scratchSize) ∧
    (∃ s k x, AtIssue s k (.lds false 8 3 0xF5 0) ⟨false, [wsel (tyPair (gType k.th.gmode)) 8], [(0xF5, 1)]⟩ ∧ tyBytes (gType k.th.gmode) = some 4 ∧
      pairDst (tyPair (gType k.th.gmode)) 8 = true ∧
      (∀ y ∈ s.readyAll k .load none 4 ((k.th.lanes k.act).map (fun l => mElem k .core 3 0xF5 4 0 l 0 0)), stands y.2 = true ∨ ∃ c a u, y.2 = .fault c a u) ∧
      trapOf (s.readyAll k .load none 4 ((k.th.lanes k.act).map (fun l => mElem k .core 3 0xF5 4 0 l 0 0))) = some x ∧ mayTrap k s = true ∧
      x.code = cECC ∧ x.lanes = 1 ∧ x.addr = 0xFC0000000004FFFC ∧ x.aux = 0) ∧
    (∃ s k e sp vas, State.ready s k .load none 4 e = .spot sp vas ∧ s.watch? k.team.ctx Form.load.access (s.vasOf k Form.load.access 4 e) = none ∧ s.eccAt sp 4 = true) ∧
    (∃ (s : State) (k : Iss) (x y : Trap), k.rec? = none ∧ k.sec.taps = [] ∧ s.sec? k.team.tid k.sec.role = some k.sec ∧ watchHolds k s x = true ∧
      watchHolds k s y = false ∧ x.code = cWATCH ∧ y.code = cWATCH) := by
  obtain ⟨x, hx⟩ := Option.isSome_iff_exists.1 (by decide +kernel : (trapOf failRs).isSome = true)
  obtain ⟨sp, vas, hs, he⟩ := spot_is (failBase.ready (issOf failBase) .load none 4 failElem) (fun sp => failBase.eccAt sp 4) (by decide +kernel)
  have hc : (trapOf failRs).map (fun x => (x.code, x.lanes, x.addr, x.aux)) = some (cECC, 1, 0xFC0000000004FFFC, 0) := by decide +kernel
  rw [hx] at hc
  simp only [Option.map_some, Option.some.injEq, Prod.mk.injEq] at hc
  exact
  ⟨⟨memBase, issOf memBase, 4, atIssue _ _ _ (by decide +kernel), by decide +kernel, by decide +kernel, all_stand _ (by decide +kernel)⟩,
   ⟨memBase, issOf memBase, 4, atIssue _ _ _ (by decide +kernel), by decide +kernel⟩,
   ⟨failBase, issOf failBase, x, atIssue _ _ _ (by decide +kernel), by decide +kernel, by decide +kernel, settled _ (by decide +kernel), hx,
    by decide +kernel, hc.1, hc.2.1, hc.2.2.1, hc.2.2.2⟩,
   ⟨failBase, issOf failBase, failElem, sp, vas, hs, by decide +kernel, he⟩,
   ⟨watchBase, issOf watchBase, watchAt 0, watchAt 1, by decide +kernel⟩⟩

/-- Two lanes, which store to the last two words of the scratchpad. -/
def twoBase : State := withK [(4, 0x500000), (6, 0x4FFF8), (30, 0x700000)] (onTh (fun th => { th with path := 3 }) base)

theorem wit_Stores :
    (∃ i win d m o im s k e, StoreRule i win d m o im ∧ AtIssue s k i ⟨true, [], [wsel (tyPair (gType k.th.gmode)) d, (o, 1)]⟩ ∧
      tyBytes (gType k.th.gmode) = some e ∧ pairSrc (tyPair (gType k.th.gmode)) d = true ∧
      (let rs := s.readyAll k .store none e ((k.th.lanes k.act).map (fun l => mElem k win m o e im.toNat l
        (BitVec.ofNat 64 (k.th.src (tyPair (gType k.th.gmode)) l d)) 0))
       (∀ x ∈ rs, stands x.2 = true) ∧ (apart false rs).length ≤ 1) ∧ k.sec.dmr = false ∧ counter k.sec 3 < 63) ∧
    (∃ i win d m o im s k e x y r, StoreRule i win d m o im ∧ AtIssue s k i ⟨true, [], [wsel (tyPair (gType k.th.gmode)) d, (o, 1)]⟩ ∧
      tyBytes (gType k.th.gmode) = some e ∧ pairSrc (tyPair (gType k.th.gmode)) d = true ∧
      (let rs := s.readyAll k .store none e ((k.th.lanes k.act).map (fun l => mElem k win m o e im.toNat l
        (BitVec.ofNat 64 (k.th.src (tyPair (gType k.th.gmode)) l d)) 0))
       (∀ x ∈ rs, stands x.2 = true) ∧ apart false rs = x :: y :: r) ∧ k.sec.dmr = false ∧ counter k.sec 3 < 63 ∧ k.rec? = none) := by
  obtain ⟨x, y, r, h⟩ := two_of (apart false (twoBase.readyAll (issOf twoBase) .store none 4 (((issOf twoBase).th.lanes (issOf twoBase).act).map (fun l =>
    mElem (issOf twoBase) .core 3 0xF5 4 0 l (BitVec.ofNat 64 ((issOf twoBase).th.src false l 8)) 0)))) (by decide +kernel)
  exact ⟨⟨_, _, _, _, _, _, memBase, issOf memBase, 4, .st 8 2 0xF5 0, atIssue _ _ _ (by decide +kernel), by decide +kernel, by decide +kernel,
      ⟨all_stand _ (by decide +kernel), by decide +kernel⟩, by decide +kernel, by decide +kernel⟩,
    _, _, _, _, _, _, twoBase, issOf twoBase, 4, x, y, r, .sts 8 3 0xF5 0, atIssue _ _ _ (by decide +kernel), by decide +kernel, by decide +kernel,
      ⟨all_stand _ (by decide +kernel), h⟩, by decide +kernel, by decide +kernel, by decide +kernel⟩

/-- The byte after a written one, of the device and of the host; the byte after an element with no barrier there, and the one after the cell of
a barrier; a stored element of the scratchpad and one of the die's. -/
theorem wit_WriteFrames :
    (∃ (s : State) (pa a : Nat), pa + 1 = a ∧ isHost pa = false) ∧
    (∃ (s : State) (pa a : Nat), pa + 1 = a ∧ isHost pa = true ∧
      (s.sliceAt (lineHome (pa / 128 * 128)).1 (lineHome (pa / 128 * 128)).2).lines.length < 32768) ∧
    (∃ (bs : List (Nat × Byte)) (a : Nat), bs ≠ [] ∧ ∀ b ∈ bs, b.1 ≠ a ∧ isHost b.1 = false) ∧
    (∃ (t : Team) (off a : Nat) (bs : List Byte), bs.length = 8 ∧ off + bs.length = a ∧ ∀ c, c = off ∨ (c = off + 4 ∧ 4 < bs.length) →
      (t.tbar (c / 16 * 16)).init = false ∨ a < c / 16 * 16 ∨ c / 16 * 16 + 16 ≤ a) ∧
    (∃ (t : Team) (off a : Nat) (bs : List Byte), bs.length = 4 ∧ (t.tbar off).init = true ∧ off + bs.length ≤ a ∧ ∀ c, c = off ∨ (c = off + 4 ∧ 4 < bs.length) →
      (t.tbar (c / 16 * 16)).init = false ∨ a < c / 16 * 16 ∨ c / 16 * 16 + 16 ≤ a) ∧
    (∃ (op : MemOp) (rs : List (Elem × Ready)) (a : Nat), 0 < op.size ∧ op.size ≤ 8 ∧
      let near := (openOps rs).filter (fun x => !(false || addrClass x.addr.toNat == 2))
      near.length = 2 ∧ (∀ x ∈ near, ∀ off, x.spot = some (.team 0 off) → a < off / 16 * 16 ∨ (off + op.size + 15) / 16 * 16 ≤ a) ∧
      (∀ x ∈ near, ∀ off, x.spot = some (.die 0 off) → a < off ∨ off + op.size ≤ a)) := by
  refine ⟨⟨base, 7, 8, by decide⟩, ⟨base, 8 * 2 ^ 48 + 7, 8 * 2 ^ 48 + 8, by decide +kernel⟩, ⟨[(7, 1)], 8, by decide⟩,
    ⟨bootTeam, 8, 16, List.replicate 8 1, by decide, by decide, ?_⟩,
    ⟨{ bootTeam with scratch := [(13, 16)] }, 0, 16, List.replicate 4 1, by decide, by decide +kernel, by decide, ?_⟩,
    ⟨⟨.store, 6, 4, 0, 0, [], false⟩, [(⟨0, 0, false, 1, 0⟩, .spot (.team 0 12) []), (⟨1, 0, false, 1, 0⟩, .spot (.die 0 12) [])], 16, by decide, by decide,
      by decide +kernel, ?_, ?_⟩⟩
  · rintro c (rfl | ⟨rfl, _⟩) <;> exact .inr (.inr (by decide))
  · rintro c (rfl | ⟨rfl, h⟩)
    · exact .inr (.inr (by decide))
    · exact absurd h (by decide)
  all_goals
    intro x hx off h
    simp [openOps, laneOps] at hx
    rcases hx with rfl | rfl
    all_goals simp at h
    subst h; decide

/-- A reduction at device scope, and a cas without return. -/
theorem wit_PostedSteps :
    (∃ i kind d m o c s k e, RedRule i kind d m o c ∧ AtIssue s k i ⟨true, [], [wsel (tyPair (gType k.th.gmode)) d, (o, 1)]⟩ ∧ atomTy kind (gType k.th.gmode) = true ∧
      tyBytes (gType k.th.gmode) = some e ∧ pairSrc (tyPair (gType k.th.gmode)) d = true ∧
      (let op : MemOp := { kind := kind, ty := gType k.th.gmode, size := e, scope := c, rd := gRd k.th.gmode, lanes := [], atomic := false }
       let es := (k.th.lanes k.act).map (fun l => mElem k .any m o e 0 l (BitVec.ofNat 64 (k.th.src (tyPair (gType k.th.gmode)) l d)) 0)
       ∀ x ∈ s.readyAll k .red (s.sysWay op) e es, stands x.2 = true) ∧
      k.sec.dmr = false ∧ counter k.sec 3 < 63) ∧
    (∃ i kind d m o c s k e, AtomRule i kind true d m o c ∧ AtIssue s k i (atomUses kind true (tyPair (gType k.th.gmode)) d o) ∧ atomTy kind (gType k.th.gmode) = true ∧
      tyBytes (gType k.th.gmode) = some e ∧ (if kind = .cas then tyPair (gType k.th.gmode) = true → d.toNat % 4 = 0 else pairSrc (tyPair (gType k.th.gmode)) d = true) ∧
      (let op : MemOp := { kind := kind, ty := gType k.th.gmode, size := e, scope := c, rd := gRd k.th.gmode, lanes := [], atomic := true }
       let es := stepElems k kind (tyPair (gType k.th.gmode)) d m o e
       ∀ x ∈ s.readyAll k .post (s.sysWay op) e es, stands x.2 = true) ∧
      k.sec.dmr = false ∧ counter k.sec 3 < 63) :=
  ⟨⟨_, _, _, _, _, _, memBase, issOf memBase, 4, .add 8 2 0xF5 4, atIssue _ _ _ (by decide +kernel), by decide +kernel, by decide +kernel, by decide +kernel,
    all_stand _ (by decide +kernel), by decide +kernel, by decide +kernel⟩,
   ⟨_, _, _, _, _, _, memBase, issOf memBase, 4, .cas true 8 2 0xF5 4, atIssue _ _ _ (by decide +kernel), by decide +kernel, by decide +kernel, by decide +kernel,
    all_stand _ (by decide +kernel), by decide +kernel, by decide +kernel⟩⟩

/-- One lane, at once; two lanes, one after the other. -/
theorem wit_Atomics :
    (∃ i kind d m o c s k e s', AtomRule i kind false d m o c ∧ AtIssue s k i (atomUses kind false (tyPair (gType k.th.gmode)) d o) ∧
      atomTy kind (gType k.th.gmode) = true ∧ tyBytes (gType k.th.gmode) = some e ∧
      (if kind = .cas then tyPair (gType k.th.gmode) = true → d.toNat % 4 = 0 else pairDst (tyPair (gType k.th.gmode)) d = true) ∧
      (let op : MemOp := { kind := kind, ty := gType k.th.gmode, size := e, scope := c, rd := gRd k.th.gmode, lanes := [], atomic := true }
       let rs := s.readyAll k .atom (s.sysWay op) e (stepElems k kind (tyPair (gType k.th.gmode)) d m o e)
       (∀ x ∈ rs, stands x.2 = true) ∧ (openOps rs).length ≤ 1 ∧ atomTurn k.team k.sec s (openOps rs) = .go s') ∧ k.sec.dmr = false) ∧
    (∃ i kind d m o c s k e x y r, AtomRule i kind false d m o c ∧ AtIssue s k i (atomUses kind false (tyPair (gType k.th.gmode)) d o) ∧
      atomTy kind (gType k.th.gmode) = true ∧ tyBytes (gType k.th.gmode) = some e ∧
      (if kind = .cas then tyPair (gType k.th.gmode) = true → d.toNat % 4 = 0 else pairDst (tyPair (gType k.th.gmode)) d = true) ∧
      (let op : MemOp := { kind := kind, ty := gType k.th.gmode, size := e, scope := c, rd := gRd k.th.gmode, lanes := [], atomic := true }
       let rs := s.readyAll k .atom (s.sysWay op) e (stepElems k kind (tyPair (gType k.th.gmode)) d m o e)
       (∀ x ∈ rs, stands x.2 = true) ∧ openOps rs = x :: y :: r) ∧ k.sec.dmr = false ∧ k.sec.det = false ∧ k.rec? = none) := by
  obtain ⟨x, y, r, h⟩ := two_of (openOps (twoBase.readyAll (issOf twoBase) .atom
    (twoBase.sysWay { kind := .add, ty := gType (issOf twoBase).th.gmode, size := 4, scope := 4, rd := gRd (issOf twoBase).th.gmode, lanes := [], atomic := true }) 4
    (stepElems (issOf twoBase) .add (tyPair (gType (issOf twoBase).th.gmode)) 8 2 0xF5 4))) (by decide +kernel)
  exact ⟨⟨_, _, _, _, _, _, memBase, issOf memBase, 4, _, .add false 8 2 0xF5 4, atIssue _ _ _ (by decide +kernel), by decide +kernel, by decide +kernel, by decide +kernel,
      ⟨all_stand _ (by decide +kernel), by decide +kernel, goes_is _ (by decide +kernel)⟩, by decide +kernel⟩,
    _, _, _, _, _, _, twoBase, issOf twoBase, 4, x, y, r, .add false 8 2 0xF5 4, atIssue _ _ _ (by decide +kernel), by decide +kernel, by decide +kernel, by decide +kernel,
      ⟨all_stand _ (by decide +kernel), h⟩, by decide +kernel, by decide +kernel, by decide +kernel⟩

theorem wit_StepValuesAndUpdates :
    (∃ (ty : BitVec 5) (n old data : Nat), (((ty = 2 ∨ ty = 6) ∧ n = 4) ∨ ((ty = 3 ∨ ty = 7) ∧ n = 8)) ∧ old < 2 ^ (8 * n) ∧ data < 2 ^ (8 * n)) ∧
    (∃ old delta hyp : Nat, delta % 2 ^ 31 ≠ 0 ∧ bits old 67 61 = 0 ∧ bits old 64 2 = hyp ∧ bits old 66 1 = 1) ∧
    (∃ s k, AtIssue s k (.lupd 8 0xC4 0xF5) ⟨true, [], [(8, 1), (0xC4, 2), (0xF5, 1)]⟩ ∧
      (let es := (k.th.lanes k.act).map (fun l =>
         let i := (k.th.src32 l 0xF5).toNat
         let ad := ((k.th.kpair 4).toNat + 16 * (i % 2 ^ 30)) % 2 ^ 64
         ({ lane := l, a := ad, bad := decide (addrClass ad ≠ 0), data := (k.th.src32 l 8).setWidth 64, data2 := BitVec.ofNat 64 (i / 2 ^ 30) } : Elem))
       ∀ x ∈ s.readyAll k .red (some false) 16 es, stands x.2 = true) ∧
      k.sec.dmr = false ∧ counter k.sec 3 < 63) :=
  ⟨⟨7, 8, 2 ^ 64 - 1, 1, by decide +kernel⟩, ⟨2 ^ 66 + 1, 1, 0, by decide +kernel⟩,
   ⟨memBase, issOf memBase, atIssue _ _ _ (by decide +kernel), all_stand _ (by decide +kernel), by decide +kernel, by decide +kernel⟩⟩

def getOk {α β : Type} (x : Except α β) (d : β) : β := x.toOption.getD d
theorem getOk_is {α β : Type} (x : Except α β) (d : β) (h : x.isOk = true) : x = .ok (getOk x d) :=
  match x, h with
  | .ok _, _ => rfl

/-- A shape record of rank 1 at 0x700000: EXTENT 32, STRIDE 4, elements of 4 bytes at `base`; the coordinates of lanes 0 and 1 are the last,
31, and the one before. -/
def shapeBase (two : Bool) (at_ : Nat) : State :=
  withV [(0, 12, 31), (1, 12, 30)]
    { (if two then twoBase else memBase) with mem := writeNat memBase.mem 0x20700000 128 (0x88 + (32 <<< 224) + (4 <<< 448) + (at_ <<< 896)) }
def shape32 (at_ : Nat) : Shape :=
  { meta_ := 0, base := at_, stride := [4, 0, 0, 0, 0, 0, 0], dim := [32, 0, 0, 0, 0, 0, 0], tile := [0, 0, 0, 0, 0, 0, 0]
    spel := 0, sparse := false, permit := false, perm := 0, esize := 4, rank := 1, resv := true }
def shapeRead (two : Bool) (at_ : Nat) : Shape × State := getOk (recordRead (issOf (shapeBase two at_)) (shapeBase two at_) 0x700000) (shape32 at_, base)
theorem shapeRead_is (two : Bool) (at_ : Nat) (h : (shapeRead two at_).1 = shape32 at_)
    (h' : (recordRead (issOf (shapeBase two at_)) (shapeBase two at_) 0x700000).isOk = true) :
    recordRead (issOf (shapeBase two at_)) (shapeBase two at_) 0x700000 = .ok (shape32 at_, (shapeRead two at_).2) := by
  rw [getOk_is _ (shape32 at_, base) h']
  show Except.ok (shapeRead two at_) = _
  rw [← h]

/-- The team's own scratchpad, by its generic address. -/
def coreWindow : Nat := 0xFC00000000000000

theorem wit_ShapedAccess :
    (∃ s s' k r, let w := decide (r.esize = 8)
      (k.th.kpair 30).toNat = 0x700000 ∧ recordRead k s 0x700000 = .ok (r, s') ∧ r.ok false false = true ∧ (∀ l ∈ k.th.lanes k.act, outside k r 12 l = none) ∧
      (let es := (k.th.lanes k.act).map (fun l => ({ lane := l, a := shapeAddr k r 12 l, bad := false, data := 0, data2 := 0 } : Elem))
       AtIssue s k (.ldt false 20 15 12 0) ⟨false, [wsel w 20], [(12, r.rank)]⟩ ∧ pairDst w 20 = true ∧
         ∀ x ∈ s'.readyAll k .load none r.esize es, stands x.2 = true) ∧
      (let es := (k.th.lanes k.act).map (fun l =>
         ({ lane := l, a := shapeAddr k r 12 l, bad := false, data := BitVec.ofNat 64 (shapeWords k r 12 l (k.th.src w l 20)), data2 := 0 } : Elem))
       AtIssue s k (.stt 20 15 12 0) ⟨true, [], [wsel w 20, (12, r.rank)]⟩ ∧ pairSrc w 20 = true ∧
         (∀ x ∈ s'.readyAll k .store none r.esize es, stands x.2 = true) ∧ (apart false (s'.readyAll k .store none r.esize es)).length ≤ 1) ∧
      k.sec.dmr = false ∧ counter k.sec 3 < 63) ∧
    (∃ s s' k r x y t, let w := decide (r.esize = 8)
      (k.th.kpair 30).toNat = 0x700000 ∧ recordRead k s 0x700000 = .ok (r, s') ∧ r.ok false false = true ∧ (∀ l ∈ k.th.lanes k.act, outside k r 12 l = none) ∧
      (let es := (k.th.lanes k.act).map (fun l =>
         ({ lane := l, a := shapeAddr k r 12 l, bad := false, data := BitVec.ofNat 64 (shapeWords k r 12 l (k.th.src w l 20)), data2 := 0 } : Elem))
       AtIssue s k (.stt 20 15 12 0) ⟨true, [], [wsel w 20, (12, r.rank)]⟩ ∧ pairSrc w 20 = true ∧
         (∀ x ∈ s'.readyAll k .store none r.esize es, stands x.2 = true) ∧ apart false (s'.readyAll k .store none r.esize es) = x :: y :: t) ∧
      k.sec.dmr = false ∧ counter k.sec 3 < 63 ∧ k.rec? = none) := by
  let s := shapeBase true coreWindow
  let k := issOf s
  obtain ⟨x, y, t, h⟩ := two_of (apart false ((shapeRead true coreWindow).2.readyAll k .store none 4 ((k.th.lanes k.act).map (fun l =>
    ({ lane := l, a := shapeAddr k (shape32 coreWindow) 12 l, bad := false, data := BitVec.ofNat 64 (shapeWords k (shape32 coreWindow) 12 l (k.th.src false l 20)), data2 := 0 } : Elem)))))
    (by decide +kernel)
  exact ⟨⟨shapeBase false 0x500000, (shapeRead false 0x500000).2, issOf (shapeBase false 0x500000), shape32 0x500000, by decide +kernel,
      shapeRead_is _ _ (by decide +kernel) (by decide +kernel), by decide +kernel, by decide +kernel,
      ⟨atIssue _ _ _ (by decide +kernel), by decide +kernel, all_stand _ (by decide +kernel)⟩,
      ⟨atIssue _ _ _ (by decide +kernel), by decide +kernel, all_stand _ (by decide +kernel), by decide +kernel⟩, by decide +kernel, by decide +kernel⟩,
    s, (shapeRead true coreWindow).2, k, shape32 coreWindow, x, y, t, by decide +kernel,
      shapeRead_is _ _ (by decide +kernel) (by decide +kernel), by decide +kernel, by decide +kernel,
      ⟨atIssue _ _ _ (by decide +kernel), by decide +kernel, all_stand _ (by decide +kernel), h⟩, by decide +kernel, by decide +kernel, by decide +kernel⟩

/-- What MatReady asks, tested. -/
def matReady (m : MatKind) (i : Instr) (s : State) (d a b : Sel) : Bool :=
  let k := issOf s
  let there (l : List Nat) : Bool := !s.ownRemote k (.team k.team.tid 0) 1 && touches (touch s k.team.tid l)
  s.iss?.isSome && i.wellFormed && k.act != 0
    && there (((groupsOf k.act k.th.groups).map (fun g => (recAt k b g, 16))).flatMap (fun r => rangeLines r.1 r.2))
    && (groupsOf k.act k.th.groups).all (fun g => (matOpnd m k d.toNat a.toNat g (recAt k b g) (recIn k b g)).isNone)
    && (regFault k.th k.act ⟨true, [], (matPasses k b).flatMap (fun p => [(d, (m.runs p.r).1), (a, (m.runs p.r).2)]) ++ [(b, 1)]⟩).isNone
    && (List.range 64).all (fun i => decide ((tget 0 k.sec.bmap i).toNat < 8))
    && (matPasses k b).all (fun p => m == .mma || (badSlot k.sec p).isNone)
    && there (((matPasses k b).flatMap (fun p => m.scales p.r ++ m.tapsUsed k.sec p.r)).flatMap (fun r => rangeLines r.1 r.2))
    && (s.failedIn k.team.tid (m.reads k.sec (matPasses k b))).isNone
    && (matPasses k b).all (fun p => !s.copyReads k p.r.tap (1024 * (topBranch k.sec (matK p.r.afmt) + 1)))

theorem matReady_is (m : MatKind) (i : Instr) (s : State) (d a b : Sel) (h : matReady m i s d a b = true) : MatReady m i s (issOf s) d a b := by
  simp only [matReady, Bool.and_eq_true] at h
  obtain ⟨⟨⟨⟨⟨⟨⟨⟨⟨⟨h1, h2⟩, h3⟩, h4⟩, h5⟩, h6⟩, h7⟩, h8⟩, h9⟩, h11⟩, h10⟩ := h
  refine ⟨iss_is s h1, h2, by simpa using h3, present _ _ _ (by simpa only [Bool.and_eq_true] using h4), ?_, by simpa using h6, ?_, ?_, present _ _ _ (by simpa only [Bool.and_eq_true] using h9), by simpa using h11, ?_⟩
  · intro g hg
    simpa using (List.all_eq_true.1 h5) g hg
  · intro _ i hi
    simpa using (List.all_eq_true.1 h7) i (List.mem_range.2 hi)
  · intro hm p hp
    have := (List.all_eq_true.1 h8) p hp
    simpa [hm] using this
  · intro _ p hp
    simpa using (List.all_eq_true.1 h10) p hp

/-- A curve from 0 to 1 whose knots are 0, in slot 0. -/
def curve01 : Option CurveSlot := some ⟨0, toBytes 144 (0x3F800000 <<< 32)⟩
/-- An empty record at offset 0: h16 by h16, no scales. -/
def matBase : State := onSec (fun c => { c with slots := [(0, curve01)], tiles := [(0, ⟨[], 1, 0⟩)] }) base
/-- The tile of the west edge. -/
def westBase : State := onSec (fun c => { c with tiles := [(0, ⟨[], 2, 0⟩)] }) matBase
/-- q6 by q6 (R53). -/
def q6Base : State := onSec (fun c => { c with tiles := [(0, ⟨[], 1, 3⟩)] }) (onTeam (fun t => { t with scratch := writeNat t.scratch 0 16 0x33 }) base)
def laneBase : State := onSec (fun c => { c with tiles := [(0, ⟨[], 1, 0⟩)] }) (onLane none [])

theorem wit_MatrixMajors :
    (∃ s k, MatReady .mmad (.mmad false 32 0 0xC0) s k 32 0 0xC0 ∧ k.rec? = none ∧ emulated k 0xC0 = false) ∧
    (∃ s k, MatReady .mma (.mma false 32 0 0xC0) s k 32 0 0xC0 ∧ k.rec? = none ∧ emulated k 0xC0 = true) ∧
    (∃ s k, MatReady .mma (.mma false 32 0 0xC0) s k 32 0 0xC0 ∧ k.rec? ≠ none) ∧
    (∃ s k, MatReady .mmadg (.mmadg false 80 0 0xC0) s k 80 0 0xC0) ∧ ∃ s k, MatReady .mmadw (.mmadw false 96 0 0xC0) s k 96 0 0xC0 :=
  ⟨⟨matBase, _, matReady_is _ _ matBase _ _ _ (by decide +kernel), by decide +kernel, by decide +kernel⟩,
   ⟨q6Base, _, matReady_is _ _ q6Base _ _ _ (by decide +kernel), by decide +kernel, by decide +kernel⟩,
   ⟨laneBase, _, matReady_is _ _ laneBase _ _ _ (by decide +kernel), by decide +kernel⟩,
   ⟨westBase, _, matReady_is _ _ westBase _ _ _ (by decide +kernel)⟩, matBase, _, matReady_is _ _ matBase _ _ _ (by decide +kernel)⟩

/-- The last register before the run, and the first after it. -/
theorem wit_MatrixFrame : ∃ (m : MatKind) (d x y : Nat) (r : MatRec), x < 256 ∧ y < 256 ∧ d + 64 ≤ 256 ∧ x + 1 = d ∧ d + (m.runs r).1 = y :=
  ⟨.mma, 32, 31, 64, ⟨0, 0, 16, false, false, 0, 0, 0⟩, by decide⟩

/-- The last 16, 144 and 64 bytes of the scratchpad. -/
theorem wit_MatrixTables :
    (∃ s k r, AtIssue s k (.mldn 184 0xC0) ⟨true, [], [(184, if r.bfmt = 9 then 4 else 8), (0xC0, 1)]⟩ ∧ k.rec? = none ∧
      recPlaced k.team (k.th.kreg 0).toNat = true ∧ Present s k (rangeLines (k.th.kreg 0).toNat 16) ∧ (k.th.kreg 0).toNat + 16 = k.team.scratchSize ∧
      s.failedIn k.team.tid [((k.th.kreg 0).toNat, 16)] = none ∧
      MatRec.of (readNat k.team.scratch (k.th.kreg 0).toNat 16) = some r ∧ 184 + (if r.bfmt = 9 then 4 else 8) ≤ 192) ∧
    (∃ s k, State.iss? s = some k ∧ (Instr.curve 7 0xC0).wellFormed = true ∧ k.path ≠ 0 ∧ k.rec? = none ∧ (k.th.kreg 0).toNat % 16 = 0 ∧
      (k.th.kreg 0).toNat + 144 = k.team.scratchSize ∧ Present s k (rangeLines (k.th.kreg 0).toNat 144) ∧ s.failedIn k.team.tid [((k.th.kreg 0).toNat, 144)] = none) ∧
    (∃ s k, State.iss? s = some k ∧ (Instr.bmap 0xC0).wellFormed = true ∧ k.path ≠ 0 ∧ k.rec? = none ∧ (k.th.kreg 0).toNat % 64 = 0 ∧
      (k.th.kreg 0).toNat + 64 = k.team.scratchSize ∧ Present s k (rangeLines (k.th.kreg 0).toNat 64) ∧ s.failedIn k.team.tid [((k.th.kreg 0).toNat, 64)] = none) :=
  ⟨⟨withK [(0, 0x4FFF0)] base, issOf (withK [(0, 0x4FFF0)] base), ⟨0, 0, 16, false, false, 0, 0, 0⟩, atIssue _ _ _ (by decide +kernel), by decide +kernel, by decide +kernel,
    present _ _ _ (by decide +kernel), by decide +kernel, rfl, rfl, by decide +kernel⟩,
   ⟨withK [(0, 0x4FF70)] base, _, iss_is _ (by decide +kernel), by decide +kernel, by decide +kernel, by decide +kernel, by decide +kernel, by decide +kernel,
    present _ _ _ (by decide +kernel), rfl⟩,
   ⟨withK [(0, 0x4FFC0)] base, _, iss_is _ (by decide +kernel), by decide +kernel, by decide +kernel, by decide +kernel, by decide +kernel, by decide +kernel,
    present _ _ _ (by decide +kernel), rfl⟩⟩
/-- Lane 0's pixel is (3, 3), covered, in a 4 × 4 tile at offset 0 of one layer. -/
def pixBase : State := withV [(0, 20, 0x40003003)] (onTh (fun th => { th with path := 1 }) base)
def tile44 : RTile := ⟨0, 4, 4, 1⟩

theorem pixels_in (k : Iss) (t : RTile) (a : Sel) (layer : Option Nat) (s : State) (f : Pixel → Bool) (size : Nat) (rd : Bool) (off : Pixel → Nat)
    (h : ((pixelsOf k t a layer).all (fun p => p.bad.isNone && (!f p ||
      let e : Elem := { lane := p.lane, a := (coreAddr k.team (off p)).toNat, bad := false, data := 0, data2 := 0 }
      placed (s.eccOf rd size e (s.readyAt k .atom none size e))))) = true) : pixelsIn k t a layer s f size rd off := by
  refine ⟨fun p hp => ?_, fun p hp hf => ?_⟩
  · have := (List.all_eq_true.1 h) p hp
    simp only [Bool.and_eq_true, Option.isNone_iff_eq_none] at this
    exact this.1
  · have := (List.all_eq_true.1 h) p hp
    simp only [Bool.and_eq_true, Bool.or_eq_true, hf, Bool.not_true, Bool.false_eq_true, false_or] at this
    exact this.2

/-- A block whose reserved bits are 0 and a token of the tile's last sample but one; the four corners' tile. -/
theorem wit_Rendering :
    (∃ s k, AtIssue s k (.rast false 185 0xE4 0xE0) ⟨false, [(185, 7)], [(0xE4, 12), (0xE0, 1)]⟩ ∧ k.rec? = none ∧ rastFormed k 0xE4 0xE0 ∧
      (k.th.kreg 32).toNat = tileW 0 * tileH 0) ∧
    (∃ s k t, RTile.of k.team (k.th.kreg 0).toNat = some t ∧ AtIssue s k (.dtest 6 20 0xC0) ⟨true, [], [(20, 4), (0xC0, 1)]⟩ ∧ pixelsOf k t 20 none ≠ [] ∧
      pixelsIn k t 20 none s (fun _ => true) 4 true (fun x => t.depth x.layer x.i)) ∧
    (∃ s k t, RTile.of k.team (k.th.kreg 0).toNat = some t ∧ AtIssue s k (.blend 3 20 0xC0) ⟨true, [], [(20, 3), (0xC0, 1)]⟩ ∧ (pixelsOf k t 20 none).any Pixel.cov = true ∧
      pixelsIn k t 20 none s Pixel.cov 8 true (fun x => t.colour x.layer x.i)) ∧
    (∃ s k t, RTile.of k.team (k.th.kreg 0).toNat = some t ∧ AtIssue s k (.pstore 0 20 0xC0) ⟨true, [], [(20, 3), (0xC0, 1)]⟩ ∧ pixelsOf k t 20 (some 0) ≠ [] ∧
      pixelsIn k t 20 (some 0) s (fun _ => true) 8 false (fun x => t.prov x.layer x.i)) := by
  refine ⟨⟨withK [(32, 16)] base, _, atIssue (withK [(32, 16)] base) _ _ (by decide +kernel), by decide +kernel, ?_, by decide +kernel⟩,
    ⟨pixBase, _, tile44, rfl, atIssue pixBase _ _ (by decide +kernel), ?_, pixels_in _ _ _ _ _ _ _ _ _ (by decide +kernel)⟩,
    ⟨pixBase, _, tile44, rfl, atIssue pixBase _ _ (by decide +kernel), by decide +kernel, pixels_in _ _ _ _ _ _ _ _ _ (by decide +kernel)⟩,
    ⟨pixBase, _, tile44, rfl, atIssue pixBase _ _ (by decide +kernel), ?_, pixels_in _ _ _ _ _ _ _ _ _ (by decide +kernel)⟩⟩
  · exact (by decide +kernel : (let k := issOf (withK [(32, 16)] base)
      let w (i : Nat) : Nat := (rastBlock k 0xE4).getD i 0
      w 9 < 2 ^ 30 ∧ w 10 < 8 ∧ w 11 % 2 = 0 ∧ (k.th.kreg (uniNo 0xE0)).toNat ≤ tileW (w 11) * tileH (w 11)))
  · have h : (pixelsOf (issOf pixBase) tile44 20 none).isEmpty = false := by decide +kernel
    intro e; rw [e] at h; cases h
  · have h : (pixelsOf (issOf pixBase) tile44 20 (some 0)).isEmpty = false := by decide +kernel
    intro e; rw [e] at h; cases h

/-- A ring of one record at offset 4,096, one record in it. -/
def ringBase : State :=
  onTeam (fun t => { t with scratch := writeNat t.scratch 4096 4 1 }) (withK [(1, 8192), (2, 4096)] base)

theorem wit_EventRings :
    (∃ s k o, AtPath s k (.resid 0xC0) ⟨true, [], [(0xC0, 4)]⟩ ∧ k.rec? = none ∧ residOps k 0xC0 = some o ∧ (0xC0 : Sel).toNat < 0xF0 ∧
      (∀ l ∈ o.lines, s.copyReads k (128 * l) 128 = false) ∧ Present s k o.lines) ∧
    (∃ s k base cap, AtIssue s k (.evpop 188 0xC2) ⟨false, [(188, 4)], [(0xC2, 1)]⟩ ∧ ringOf k.team (k.th.kreg 2).toNat = some (base, cap) ∧
      (let sc := k.team.scratch
       let head := readNat sc (base + 4) 4
       let got := Nat.min (k.th.lanes k.act).length ((readNat sc base 4 + 2 ^ 32 - head) % 2 ^ 32)
       got = 1 ∧ s.copyReads k base 16 = false ∧ Present s k (rangeLines base 16) ∧
         Present s k (((List.range got).map (fun i => (slotOff base cap (head + i), 16))).flatMap (fun x => rangeLines x.1 x.2)) ∧
         s.failedIn k.team.tid [(base, 16)] = none ∧ s.failedIn k.team.tid ((List.range got).map (fun i => (slotOff base cap (head + i), 16))) = none)) := by
  refine ⟨⟨ringBase, issOf ringBase, ⟨tile44, 8192, 1, 4096, 1, 0⟩, atPath _ _ _ (by decide +kernel), by decide +kernel, rfl, by decide, by decide +kernel, present _ _ _ (by decide +kernel)⟩,
    ringBase, issOf ringBase, 4096, 1, atIssue _ _ _ (by decide +kernel), rfl, by decide +kernel, by decide +kernel, present _ _ _ (by decide +kernel),
    present _ _ _ (by decide +kernel), rfl, rfl⟩

/-- What the lanes of a walk got, where each got something. -/
def okList {α : Type} (l : List (Nat × Except Stop α)) : List (Nat × α) :=
  l.filterMap (fun x => x.2.toOption.map (fun v => (x.1, v)))

theorem okList_is {α : Type} (l : List (Nat × Except Stop α)) (h : l.all (fun x => x.2.isOk) = true) :
    l = (okList l).map (fun x => (x.1, Except.ok x.2)) := by
  induction l with
  | nil => rfl
  | cons x l ih => 
    rw [List.all_cons, Bool.and_eq_true] at h
    rcases x with ⟨n, _ | v⟩
    · exact nomatch h.1
    · exact congrArg ((n, Except.ok v) :: ·) (ih h.2)

theorem walks_is {α : Type} (k : Iss) (s : State) (f : Nat → State → Walk α) (h : (walkLanes (k.th.lanes k.act) f s).1.all (fun x => x.2.isOk) = true) :
    walks k s f (okList (walkLanes (k.th.lanes k.act) f s).1) (walkLanes (k.th.lanes k.act) f s).2 := by
  unfold walks
  rw [← okList_is _ h]

/-- A texture of one h16 texel at 0x700000, its descriptor at offset 0; coordinates 0. -/
def texBase : State := onTeam (fun t => { t with scratch := writeNat t.scratch 0 16 (0x21100 + 0x700000 * 2 ^ 64) }) (onTh (fun th => { th with path := 1 }) base)
def tex1 : Texture := ⟨0x700000, 1, 0, false, 1, 1, 0, 0⟩
/-- A ray whose origin is not finite: it misses, so that routine 1 of the table at 0x700000 is called, at 0x400040. -/
def rayBase : State :=
  withV [(0, 30, 0x7F800000)] (withK [(2, 0x700000)] (onTh (fun th => { th with path := 1 }) { base with
    launches := [{ bootLaunch with pkt := { bootPacket with trdepth := 1 } }]
    mem := writeNat (writeNat base.mem 0x20700000 8 (2 * 2 ^ 24)) 0x20700010 8 0x400040 }))
def rayIss : Iss := issOf rayBase
def head1 : Nat × State := getOk (readEl rayIss ((rayIss.th.lowest rayIss.act).getD 0) 8 (rayIss.th.kpair 2).toNat none rayBase) (0, base)
def wins1 : List (Nat × Except Stop (Option Win)) × State := walkLanes (rayIss.th.lanes rayIss.act) (rayLane rayIss (.trace false 60 30 0xC0) 30 (rayIss.th.kpair 0).toNat true) head1.2
def entry1 (l : Nat) (s : State) : Walk Nat := match (okList wins1.1).find? (fun x => x.1 == l) with
  | some x => readEl rayIss l 8 ((rayIss.th.kpair 2).toNat + 8 + 8 * routineOf x.2) none s
  | none => .ok (0, s)
def targets1 : List (Nat × Except Stop Nat) × State := walkLanes (rayIss.th.lanes rayIss.act) entry1 wins1.2

theorem wit_SamplingAndTracing :
    (∃ s s' k t oks, AtIssue s k (.tex false 40 30 0xC0) ⟨false, [(40, 4)], [(30, 6), (0xC0, 1)]⟩ ∧ (k.th.kreg 0).toNat % 16 = 0 ∧
      (k.th.kreg 0).toNat + 16 ≤ k.team.scratchSize ∧ Present s k (rangeLines (k.th.kreg 0).toNat 16) ∧ s.failedIn k.team.tid [((k.th.kreg 0).toNat, 16)] = none ∧
      Texture.of (readNat k.team.scratch (k.th.kreg 0).toNat 16) = some t ∧ walks k s (texLane k 30 t) oks s') ∧
    (∃ s s' k t oks, AtIssue s k (.texg false 40 30 0xC0) ⟨false, [(40, 4)], [(30, 4), (0xC0, 1)]⟩ ∧ (k.th.kreg 0).toNat % 16 = 0 ∧
      (k.th.kreg 0).toNat + 16 ≤ k.team.scratchSize ∧ Present s k (rangeLines (k.th.kreg 0).toNat 16) ∧ s.failedIn k.team.tid [((k.th.kreg 0).toNat, 16)] = none ∧
      Texture.of (readNat k.team.scratch (k.th.kreg 0).toNat 16) = some t ∧ walks k s (texgLane k 30 t) oks s') ∧
    (∃ s s' k oks, AtIssue s k (.rayq false 40 30 0xC0) ⟨false, [(40, 4)], [(30, 8), (0xC0, 2)]⟩ ∧
      walks k s (rayLane k (.rayq false 40 30 0xC0) 30 (k.th.kpair 0).toNat false) oks s') ∧
    (∃ s s1 s2 s3 s4 k hv h la wins targets, AtIssue s k (.trace false 60 30 0xC0) ⟨false, [(30, 4)], [(30, 9), (0xC0, 4)] ++ (if h.preg = 0 then [] else [(60, h.preg)])⟩ ∧
      k.rec? = none ∧ k.sec.stack.length < 16 ∧ reuses k .call = false ∧ addrClass (k.th.kpair 2).toNat = 0 ∧ addrZeros (k.th.kpair 2).toNat = true ∧
      (k.th.kpair 2).toNat % 8 = 0 ∧ readEl k ((k.th.lowest k.act).getD 0) 8 (k.th.kpair 2).toNat none s = .ok (hv, s1) ∧ TraceHead.of hv = some h ∧
      (60 : Sel).toNat + h.preg ≤ 192 ∧ s1.launch? k.team.lid = some la ∧
      (∀ l ∈ k.th.lanes k.act, traceDepth k l < la.pkt.trdepth ∧ (k.th.vreg l (30 + 8)).toNat ≤ 4 * h.preg + h.pstk ∧ (traceDepth k l + 1) * h.pstk ≤ k.team.privSize) ∧
      walks k s1 (rayLane k (.trace false 60 30 0xC0) 30 (k.th.kpair 0).toNat true) wins s2 ∧ (∀ x ∈ wins, routineOf x.2 < h.count) ∧
      walks k s2 (fun l s => match wins.find? (fun x => x.1 == l) with
        | some x => readEl k l 8 ((k.th.kpair 2).toNat + 8 + 8 * routineOf x.2) none s
        | none => .ok (0, s)) targets s3 ∧
      budgetWord k s3 (BitVec.ofNat 64 ((least (targets.map Prod.snd)).getD 0))
        (maskOf ((targets.filter (fun x => x.2 == (least (targets.map Prod.snd)).getD 0)).map Prod.fst)) = .ok s4) := by
  refine ⟨⟨texBase, _, issOf texBase, tex1, _, atIssue _ _ _ (by decide +kernel), by decide +kernel, by decide +kernel, present _ _ _ (by decide +kernel), rfl, rfl,
      walks_is _ _ _ (by decide +kernel)⟩,
    ⟨texBase, _, issOf texBase, tex1, _, atIssue _ _ _ (by decide +kernel), by decide +kernel, by decide +kernel, present _ _ _ (by decide +kernel), rfl, rfl,
      walks_is _ _ _ (by decide +kernel)⟩,
    ⟨rayBase, _, rayIss, _, atIssue _ _ _ (by decide +kernel), walks_is _ _ _ (by decide +kernel)⟩, ?_⟩
  obtain ⟨s4, h4⟩ := ok_is (budgetWord rayIss targets1.2 (BitVec.ofNat 64 ((least ((okList targets1.1).map Prod.snd)).getD 0))
    (maskOf (((okList targets1.1).filter (fun x => x.2 == (least ((okList targets1.1).map Prod.snd)).getD 0)).map Prod.fst))) (by decide +kernel)
  have h1 : head1.1 = 0x2000000 := by decide +kernel
  have h2 : head1.2.launch? rayIss.team.lid = some { bootLaunch with pkt := { bootPacket with trdepth := 1 } } := by decide +kernel
  have h3 : readEl rayIss ((rayIss.th.lowest rayIss.act).getD 0) 8 (rayIss.th.kpair 2).toNat none rayBase = .ok head1 := getOk_is _ (0, base) (by decide +kernel)
  exact ⟨rayBase, head1.2, wins1.2, targets1.2, s4, rayIss, head1.1, ⟨0, 0, 2⟩, _, okList wins1.1, okList targets1.1, atIssue _ _ _ (by decide +kernel), by decide +kernel,
    by decide +kernel, by decide +kernel, by decide +kernel, by decide +kernel, by decide +kernel, h3, by rw [h1]; rfl, by decide +kernel, h2, by decide +kernel,
    walks_is _ _ _ (by decide +kernel), by decide +kernel, walks_is rayIss wins1.2 entry1 (by decide +kernel), h4⟩
/-- A barrier in the last 16 bytes of the scratchpad (k0), in phase 3, expecting 2 arrivals; k3 = 3, k4 = 4. -/
def barBase (cerr : Bool) : State :=
  onTeam (fun t => t.setTbar 0x4FFF0 { phase := 3, expa := 2, exps := 0, penda := 2, pends := 0, init := true, aerr := false, serr := false, cerr := cerr, resv := 0 })
    (withK [(0, 0x4FFF0), (1, 0xFFFFF), (2, 0x7FFFFFFF), (3, 3), (4, 4)] base)

theorem barrier_at (s : State) (k : Iss) (off : Nat) (h : (decide (off % 16 = 0) && decide (off + 16 ≤ k.team.scratchSize)
    && !s.ownRemote k (.team k.team.tid 0) 1 && touches (touch s k.team.tid (rangeLines off 16)) && (s.failedIn k.team.tid [(off, 16)]).isNone && (k.team.tbar off).init && decide ((k.team.tbar off).resv = 0)) = true) : BarrierAt s k off := by
  simp only [Bool.and_eq_true, decide_eq_true_eq, Bool.not_eq_true'] at h
  exact ⟨h.1.1.1.1.1.1, h.1.1.1.1.1.2, h.1.1.1.1.2, touch_ok _ h.1.1.1.2, by simpa using h.1.1.2, h.1.2, h.2⟩

theorem wit_TransactionBarriers :
    (∃ s k, AtSection s k (.tbinit 0xC0 0xC1 0xC2) ⟨true, [], [(0xC0, 1), (0xC1, 1), (0xC2, 1)]⟩ ∧ tbOff k 0xC0 % 16 = 0 ∧ tbOff k 0xC0 + 16 = k.team.scratchSize ∧
      once k 0xC1 ≠ 0 ∧ once k 0xC1 + 1 = 2 ^ 20 ∧ once k 0xC2 + 1 = 2 ^ 31 ∧ s.ownRemote k (.team k.team.tid 0) 1 = false ∧
      touch s k.team.tid (rangeLines (tbOff k 0xC0) 16) = .ok ∧ tbBusy k (tbOff k 0xC0) = false) ∧
    (∃ s k, State.iss? s = some k ∧ k.rec? = none ∧ k.path ≠ 0 ∧ BarrierAt s k (tbOff k 0xC0) ∧ (k.team.tbar (tbOff k 0xC0)).cerr = false ∧
      (k.team.tbar (tbOff k 0xC0)).phase = once k 0xC3 ∧ (k.team.tbar (tbOff k 0xC0)).phase ≠ once k 0xC4 ∧ once k 0xC3 < 16 ∧ once k 0xC4 < 16 ∧ once k 0xC2 < 2 ^ 31 ∧
      (Instr.tbexpect 0xC0 0xC2).wellFormed = true ∧ regFault k.th k.path ⟨true, [], [(0xC0, 1), (0xC2, 1)]⟩ = none ∧
      (Instr.tbarrive 0xC0).wellFormed = true ∧ regFault k.th k.path ⟨true, [], [(0xC0, 1)]⟩ = none ∧ s.performed k 1 = true ∧
      tbBusy k (tbOff k 0xC0) = false ∧ k.sec.releases = [] ∧ s.team? k.team.tid = some k.team ∧ s.sec? k.team.tid k.sec.role = some k.sec ∧ k.team.bank = .active ∧
      (Instr.tbwait 0xC0 0xC3).wellFormed = true ∧ regFault k.th k.path ⟨true, [], [(0xC0, 1), (0xC3, 1)]⟩ = none ∧
      (Instr.tbtest false 4 0xC0 0xC3).wellFormed = true ∧ regFault k.th k.path ⟨false, [(4, 1)], [(0xC0, 1), (0xC3, 1)]⟩ = none) ∧
    (∃ s k, State.iss? s = some k ∧ k.rec? = none ∧ k.path ≠ 0 ∧ BarrierAt s k (tbOff k 0xC0) ∧ (k.team.tbar (tbOff k 0xC0)).cerr = true) :=
  ⟨⟨barBase false, issOf (barBase false), atSection _ _ _ (by decide +kernel), by decide +kernel, by decide +kernel, by decide +kernel, by decide +kernel, by decide +kernel, by decide +kernel,
    touch_ok _ (by decide +kernel), by decide +kernel⟩,
   ⟨barBase false, issOf (barBase false), iss_is _ (by decide +kernel), by decide +kernel, by decide +kernel, barrier_at _ _ _ (by decide +kernel), by decide +kernel⟩,
   ⟨barBase true, issOf (barBase true), iss_is _ (by decide +kernel), by decide +kernel, by decide +kernel, barrier_at _ _ _ (by decide +kernel), by decide +kernel⟩⟩

def tb (penda : Nat) (pends : Int) : TBar := { phase := 15, expa := 2, exps := 5, penda := penda, pends := pends, init := true, aerr := false, serr := false, cerr := false, resv := 0 }
theorem wit_BarrierSteps :
    (tb 0 0).penda = 0 ∧ 1 < (tb 2 0).penda ∧ ((tb 1 7).penda = 1 ∧ (tb 1 7).pends ≠ 0) ∧ ((tb 1 0).penda = 1 ∧ (tb 1 0).pends = 0) ∧
    ((tb 1 2147483646).pends + 1 = 2147483647 ∧ (tb 1 2147483646).penda ≠ 0) ∧ ((tb 0 (-2147483647)).pends + -1 = -2147483648 ∧ (tb 0 (-2147483647)).pends + -1 ≠ 0) ∧
    ((tb 0 1).penda = 0 ∧ (tb 0 1).pends + -1 = 0) ∧ (tb 1 (-2147483648)).pends + -1 < -2147483648 ∧ 2147483647 < (tb 1 2147483647).pends + 1 := by decide

theorem wit_WaitsAndBarriers :
    (∃ s k, AtSection s k (.waitc 4 0) ⟨true, [], []⟩ ∧ counter k.sec 4 ≤ (0 : BitVec 6).toNat) ∧
    (∃ s k, AtSection s k (.waitc 4 0) ⟨true, [], []⟩ ∧ (0 : BitVec 6).toNat < counter k.sec 4) ∧
    (∃ s k, AtSection s k (.bar 3 1) ⟨true, [], []⟩ ∧ arrivedAt k.sec k.th.pc false = some true) ∧
    (∃ s k, AtSection s k (.bar 3 1) ⟨true, [], []⟩ ∧ arrivedAt k.sec k.th.pc false = some false) ∧
    (∃ s k, AtSection s k (.bar 3 1) ⟨true, [], []⟩ ∧ arrivedAt k.sec k.th.pc false = none ∧ rolesOk k.team 1 = true ∧ (1 : BitVec 4).getLsbD k.sec.role = true ∧
      (tget bar0 k.team.bcs 3).roles = 0) ∧
    (∃ s k, AtSection s k .gbar ⟨true, [], []⟩ ∧ arrivedAt k.sec k.th.pc true = some true) ∧
    (∃ s k, AtSection s k .gbar ⟨true, [], []⟩ ∧ arrivedAt k.sec k.th.pc true = some false) ∧
    (∃ s k, AtSection s k .gbar ⟨true, [], []⟩ ∧ arrivedAt k.sec k.th.pc true = none) ∧
    (∃ s k, AtSection s k .backoff ⟨true, [], []⟩) ∧
    (∃ (s : State) (t : Team) (c : Section) (r : Release), s.team? 0 = some t ∧ s.sec? 0 0 = some c ∧ t.bank = .active ∧ c.releases = [r] ∧
      s.olderPerformed t c none r.before r.scope = true) ∧
    (∃ (t : Team) (m : BitVec 4), (tget bar0 t.bcs 3).roles = 0 ∧ m ≠ 0) ∧ (∃ (t : Team) (m : BitVec 4), (tget bar0 t.bcs 3).roles = m ∧ m ≠ 0) :=
  ⟨⟨base, issOf base, atSection _ _ _ (by decide +kernel), by decide +kernel⟩,
   ⟨onSec (fun c => { c with outs := [⟨4, 1, false⟩] }) base, _, atSection _ _ _ (by decide +kernel), by decide +kernel⟩,
   ⟨onSec (fun c => { c with arrived := [(0x400000, false, 3, true)] }) base, _, atSection _ _ _ (by decide +kernel), by decide +kernel⟩,
   ⟨onSec (fun c => { c with arrived := [(0x400000, false, 3, false)] }) base, _, atSection _ _ _ (by decide +kernel), by decide +kernel⟩,
   ⟨base, issOf base, atSection _ _ _ (by decide +kernel), by decide +kernel, by decide +kernel, by decide +kernel, by decide +kernel⟩,
   ⟨onSec (fun c => { c with arrived := [(0x400000, true, 0, true)] }) base, _, atSection _ _ _ (by decide +kernel), by decide +kernel⟩,
   ⟨onSec (fun c => { c with arrived := [(0x400000, true, 0, false)] }) base, _, atSection _ _ _ (by decide +kernel), by decide +kernel⟩,
   ⟨base, issOf base, atSection _ _ _ (by decide +kernel), by decide +kernel⟩,
   ⟨base, issOf base, atSection _ _ _ (by decide +kernel)⟩,
   ⟨onSec (fun c => { c with releases := [⟨5, 1, .bar 3 1, 0x400000⟩] }) base, _, _, ⟨5, 1, .bar 3 1, 0x400000⟩, rfl, rfl, rfl, rfl, by decide +kernel⟩,
   ⟨bootTeam, 1, by decide +kernel⟩, ⟨{ bootTeam with bcs := [(3, { bar0 with roles := 1 })] }, 1, by decide +kernel⟩⟩

/-- A command block of 128 bytes from 0x500000 to offset 0; a source of a bound region; an entry of the region table. -/
def copyBase : State := withK [(0, 0x500000), (3, 128)] base
def bindBase : State := withK [(0, 0x500000), (2, 0x4FF80), (3, 1)] base
def boundBase : State := onCore (fun x => { x with regions := [(0, ⟨0x500000, 0, true, false, false, 0, 1⟩)] }) base

theorem wit_CopiesAndWindows :
    (∃ i form a s k, CopyRule i form a ∧ AtSection s k i ⟨true, [], [(a, 8)]⟩ ∧ (form = 2 → reduceTy (gType k.th.gmode) = true) ∧
      (s.coreAt k.team.die k.team.core).preempt = false ∧ counter k.sec (copyEntry k s form a).cls < 63 ∧
      copyRoom k s ∧ (copyEntry k s form a).lines ≠ [] ∧
      startBoundLines s (copyEntry k s form a).ltid (copyEntry k s form a).lines = some s ∧
      (∀ u, s.team? (copyEntry k s form a).ltid = some u → ∀ l ∈ (copyEntry k s form a).lines, (u.line l).count < 3)) ∧
    (∃ s k i, AtSection s k (.bind 0xC0) ⟨true, [], [(0xC0, 4)]⟩ ∧ bindFits k s 0xC0 ∧
      (List.range 32).find? (fun i => (s.coreAt k.team.die k.team.core).regions.all (fun e => e.1 != i)) = some i) ∧
    (∃ s k i r, AtSection s k (.unbind 0xC0) ⟨true, [], [(0xC0, 1)]⟩ ∧
      (s.coreAt k.team.die k.team.core).regions.find? (fun e => e.2.v && e.2.tid == k.team.tid && e.2.soff == (k.th.kreg 0).toNat) = some (i, r) ∧
      (∀ c ∈ (s.coreAt k.team.die k.team.core).copyq, ¬ (c.form = 3 ∧ c.tid = k.team.tid ∧ c.region = some i))) := by
  refine ⟨⟨_, _, _, copyBase, issOf copyBase, .tcopy 0xC0, atSection _ _ _ (by decide +kernel), by decide +kernel, by decide +kernel, by decide +kernel, .inl (by decide +kernel),
      by decide +kernel, by decide +kernel, ?_⟩,
    ⟨bindBase, issOf bindBase, 0, atSection _ _ _ (by decide +kernel), by unfold bindFits; decide +kernel, by decide +kernel⟩,
    ⟨boundBase, issOf boundBase, 0, ⟨0x500000, 0, true, false, false, 0, 1⟩, atSection _ _ _ (by decide +kernel), by decide +kernel, by decide +kernel⟩⟩
  intro u h
  have e : copyBase.team? (copyEntry (issOf copyBase) copyBase 0 0xC0).ltid = some (issOf copyBase).team := by decide +kernel
  rw [e] at h
  cases h
  decide +kernel

theorem wit_FencesAndCasts :
    (∃ s k, AtPath s k (.fence 5) ⟨true, [], []⟩ ∧ s.performed k (5 : BitVec 3).toNat = true) ∧
    (∃ s k p, AtPath s k (.fenceRp 5 0xC0) ⟨true, [], [(0xC0, 2)]⟩ ∧
      s.checkPlace k .load 1 { lane := (k.th.lowest k.path).getD 0, a := (k.th.kpair 0).toNat, bad := false, data := 0, data2 := 0 } = .ok p ∧
      drained s k.team.ctx (5 : BitVec 3).toNat s.nextOp = true ∧ k.sec.drains = [] ∧ s.performed k (5 : BitVec 3).toNat = true) ∧
    (∃ s k, AtIssue s k (.sysflush 0xC0 0xC3) ⟨true, [], [(0xC0, 2), (0xC3, 1)]⟩ ∧ AtIssue s k (.sysinv 0xC0 0xC3) ⟨true, [], [(0xC0, 2), (0xC3, 1)]⟩ ∧
      addrClass (k.th.kpair 0).toNat = 0 ∧ addrZeros (k.th.kpair 0).toNat = true ∧ counter k.sec 4 < 63) ∧
    (∃ s k, AtIssue s k (.sptest 4 2) ⟨false, [(4, 1)], [(2, 2)]⟩) ∧
    (∃ s k, AtIssue s k (.spcast 3 4 2) ⟨false, [(4, 2)], [(2, 1)]⟩ ∧ ∀ l ∈ k.th.lanes k.act, (castAddr k 3 (k.th.src32 l 2).toNat).2 = false) ∧
    (∃ s k, AtIssue s k (.spcastOff 0 4 2) ⟨false, [(4, 1)], [(2, 2)]⟩ ∧ ∀ l ∈ k.th.lanes k.act, addrClass (k.th.src64 l 2).toNat = (0 : BitVec 3).toNat ∧
      s.spaceFault k.team (k.th.src64 l 2).toNat 1 = false ∧ ((0 : BitVec 3) = 0 → bits (k.th.src64 l 2).toNat 32 17 = 0)) := by
  obtain ⟨p, hp⟩ := ok_is (copyBase.checkPlace (issOf copyBase) .load 1
    { lane := ((issOf copyBase).th.lowest (issOf copyBase).path).getD 0, a := ((issOf copyBase).th.kpair 0).toNat, bad := false, data := 0, data2 := 0 }) (by decide +kernel)
  exact ⟨⟨copyBase, _, atPath copyBase _ _ (by decide +kernel), by decide +kernel⟩,
    ⟨copyBase, _, p, atPath copyBase _ _ (by decide +kernel), hp, by decide +kernel, by decide +kernel, by decide +kernel⟩,
    ⟨copyBase, _, atIssue copyBase _ _ (by decide +kernel), atIssue _ _ _ (by decide +kernel), by decide +kernel, by decide +kernel, by decide +kernel⟩,
    ⟨base, _, atIssue base _ _ (by decide +kernel)⟩,
    ⟨base, _, atIssue base _ _ (by decide +kernel), by decide +kernel⟩,
    base, _, atIssue base _ _ (by decide +kernel), by decide +kernel⟩

theorem wit_SoftwareTraps : ∃ s k c, AtIssue s k (.trap 0x2A) ⟨true, [], []⟩ ∧ k.rec? = none ∧ s.sec? k.team.tid k.sec.role = some c ∧ c.taps = [] ∧ c.hmode = false ∧
    (s.ctxAt k.team.ctx).trapent ≠ 0 :=
  ⟨base, issOf base, (issOf base).sec, atIssue _ _ _ (by decide +kernel), by decide +kernel, by decide +kernel, by decide +kernel, by decide +kernel, by decide +kernel⟩

theorem wit_DoubleFaults :
    (∃ (s : State) (t : Team) (c : Section), s.sec? t.tid 0 = some c ∧ c.hmode = true ∧ (s.ctxAt t.ctx).ended = false) ∧
    (∃ (s : State) (t : Team) (c : Section), s.sec? t.tid 0 = some c ∧ (s.ctxAt t.ctx).trapent = 0 ∧ (s.ctxAt t.ctx).ended = false) :=
  ⟨⟨onSec (fun c => { c with hmode := true }) base, bootTeam, _, rfl, rfl, by decide +kernel⟩,
   ⟨base.modCtx 0 (fun x => { x with trapent := 0 }), bootTeam, (issOf base).sec, by decide +kernel, by decide +kernel, by decide +kernel⟩⟩

theorem wit_HoldsAndAsserts :
    (∃ s k, AtPath s k .brkpt ⟨true, [], []⟩ ∧ k.rec? = none) ∧
    (∃ s k, AtPath s k .brkpt ⟨true, [], []⟩ ∧ k.rec?.isSome = true ∧ mayTrap k s = true) ∧ (∃ s k, AtIssue s k (.assert 0xEE) (usesUnlatched k ⟨true, [], [(0xEE, 2)]⟩)) ∧
    (∃ s k, AtSection s k .hold ⟨true, [], []⟩) :=
  ⟨⟨base, _, atPath base _ _ (by decide +kernel), by decide +kernel⟩, ⟨onLane none [], issOf (onLane none []), atPath _ _ _ (by decide +kernel), by decide +kernel, by decide +kernel⟩,
   ⟨base, issOf base, atIssue _ _ _ (by decide +kernel)⟩, ⟨base, issOf base, atSection _ _ _ (by decide +kernel)⟩⟩

/-- A section in its handler, entered as given; its fault's lanes are those of `m`, and `skip` goes on as `sk` says. -/
def handlerOf (how : EntryHow) (prev : SecState) (sk : SkipHow) : HandlerState := ⟨3, 0, prev, 0x27, how, 0x400000, 0x41, sk, none, false⟩
def inHandler (h : HandlerState) (redir : Bool) (m : Mask) : State :=
  onSec (fun c => { c with hmode := true, state := .handler, hs := some h, redir := redir, trapMask := m, trapPc := 0x400000 }) base
/-- What the clauses on a section in its handler ask. -/
structure Handles (s : State) (k : Iss) (h : HandlerState) : Prop where
  issuer : s.iss? = some k
  whole  : k.rec? = none
  hmode  : k.sec.hmode = true
  entry  : k.sec.hs = some h
theorem handles (h : HandlerState) (redir : Bool) (m : Mask) (ok : ((inHandler h redir m).iss?.isSome && (issOf (inHandler h redir m)).rec?.isNone
    && (issOf (inHandler h redir m)).sec.hmode && decide ((issOf (inHandler h redir m)).sec.hs = some h)) = true) :
    Handles (inHandler h redir m) (issOf (inHandler h redir m)) h := by
  simp only [Bool.and_eq_true, Option.isNone_iff_eq_none, decide_eq_true_eq] at ok
  exact ⟨iss_is _ ok.1.1.1, ok.1.1.2, ok.1.2, ok.2⟩

theorem wit_HandlerReturns :
    (∃ s k h, Handles s k h ∧ h.how ≠ .ui ∧ k.sec.redir = true) ∧
    (∃ s k h, Handles s k h ∧ h.how ≠ .ui ∧ k.sec.redir = false ∧ h.prev = .ejectedPending) ∧
    (∃ s k h, Handles s k h ∧ h.how ≠ .ui ∧ k.sec.redir = false ∧ h.prev ≠ .ejectedPending ∧ h.retry = none ∧ k.sec.trapMask &&& h.path ≠ 0 ∧
      k.sec.trapMask &&& h.path ≠ h.path ∧ h.skip = .next) ∧
    (∃ s k h, Handles s k h ∧ h.how ≠ .ui ∧ k.sec.redir = false ∧ h.prev ≠ .ejectedPending ∧ h.retry = none ∧ k.sec.trapMask &&& h.path = 0 ∧ h.skip = .to 8) ∧
    (∃ s k h, Handles s k h ∧ h.how ≠ .ui ∧ k.sec.redir = false ∧ h.skip = .ret) ∧
    (∃ s k h, Handles s k h ∧ h.how = .ui) ∧
    (∃ (s : State) (k : Iss), s.iss? = some k ∧ k.rec?.isSome = true) ∧
    (∃ (s : State) (k : Iss), s.iss? = some k ∧ k.rec? = none ∧ k.sec.hmode = false) ∧
    (∃ (h : HandlerState) (c : Section), h.depth ≤ c.stack.length) :=
  ⟨⟨_, _, _, handles (handlerOf .trap .running .next) true 1 (by decide +kernel), by decide, by decide +kernel⟩,
   ⟨_, _, _, handles (handlerOf .trap .ejectedPending .next) false 1 (by decide +kernel), by decide, by decide +kernel, rfl⟩,
   ⟨_, _, _, handles (handlerOf .trap .running .next) false 1 (by decide +kernel), by decide, by decide +kernel, by decide, rfl, by decide +kernel, by decide +kernel, rfl⟩,
   ⟨_, _, _, handles (handlerOf .trap .running (.to 8)) false 0 (by decide +kernel), by decide, by decide +kernel, by decide, rfl, by decide +kernel, rfl⟩,
   ⟨_, _, _, handles (handlerOf .trap .running .ret) false 1 (by decide +kernel), by decide, by decide +kernel, rfl⟩,
   ⟨_, _, _, handles (handlerOf .ui .running .next) false 1 (by decide +kernel), rfl⟩,
   ⟨onLane none [], _, iss_is _ (by decide +kernel), by decide +kernel⟩,
   ⟨base, _, iss_is _ (by decide +kernel), by decide +kernel, by decide +kernel⟩,
   ⟨handlerOf .trap .running .next, (issOf base).sec, by decide +kernel⟩⟩

/-- k1:k0 name context 4,095 and vector 63, k5:k4 a context of a peer; the peer, 7, with its route, or none. -/
def sendBase : State := withK [(0, 4095), (1, 63), (4, 0x8000)] base
def peerBase : State :=
  ({ sendBase with peers := [7], mem := writeNat base.mem 0x20500000 8 (2 ^ 63 + 9 * 2 ^ 16 + 7) }).modCtx 0 (fun x => { x with routebase := 0x20500000, routecnt := 1 })
/-- A request of the section that waits to be posted. -/
def svcReqOf : SvcWait := ⟨5, waitingReq 7 bootTeam 0 true 0 [toBytes 32 0] 5⟩
def waitBase : State := onSec (fun c => { c with svcPending := [svcReqOf] }) base
theorem wit_Services :
    (∃ s k, k.rec? = none ∧ AtIssue s k (.svc true 0xFF 0xFF) (usesUnlatched k ⟨true, [], []⟩) ∧
      counter k.sec 4 < 63 ∧ AtIssue s k (.svc false 0 0) (usesUnlatched k ⟨true, [], []⟩)) ∧
    (∃ s k, k.rec?.isSome = true ∧ AtIssue s k (.svc true 0xFF 0xFF) (usesUnlatched k ⟨true, [], []⟩)) ∧
    (∃ (s : State) (t : Team) (c : Section) (w : SvcWait) (blocks : List (List Byte)), s.team? 0 = some t ∧ s.sec? 0 0 = some c ∧ c.svcPending = [w] ∧
      w.req = waitingReq 7 t 0 true 0 blocks 5 ∧ s.olderPerformed t c none w.before 4 = true ∧ reqFits (s.sliceAt t.die (svcSlice t)) blocks.length = true) ∧
    (∃ s k p dev, AtIssue s k (.uisend 4 0xC4) ⟨false, [(4, 1)], [(0xC4, 4)]⟩ ∧ s.performed k 3 = true ∧ k.sec.peerSend = none ∧
      s.route? k.team.ctx ((k.th.kreg 4).toNat % 0x8000) = some (p, dev) ∧ s.peers.contains dev = true) ∧
    (∃ s k, AtIssue s k (.uisend 4 0xC0) ⟨false, [(4, 1)], [(0xC0, 4)]⟩ ∧ s.performed k 3 = true ∧ k.sec.peerSend = none ∧ (k.th.kreg 0).toNat < 0x8000 ∧ (k.th.kreg 1).toNat < 64) ∧
    (∃ s k, AtIssue s k (.uisend 4 0xC4) ⟨false, [(4, 1)], [(0xC4, 4)]⟩ ∧ s.performed k 3 = true ∧ k.sec.peerSend = none ∧ 0x8000 ≤ (k.th.kreg 4).toNat ∧
      (k.th.kreg 4).toNat < 2 ^ 16 ∧ (k.th.kreg 5).toNat < 64 ∧
      ∀ p dev, s.route? k.team.ctx ((k.th.kreg 4).toNat % 0x8000) = some (p, dev) → s.peers.contains dev = false) ∧
    (∃ s k, AtSection s k .idemEnter ⟨true, [], []⟩ ∧ k.sec.idem = false ∧ k.sec.stack = [] ∧ k.sec.hmode = false) ∧
    (∃ s k, AtSection s k .idemLeave ⟨true, [], []⟩ ∧ k.sec.idem = true) :=
  ⟨⟨base, issOf base, by decide +kernel, atIssue _ _ _ (by decide +kernel), by decide +kernel, atIssue _ _ _ (by decide +kernel)⟩,
   ⟨onLane none [], issOf (onLane none []), by decide +kernel, atIssue _ _ _ (by decide +kernel)⟩,
   ⟨waitBase, _, _, svcReqOf, [toBytes 32 0], rfl, rfl, rfl, by decide +kernel, by decide +kernel, by decide +kernel⟩,
   ⟨peerBase, issOf peerBase, 9, 7, atIssue _ _ _ (by decide +kernel), by decide +kernel, by decide +kernel, by decide +kernel, by decide +kernel⟩,
   ⟨sendBase, issOf sendBase, atIssue _ _ _ (by decide +kernel), by decide +kernel, by decide +kernel, by decide +kernel, by decide +kernel⟩,
   ⟨sendBase, issOf sendBase, atIssue _ _ _ (by decide +kernel), by decide +kernel, by decide +kernel, by decide +kernel, by decide +kernel, by decide +kernel,
    fun _ dev _ => by show List.contains [] dev = false; rfl⟩,
   ⟨base, issOf base, atSection _ _ _ (by decide +kernel), by decide +kernel, by decide +kernel, by decide +kernel⟩,
   ⟨onSec (fun c => { c with idem := true }) base, issOf (onSec (fun c => { c with idem := true }) base), atSection _ _ _ (by decide +kernel), by decide +kernel⟩⟩
def sec0 : Section := (issOf base).sec

/-- A section that one state gives, with its team. -/
def Stands (s : State) (t : Team) (c : Section) : Prop := s.team? 0 = some t ∧ s.sec? 0 0 = some c

theorem wit_SchedulingEvents :
    (∃ s t c, Stands s t c ∧ c.releases = [] ∧ c.state = .waiting ∧ waitOver t c c.waitFor s = true) ∧
    (∃ s t c r, Stands s t c ∧ c.releases = [r] ∧ t.bank = .active ∧ s.olderPerformed t c none r.before r.scope = true) ∧
    (∃ s t c, Stands s t c ∧ c.state = .waiting ∧ c.waitOn = .heldLoad ∧ c.waitFor = .again ∧
      ∀ h ∈ s.homes, h.ctx = t.ctx → h.failed = false → (0, 0) ∉ h.who) ∧
    (∃ s t c, Stands s t c ∧ c.state ≠ .exited ∧ c.stalarm.getLsbD 63 = true ∧
      c.stalarm.toNat % 2 ^ 62 = (if c.stalarm.getLsbD 62 then s.wall else c.stimer).toNat % 2 ^ 62) ∧
    (∃ s t c, Stands s t c ∧ readyPass t c = true ∧ (0, 0) ∉ s.stalled ∧ c.state ≠ .exited ∧ c.delayed = false) ∧
    (∃ s t c, Stands s t c ∧ c.bkLevel = 7 ∧ c.state ≠ .exited ∧ c.parkElig = none) ∧
    (∃ (s : State) (t : Team) (c : Section) (r : LanternRec), Stands s t c ∧ (s.coreAt 0 0).lantern[0]? = some r ∧ r.tid = 0 ∧ r.role = 0 ∧ lanesRun t c = true) ∧
    (∃ s t c, Stands s t c ∧ tget none (s.coreAt 0 0).lastOn 3 = some (0, 0)) := by
  let rel : Release := ⟨5, 1, .bar 3 1, 0x400000⟩
  exact ⟨⟨onSec (fun c => { c with state := .waiting, waitOn := .waitc, waitFor := .counter 0 0 }) base, _, _, ⟨rfl, rfl⟩, by decide +kernel⟩,
    ⟨onSec (fun c => { c with releases := [rel] }) base, _, _, rel, ⟨rfl, rfl⟩, rfl, rfl, by decide +kernel⟩,
    ⟨onSec (fun c => { c with state := .waiting, waitOn := .heldLoad, waitFor := .again }) base, _, _, ⟨rfl, rfl⟩, by decide +kernel⟩,
    ⟨onSec (fun c => { c with stimer := 5, stalarm := 0x8000000000000005 }) base, _, _, ⟨rfl, rfl⟩, by decide +kernel⟩,
    ⟨base, _, _, ⟨rfl, rfl⟩, by decide +kernel⟩,
    ⟨onSec (fun c => { c with bkLevel := 7 }) base, _, _, ⟨rfl, rfl⟩, by decide +kernel⟩,
    ⟨onLane none [], _, _, laneRec none [], ⟨rfl, rfl⟩, rfl, rfl, rfl, by decide +kernel⟩,
    ⟨onCore (fun x => { x with lastOn := [(3, some (0, 0))] }) base, _, _, ⟨rfl, rfl⟩, by decide +kernel⟩⟩

/-- A breakpoint at 0x400000, ACT 1 or 0; a user interrupt of vector 63 pending with a handler at 0x100200. -/
def bkptBase (act : Bool) (s : State) : State := s.modCtx 0 (fun x => { x with bkpt := [(7, if act then 0xC000000000400000 else 0x8000000000400000)] })
def uiBase : State := base.modCtx 0 (fun x => { x with uientry := 0x8000000000040080, uilaunch := some 0, uipend := 0x8000000000000000, uimask := 0x8000000000000000 })

theorem wit_BoundaryEvents :
    (∃ s t c, Stands s t c ∧ c.alarmDue = true ∧ atBoundary t c = true ∧ bkptDue s t c = false) ∧
    (∃ s t c, Stands s t c ∧ c.stepDone = true ∧ underWay c = false ∧ c.state ≠ .held ∧ c.state ≠ .exited ∧ c.state ≠ .parked ∧ c.stepping = false) ∧
    (∃ s t c, Stands s t c ∧ c.stepDone = true ∧ underWay c = false ∧ c.state = .parked) ∧
    (∃ s t c, Stands s t c ∧ s.iss? = none ∧ c.state = .running ∧ c.noBkpt = false ∧ underWay c = false ∧ t.bank = .active ∧ c.stepDone = false ∧
      c.stepping = false ∧ c.holdDue = false ∧ s.bkpt? t.ctx c.hmode c.th.pc = some (7, true)) ∧
    (∃ (s : State) (t : Team) (c c' : Section) (k : Iss) (r : LanternRec), Stands s t c ∧ s.iss? = some k ∧ k.rec? = some (0, 0, r) ∧ r.tid = 0 ∧
      r.role = 0 ∧ mayTrap k s = true ∧ s.bkpt? t.ctx false r.th.pc = some (7, false) ∧ (recallLane s 0 0 r).sec? 0 0 = some c') ∧
    (∃ (s s1 : State) (t : Team) (c : Section), s.uiTurn? 0 = some (t, c, 63, .go s1)) := by
  refine ⟨⟨onSec (fun c => { c with alarmDue := true }) base, _, _, ⟨rfl, rfl⟩, by decide +kernel⟩,
    ⟨onSec (fun c => { c with stepDone := true }) base, _, _, ⟨rfl, rfl⟩, by decide +kernel⟩,
    ⟨onSec (fun c => { c with stepDone := true, state := .parked }) base, _, _, ⟨rfl, rfl⟩, by decide +kernel⟩,
    ⟨{ bkptBase true base with sel := none }, bootTeam, sec0, by unfold Stands; decide +kernel⟩,
    ⟨bkptBase false (onLane none []), bootTeam, sec0, _, issOf (bkptBase false (onLane none [])), laneRec none [], by unfold Stands; decide +kernel, iss_is _ (by decide +kernel),
      rfl, rfl, rfl, by decide +kernel, by decide +kernel, rfl⟩, ?_⟩
  have h : (match uiBase.uiTurn? 0 with
    | some (_, _, n, .go _) => n == 63
    | _ => false) = true := by decide +kernel
  cases e : uiBase.uiTurn? 0 with
  | none => rw [e] at h; cases h
  | some x =>
    obtain ⟨t, c, n, y⟩ := x
    rw [e] at h
    cases y with
    | go s1 => exact ⟨uiBase, s1, t, c, by rw [e]; simp only [beq_iff_eq] at h; subst h; rfl⟩
    | wait => cases h
    | diverged => cases h

/-- A buffered store of one byte; a reduction of one lane under way; a SYSFLUSH or SYSINV. -/
def bufStore : BufStore := ⟨5, 0, 0, none, 0, [(0x20500000, 7)]⟩
def lane1 : LaneOp := ⟨0, 0x500000, [(0x500000, 4)], some (.phys [(0x20500000, 4)]), 1, 0⟩
def redOp : RemoteOp := ⟨6, 0, 0, none, 0, ⟨.add, 2, 4, 4, 0, [lane1], false⟩⟩
def perfBase : State := onCore (fun x => { x with storeBuf := [bufStore] }) base
def redBase : State := { base with remote := [redOp] }
def detLaunch : Launch := { bootLaunch with pkt := { bootPacket with det := true } }
def detBase : State := { onTeam (fun t => { t with bank := .gone }) base with launches := [detLaunch] }
def flushOf (flush : Bool) : SysOp := ⟨8, 0, 0, 0, flush, 0x500000, 128⟩
def flushBase (flush : Bool) : State := { base with sysOps := [flushOf flush] }

theorem wit_PerformingEvents :
    (∃ (s : State) (b : BufStore), (s.coreAt 0 0).storeBuf[0]? = some b ∧ (∀ o ∈ (s.coreAt 0 0).storeBuf.take 0, sharesByte o.bytes b.bytes = false) ∧
      (∀ r ∈ s.remote, r.tid = b.tid → r.role = b.role → r.id < b.id → ∀ l ∈ r.op.lanes, ∀ sp, l.spot = some sp → sp.hits b.bytes = false) ∧
      s.promoWaits b.tid b.role b.rel (b.bytes.map (fun x => x.1 / 128 * 128)) = false) ∧
    (∃ (s s1 : State) (t : Team) (c : Section) (r : RemoteOp) (x : LaneOp) (rest : List LaneOp) (sp : Spot), Stands s t c ∧
      s.remote.find? (fun o => o.id == r.id && o.tid == 0 && o.role == 0) = some r ∧ r.op.lanes = x :: rest ∧ x.spot = some sp ∧ (s.coreAt t.die t.core).storeBuf = [] ∧
      s.promoWaits 0 0 r.rel sp.linesOf = false ∧ s.remote = [r] ∧ s.placeOpen sp r.op.size = .ok () ∧ s.postLane t c r.op x = .go s1) ∧
    (∃ (s : State) (l : Launch), s.launch? 0 = some l ∧ l.pkt.det = true ∧ l.epochClosed = false ∧ l.placed = l.pkt.grid ∧
      (∀ t ∈ s.teams, t.lid = 0 → t.bank = .gone ∧ ∀ c ∈ t.secs, c.log = [] ∧ c.cmp = []) ∧ s.remote = [] ∧ s.orphans = [] ∧ (∀ x ∈ s.cores, x.2.storeBuf = []) ∧
      l.epoch = []) ∧
    (∀ flush, ∃ (s : State) (o : SysOp) (t : Team), s.sysOps.find? (fun o => o.id == 8 && o.tid == 0 && o.role == 0) = some o ∧ s.team? 0 = some t ∧ o.flush = flush ∧
      (s.coreAt t.die t.core).storeBuf = []) := by
  have hp : redBase.postLane bootTeam sec0 redOp.op lane1 = .go (turnOf (redBase.postLane bootTeam sec0 redOp.op lane1)) := goes_is _ (by decide +kernel)
  exact ⟨⟨perfBase, bufStore, rfl, by decide +kernel, (fun r hr => by cases hr), by decide +kernel⟩,
    ⟨redBase, _, bootTeam, sec0, redOp, lane1, [], _, by unfold Stands; decide +kernel, by decide +kernel, rfl, rfl, rfl, by decide +kernel, rfl, rfl, hp⟩,
    ⟨detBase, detLaunch, by decide +kernel, rfl, rfl, rfl, by decide +kernel, rfl, rfl, by decide +kernel, rfl⟩,
    fun flush => ⟨flushBase flush, flushOf flush, bootTeam, by cases flush <;> decide +kernel, by cases flush <;> decide +kernel, rfl, rfl⟩⟩

/-- The clauses on ejected lanes: mode and system registers, a return with and without an address, and an mts to a read-only register. -/
theorem wit_lanes :
    (∃ s k, AtPath s k (.setmode 8 0x107) ⟨true, [], []⟩ ∧ k.rec?.isSome = true) ∧
    (∃ s k, AtIssue s k (.mts 4 0x19) (usesUnlatched k ⟨true, [], [wsel true 4]⟩) ∧ k.rec?.isSome = true) ∧
    (∃ s k d c r, AtIssue s k .ret ⟨true, [], []⟩ ∧ k.rec? = some (d, c, r) ∧ r.calls = []) ∧
    (∃ s k d c r, AtIssue s k .ret ⟨true, [], []⟩ ∧ k.rec? = some (d, c, r) ∧ r.calls = [(8, false)]) :=
  ⟨⟨onLane none [], _, atPath (onLane none []) _ _ (by decide +kernel), by decide +kernel⟩,
   ⟨onLane none [], issOf (onLane none []), atIssue _ _ _ (by decide +kernel), by decide +kernel⟩,
   ⟨onLane none [], _, 0, 0, laneRec none [], atIssue (onLane none []) _ _ (by decide +kernel), rfl, rfl⟩,
   ⟨onLane none [(8, false)], _, 0, 0, laneRec none [(8, false)], atIssue (onLane none [(8, false)]) _ _ (by decide +kernel), rfl, rfl⟩⟩

/-- A fence.rp whose section's older store stands in the buffer is not done. -/
theorem wit_drain_waits : ∃ s k p, AtPath s k (.fenceRp 5 0xC0) ⟨true, [], [(0xC0, 2)]⟩ ∧
    s.checkPlace k .load 1 { lane := (k.th.lowest k.path).getD 0, a := (k.th.kpair 0).toNat, bad := false, data := 0, data2 := 0 } = .ok p ∧
    ¬(drained s k.team.ctx (5 : BitVec 3).toNat s.nextOp = true ∧ s.performed k (5 : BitVec 3).toNat = true) := by
  let s : State := withK [(0, 0x500000)] { perfBase with nextOp := 6 }
  obtain ⟨p, hp⟩ := ok_is (s.checkPlace (issOf s) .load 1
    { lane := ((issOf s).th.lowest (issOf s).path).getD 0, a := ((issOf s).th.kpair 0).toNat, bad := false, data := 0, data2 := 0 }) (by decide +kernel)
  exact ⟨s, _, p, atPath s _ _ (by decide +kernel), hp, by decide +kernel⟩

/-- One lane's load, swap or sum at the host. -/
def hostLane : LaneOp := ⟨0, 0x500000, [(0x500000, 4)], some (.phys [(8 * 2 ^ 48, 4)]), 1, 0⟩
def hostReq (load : Bool) (kind : OpKind) : HostReq := ⟨none, ⟨kind, 6, 4, 5, 0, [hostLane], true⟩, some 4, load, [], [], none, 0⟩
def hostBase (load : Bool) (kind : OpKind) : State := onSec (fun c => { c with hostReq := some (hostReq load kind) }) base
def sendOf : PeerSend := ⟨3, 9, 7, 1, 0, none, 4, 1⟩
def sentBase : State := onSec (fun c => { c with peerSend := some sendOf }) base
/-- A dual-run pair whose comparators hold one store each, of values `a` and `b`. -/
def dmrOp (v : DWord) : DmrOp := ⟨5, none, 0x400000, ⟨.store, 6, 4, 0, 0, [{ lane1 with data := v }], false⟩, none, none⟩
def dmrBase (a b : DWord) : State :=
  { base with teams := [{ bootTeam with twin := some 1, secs := [{ sec0 with cmp := [dmrOp a] }] },
      { bootTeam with tid := 1, primary := false, twin := some 0, secs := [{ sec0 with cmp := [dmrOp b] }] }] }

theorem wit_LinkAnswers :
    (∃ s t c h x pas, Stands s t c ∧ c.hostReq = some h ∧ h.op.lanes = [x] ∧ h.isLoad = true ∧ x.spot = some (.phys pas) ∧ pas.length = 1 ∧ h.op.size ≠ 128 ∧
      ∀ p ∈ physBytes pas, s.sliceLine? (p / 128 * 128) = none) ∧
    (∀ kind, kind = .xchg ∨ kind = .add → ∃ s t c h x pas s0, Stands s t c ∧ c.hostReq = some h ∧ h.op.lanes = [x] ∧ h.isLoad = false ∧ h.op.kind = kind ∧
      hostTurn s t c h x = .go s0 ∧ x.spot = some (.phys pas)) ∧
    (∃ (s : State) (t : Team) (c : Section) (p : PeerSend) (k : Iss), Stands s t c ∧ c.peerSend = some p ∧ p.who = none ∧ s.olderSend t p = false ∧
      State.iss? { s.modSec 0 0 (fun c => { c with peerSend := none }) with sel := some (.sect 0 0) } = some k) ∧
    (∃ (s : State) (t : Team) (c d : Section) (a b : DmrOp), Stands s t c ∧ t.primary = true ∧ t.twin = some 1 ∧ s.sec? 1 0 = some d ∧ dmrPair c d = some (a, b) ∧
      a.same b = false) ∧
    (∃ (s s1 : State) (t : Team) (c d : Section) (a b : DmrOp), Stands s t c ∧ t.primary = true ∧ t.twin = some 1 ∧ s.sec? 1 0 = some d ∧ dmrPair c d = some (a, b) ∧
      a.same b = true ∧ a.op.kind = .store ∧ a.dest = none ∧ a.counted = none ∧ b.counted = none ∧
      (∀ x ∈ a.op.lanes, x.spot ≠ none ∧ ∀ v ∈ x.vas, s.logsPage t.ctx c.log v.1 = false) ∧ (s.dmrPerform t c a a.op.lanes).2 = .go s1) := by
  refine ⟨⟨hostBase true .store, _, _, hostReq true .store, hostLane, _, ⟨rfl, rfl⟩, rfl, rfl, rfl, rfl, rfl, by decide, by decide +kernel⟩, ?_,
    ⟨sentBase, _, _, sendOf, _, ⟨rfl, rfl⟩, rfl, rfl, by decide +kernel, iss_is _ (by decide +kernel)⟩,
    ⟨dmrBase 1 2, _, _, _, dmrOp 1, dmrOp 2, ⟨rfl, rfl⟩, rfl, rfl, rfl, rfl, by decide +kernel⟩,
    ⟨dmrBase 1 1, _, _, _, _, dmrOp 1, dmrOp 1, ⟨rfl, rfl⟩, rfl, rfl, rfl, rfl, by decide +kernel, rfl, rfl, rfl, rfl, by decide +kernel, goes_is _ (by decide +kernel)⟩⟩
  rintro kind (rfl | rfl)
  · exact ⟨hostBase false .xchg, _, _, hostReq false .xchg, hostLane, _, _, ⟨rfl, rfl⟩, rfl, rfl, rfl, rfl, goes_is _ (by decide +kernel), rfl⟩
  · exact ⟨hostBase false .add, _, _, hostReq false .add, hostLane, _, _, ⟨rfl, rfl⟩, rfl, rfl, rfl, rfl, goes_is _ (by decide +kernel), rfl⟩

/-- The 512 MiB page at 0x20000000 with the entry `e`. -/
def pageOf (e : Nat) (s : State) : State := { s with mem := writeNat s.mem 0x11008 8 e }
def leafOf (e : Nat) : Leaf := ⟨e, 29, 0x11008⟩
/-- A page of the device; one to be mapped on demand; one owned by the host; one pinned at a host address. -/
def devPage : Nat := 0x4000003B
def demPage : Nat := 0x83A
def hostPage : Nat := 0x4000023B
def pinPage : Nat := 2 ^ 51 + 0x43B
def demReq : FrameReq := ⟨0, [(0x20000000, 29)], true, none, [], some [some (2 ^ 48 + 0x60000000)]⟩
def demBase : State :=
  let s := pageOf demPage base
  s.modSlice (s.pageHome 0 0x20000000).1 (s.pageHome 0 0x20000000).2 (fun x => { x with frames := [demReq] })
def logEnt : LogEntry := ⟨0, 0x20000000 / 4096, ⟨.store, 6, 4, 0, 0, [⟨0, 0x20000000, [(0x20000000, 4)], none, 1, 0⟩], false⟩, 1⟩
def logBase : State := onSec (fun c => { c with log := [logEnt] }) (pageOf devPage base)
def pinBase : State := (pageOf pinPage base).modCtx 0 (fun x => { x with pinned := [(0x20000, some (0x40000000, 0))], thrThrottle := 0 })
/-- A request at the page's home, to the host or the device. -/
def homeReq (toHost : Bool) : HomeReq := ⟨0, 0x20000000, toHost, true, [], false⟩
/-- The page's leaf is `e`, and its leaf and base are found. -/
def Page (s : State) (e : Nat) : Prop := s.pageBase 0 0x20000000 = some (leafOf e, 0x20000000)

theorem wit_PageEvents :
    (∃ (s : State), (s.coreAt 0 0).ctx = some 0 ∧ tlbFind (s.coreAt 0 0).tlb 0 0x20000000 = none ∧ Page s devPage) ∧
    (∃ (s : State) (f : FrameReq) (q r : List FrameReq), (s.sliceAt 0 0).frames = q ++ f :: r ∧ (∀ g ∈ q, g.answer ≠ none) ∧ f.answer = none) ∧
    (∃ (s : State) (pa : Nat) (f : FrameReq), Page s demPage ∧
      (s.sliceAt (s.pageHome 0 0x20000000).1 (s.pageHome 0 0x20000000).2).frames.find? (fun f => f.ctx == 0 && f.demand && f.pages == [(BitVec.ofNat 64 0x20000000, 29)]
        && f.answer.isSome) = some f ∧
      f.answer = some [some pa] ∧ pa % 2 ^ 29 = 0 ∧ pa / 2 ^ 48 = (s.pageHome 0 0x20000000).1 ∧ paOk s.cxlBytes pa = true) ∧
    (∃ (s : State), Page s devPage ∧ leafV devPage = true ∧ leafSYS devPage = false ∧ leafOWN devPage = 0 ∧ s.homes = [] ∧ thrashes s 0 0x20000000 = false) ∧
    (∃ (s : State), Page s hostPage ∧ leafV hostPage = true ∧ leafSYS hostPage = false ∧ leafOWN hostPage ≠ 2 ∧
      ∃ h ∈ s.homes, h.ctx = 0 ∧ h.va = BitVec.ofNat 64 0x20000000 ∧ h.failed = false) ∧
    (∃ (s : State) (h : HomeReq), Page s hostPage ∧ s.pageReq 0 0x20000000 = some h ∧ leafV hostPage = true ∧ leafOWN hostPage = 1 ∧ h.toHost = true ∧ h.begun = true ∧
      s.quiet (leafPA hostPage) (2 ^ 29) = true) ∧
    (∃ (s : State) (h : HomeReq), Page s hostPage ∧ s.pageReq 0 0x20000000 = some h ∧ leafOWN hostPage = 1 ∧ h.toHost = false ∧ thrashes s 0 0x20000000 = false) ∧
    (∃ (s : State) (frame at_ : Nat), Page s pinPage ∧ tget none (s.ctxAt 0).pinned (0x20000000 / 4096) = some (frame, at_) ∧ leafOWN pinPage = 2 ∧
      leafSYS pinPage = false ∧ at_ + (s.ctxAt 0).thrThrottle = s.wall.toNat ∧ s.quiet (leafPA pinPage) (2 ^ 29) = true) ∧
    (∃ (s s1 : State) (t : Team) (c : Section) (o : Orphan) (x : LaneOp) (pas : List (Nat × Nat)), Page s devPage ∧
      s.replayable 0 0x20000000 29 = [(o, false)] ∧ o.tid = 0 ∧ o.role = 0 ∧ Stands s t c ∧ o.entry.op.lanes = [x] ∧ o.entry.op.kind = .store ∧
      s.respot 0 .store x.vas = .ok pas ∧ (∀ p ∈ pas, isHost p.1 = false) ∧ olderEntry c.log o.entry = false ∧ (s.coreAt t.die t.core).storeBuf = [] ∧
      s.replayLane t c o.entry.op x pas = .go s1) := by
  have hd : Page (pageOf devPage base) devPage := by unfold Page; decide +kernel
  have hh (l : List HomeReq) : Page { pageOf hostPage base with homes := l } hostPage := by
    show (pageOf hostPage base).pageBase 0 0x20000000 = _
    decide +kernel
  have hr : (match logBase.respot 0 .store [(0x20000000, 4)] with
    | .ok l => l == [(0x40000000, 4)]
    | _ => false) = true := by decide +kernel
  have hr' : logBase.respot 0 .store [(0x20000000, 4)] = .ok [(0x40000000, 4)] := by
    cases e : logBase.respot 0 .store [(0x20000000, 4)] with
    | ok l => rw [e] at hr; simp only [beq_iff_eq] at hr; rw [hr]
    | bad c => rw [e] at hr; cases hr
    | res v => rw [e] at hr; cases hr
  exact ⟨⟨pageOf devPage base, by decide +kernel, by decide +kernel, hd⟩,
    ⟨base.modSlice 0 0 (fun x => { x with frames := [{ demReq with answer := none }] }), { demReq with answer := none }, [], [], by decide +kernel⟩,
    ⟨demBase, 2 ^ 48 + 0x60000000, demReq, by unfold Page; decide +kernel⟩,
    ⟨pageOf devPage base, hd, by decide +kernel⟩,
    ⟨{ pageOf hostPage base with homes := [homeReq false] }, hh _, by decide +kernel, by decide +kernel, by decide +kernel, homeReq false, by decide +kernel⟩,
    ⟨{ pageOf hostPage base with homes := [homeReq true] }, homeReq true, hh _, by decide +kernel⟩,
    ⟨{ pageOf hostPage base with homes := [homeReq false] }, homeReq false, hh _, by decide +kernel⟩,
    ⟨pinBase, 0x40000000, 0, by unfold Page; decide +kernel⟩,
    ⟨logBase, _, _, _, ⟨0, 0, 0, logEnt⟩, ⟨0, 0x20000000, [(0x20000000, 4)], none, 1, 0⟩, _, by unfold Page; decide +kernel, by decide +kernel, rfl, rfl, ⟨rfl, rfl⟩, rfl, rfl, hr',
      by decide +kernel, by decide +kernel, rfl, goes_is _ (by decide +kernel)⟩⟩
/-- A RESID operation of the section stands in the core's oculus; an emulated product waits; a gang barrier stands half arrived. -/
def resBase : State := onCore (fun x => { x with oculus := [(0, 0)] }) (onSec (fun c => { c with oculus := some 0xC0 }) (withK [(1, 8192), (2, 4096)] base))
def emuBase : State := onSec (fun c => { c with waitOn := .fmtEmu, emu := some ⟨false, 4, [], [], [], 0, []⟩ }) base
def gangBase : State := { base with gangs := [⟨0, 0, true, [], 1, 0, [0]⟩] }
/-- A composite of no pixels over this die alone: its record at offset 64 of the die's scratchpad, its participant word at 0x500000. -/
def cupBase : State :=
  ({ base with mem := writeNat base.mem 0x20500000 4 0xFFFF }).modDie 0 (fun d => { d with
    owners := [(0, some 0)], doorbell := [(0, 65)]
    scratch := writeNat d.scratch 64 64 (0xF8 <<< 56 + 0xF8 <<< 120 + 0xF8 <<< 312 + 0x500000 <<< 320) })
def comp (rank round : Nat) (parts : List (Nat × Nat)) : Composite := ⟨0, 0, 0, 0, 0, 1, rank, false, 0, parts, [], round, 0, 0, [], false⟩
def here2 : List (Nat × Nat) := [(0xFFFF, 0), (0xFFFF, 0)]
def other (same : Bool) : Composite := { comp 1 0 here2 with mode := if same then 0 else 1 }
def compBase (l : List Composite) : State := base.modDie 0 (fun d => { d with cupola := l })

theorem wit_UnitEvents :
    (∃ (s : State) (c : Section), s.sec? 0 0 = some c) ∧
    (∃ (s : State) (k : Iss) (r : MatRes), State.iss? { s with sel := some (.sect 0 0) } = some k ∧ k.sec.emu = some r ∧ k.sec.waitOn = .fmtEmu) ∧
    (∃ (s : State) (k : Iss) (o : ResidOps), (s.coreAt 0 0).oculus = [(0, 0)] ∧
      State.iss? { s.modCore 0 0 (fun x => { x with oculus := [] }) with sel := some (.sect 0 0) } = some k ∧ k.sec.oculus = some 0xC0 ∧ residOps k 0xC0 = some o ∧
      s.failedIn k.team.tid o.reads = none ∧ touch s 0 (o.lines ++ o.added k.team (residAll o k.team).1) = .ok) ∧
    (∃ (s : State), (s.gang 0 0).open_ = true ∧ 0 ∈ (s.gang 0 0).due) ∧
    (∃ (s : State) (c : Composite), (s.dieAt 0).doorbell = [(0, 65)] ∧ (s.dieAt 0).cupolaHalt = false ∧
      (let s1 := s.modDie 0 (fun d => { d with doorbell := [] })
       let a := 0xF8 * 2 ^ 56 + 0 * 2 ^ 54 + (65 - 1)
       (s1.ctxAt 0).ended = false ∧ s1.dieRange 0 a 64 = true ∧ Composite.of s1 0 0 (s1.dieRead a 64) = some c)) ∧
    (∃ (s : State) (c : Composite), (s.dieAt 0).cupola[0]? = some c ∧ c.log2n ≤ c.round) ∧
    (∃ (s : State) (c : Composite), (s.dieAt 0).cupola[0]? = some c ∧ c.round < c.log2n ∧
      (c.parts.getD (Nat.xor c.rank (2 ^ c.round)) (0, 0)).1 ≠ 0xFFFF) ∧
    (∀ same, ∃ (s : State) (c x : Composite) (d j : Nat), (s.dieAt 0).cupola[0]? = some c ∧ c.round < c.log2n ∧
      (c.parts.getD (Nat.xor c.rank (2 ^ c.round)) (0, 0)).1 = 0xFFFF ∧ s.rankComp c (Nat.xor c.rank (2 ^ c.round)) = some (d, j, x) ∧ c.agrees x = same ∧
      x.round = c.round) := by
  refine ⟨⟨base, _, rfl⟩, ⟨emuBase, _, ⟨false, 4, [], [], [], 0, []⟩, iss_is _ (by decide +kernel), by decide +kernel, by decide +kernel⟩,
    ⟨resBase, _, ⟨⟨0, 4, 4, 1⟩, 8192, 1, 4096, 1, 0⟩, by decide +kernel, iss_is _ (by decide +kernel), by decide +kernel, rfl, rfl, touch_ok _ (by decide +kernel)⟩,
    ⟨gangBase, by decide +kernel⟩, ?_, ⟨compBase [comp 0 1 []], comp 0 1 [], by decide +kernel⟩,
    ⟨compBase [comp 0 0 [(0xFFFF, 0), (5, 0)]], comp 0 0 [(0xFFFF, 0), (5, 0)], by decide +kernel⟩,
    fun same => ⟨compBase [comp 0 0 here2, other same], comp 0 0 here2, other same, 0, 1, by cases same <;> decide +kernel⟩⟩
  have h : (let s1 := cupBase.modDie 0 (fun d => { d with doorbell := [] })
      (Composite.of s1 0 0 (s1.dieRead (0xF8 * 2 ^ 56 + 64) 64)).isSome) = true := by decide +kernel
  obtain ⟨c, hc⟩ := Option.isSome_iff_exists.1 h
  exact ⟨cupBase, c, by decide +kernel, by decide +kernel, by decide +kernel, by decide +kernel, hc⟩

/-- The copy of `copyBase`, of the form, state and source given. -/
def copyOf (form : Nat) (started paused : Bool) (ga : Word) : Copy :=
  let s := withK [(0, ga), (3, 128)] base
  { copyEntry (issOf s) s form 0xC0 with form := form, started := started, begun := started || paused, paused := paused, lines := [] }
def copiesBase (l : List Copy) : State := onCore (fun x => { x with copyq := l }) (pageOf demPage base)
/-- Four teams of a gang of class cell on the four cores of cell 0, each with its reduction. -/
def redTeam (i : Nat) : Team := { bootTeam with tid := i, index := i, rank := i, core := i, gangSize := 4 }
def redCopy (i : Nat) : Copy := { copyOf 2 true false 0x500000 with tid := i }
def redGang : State := { base with teams := (List.range 4).map redTeam, cores := (List.range 4).map (fun i => (i, { core0 with ctx := some 0, copyq := [redCopy i] })) }

theorem wit_CopyEvents :
    (∃ (s : State) (c o : Copy) (t : Team), (s.coreAt 0 0).halted = false ∧ (s.coreAt 0 0).copyq = [o] ++ c :: [] ∧ o.paused = true ∧
      ((s.coreAt 0 0).copyq.filter (fun c => c.started && !c.paused && !(s.team? c.tid).any (fun t => idles s t c))).length < 16 ∧
      c.started = false ∧ c.paused = false ∧ s.team? c.tid = some t ∧ skipped s t c = false ∧ copyTouch s c c.tid (sourceLines c) = .ok) ∧
    (∃ (s : State) (t : Team) (c : Copy) (i n : Nat), workingCopy s 0 0 c.id = some (t, c) ∧ c.form ≠ 2 ∧ c.left[n % c.left.length]? = some i) ∧
    (∃ (s : State) (t : Team) (c : Copy) (va : Nat), (s.coreAt 0 0).copyq.find? (fun x => x.id == c.id && !x.paused) = some c ∧ s.team? c.tid = some t ∧ c.started = true ∧
      (copyMeets s t (c.asRead t.scratch)).1 = some va) ∧
    (∃ (s : State) (t : Team) (c : Copy), (s.coreAt 0 0).copyq.find? (fun x => x.id == c.id && x.paused) = some c ∧ s.team? c.tid = some t ∧ (copyMeets s t (c.asRead t.scratch)).1 = none ∧
      leftIssue (s.coreAt 0 0) t = false ∧ sharedUsed (s.coreAt 0 0) < Config.sharedCopyEntries) ∧
    (∃ (s : State) (t : Team) (c : Copy), (s.coreAt 0 0).copyq.find? (fun x => x.id == c.id) = some c ∧ s.team? c.tid = some t ∧ c.begun = true ∧ (copyMeets s t c).2 = true) ∧
    (∃ (s : State) (e : Team × Copy), least ((s.gangTeams 0 0).flatMap (fun t => ((s.coreAt t.die t.core).copyq.filter (fun c => c.tid == t.tid && c.form == 2)).map Copy.ordinal)) = some 0 ∧
      reduceEntries s 0 0 0 = [e] ∧ e.2.started = true ∧ cellGang s 0 0 = false) ∧
    (∃ (s : State) (a0 a1 a2 a3 : Team × Copy), least ((s.gangTeams 0 0).flatMap (fun t => ((s.coreAt t.die t.core).copyq.filter (fun c => c.tid == t.tid && c.form == 2)).map Copy.ordinal)) = some 0 ∧
      reduceEntries s 0 0 0 = [a0, a1, a2, a3] ∧ cellGang s 0 0 = true ∧ (∀ t ∈ s.gangTeams 0 0, t.bank ≠ .gone) ∧
      a0.1.core % 4 = 0 ∧ a1.1.core % 4 = 1 ∧ a2.1.core % 4 = 2 ∧ a3.1.core % 4 = 3 ∧
      (∀ e ∈ [a0, a1, a2, a3], e.2.started = true ∧ (Block.of e.2.block).bytes = (Block.of a0.2.block).bytes ∧ bits e.2.gmode.toNat 4 9 = bits a0.2.gmode.toNat 4 9 ∧
        (∀ l ∈ copyLines (Block.of e.2.block) none, s.eccAt (.team e.1.tid (128 * l)) 128 = false) ∧ copyTouch s e.2 e.1.tid (copyLines (Block.of e.2.block) none) = .ok)) := by
  refine ⟨⟨copiesBase [copyOf 0 false true 0x20000000, copyOf 0 false false 0x500000], copyOf 0 false false 0x500000, copyOf 0 false true 0x20000000, bootTeam, by decide +kernel,
      by decide +kernel, rfl, by decide +kernel, by decide +kernel, by decide +kernel, by decide +kernel, by decide +kernel, touch_ok _ (by decide +kernel)⟩,
    ⟨copiesBase [copyOf 0 true false 0x500000], bootTeam, copyOf 0 true false 0x500000, 3, 7, by decide +kernel⟩,
    ⟨copiesBase [copyOf 0 true false 0x20000000], bootTeam, copyOf 0 true false 0x20000000, 0x20000000, by decide +kernel⟩,
    ⟨copiesBase [copyOf 0 false true 0x500000], bootTeam, copyOf 0 false true 0x500000, by decide +kernel⟩,
    ⟨copiesBase [copyOf 0 true false 0x40000000], bootTeam, copyOf 0 true false 0x40000000, by decide +kernel⟩,
    ⟨copiesBase [copyOf 2 true false 0x500000], (bootTeam, copyOf 2 true false 0x500000), by decide +kernel⟩,
    ⟨redGang, (redTeam 0, redCopy 0), (redTeam 1, redCopy 1), (redTeam 2, redCopy 2), (redTeam 3, redCopy 3), by decide +kernel, by decide +kernel, by decide +kernel, by decide +kernel,
      by decide +kernel, by decide +kernel, by decide +kernel, by decide +kernel, ?_⟩⟩
  intro e he
  simp only [List.mem_cons, List.not_mem_nil, or_false] at he
  obtain rfl | rfl | rfl | rfl := he <;> exact ⟨by decide +kernel, by decide +kernel, by decide +kernel, by decide +kernel, touch_ok _ (by decide +kernel)⟩

theorem image_ok (x : ImageAt) (h : (match x with
    | .ok => true
    | _ => false) = true) : x = .ok := by cases x <;> first | rfl | cases h

/-- A team whose launch's images take 0 bytes of scratchpad and no role, and the same team parked with what `f` gives its section. -/
def smallLaunch : Launch := { bootLaunch with pkt := { bootPacket with scratch := 0, roles := [] } }
def teamsBase (l : List Team) : State := { base with teams := l, launches := [smallLaunch] }
def parkedSec : Section := { sec0 with state := .parked, parkWhy := 1 }
def secTeam (c : Section) (bank : Bank) (draining : Bool) : Team := { bootTeam with secs := [c], bank := bank, draining := draining }
def parkedTeam (tid : Nat) : Team := { secTeam parkedSec .saved false with tid := tid }
/-- A team that has waited at level 7 since step 4. -/
def tiredTeam : Team := secTeam { sec0 with bkLevel := 7, parkElig := some 4 } .active false
def tiredBase : State := onCore (fun x => { x with parked := [1] }) (teamsBase [tiredTeam, parkedTeam 1])
def replied : Section := { parkedSec with svcReply := some [], svcLanes := some [] }
def fillBase : State := onCore (fun x => { x with parked := [1], ctx := some 3 }) (teamsBase [parkedTeam 1])

/-- Context 3 runs; teams of contexts 5 and 0 wait to be woken, the one of context 5 in no core's list. -/
def wakeBase : State :=
  (onCore (fun x => { x with parked := [1], ctx := some 3 }) (teamsBase [parkedTeam 1, { parkedTeam 2 with ctx := 5 }])).modDie 0 (fun d => { d with wake := [5, 0] })

theorem wit_TeamEvents :
    (∃ (s : State) (t : Team) (w : Nat × Option Nat), s.keptFor 0 0 = none ∧ (∀ u ∈ s.inBank 0 0 .active, u.draining = false) ∧ s.candidate 0 0 = some t ∧ atBoundaries t = true ∧
      s.waiter 0 0 t = some w ∧ s.waiterFits 0 0 w = false) ∧
    (∃ (s : State) (t : Team), s.team? t.tid = some t ∧ t.draining = true ∧ s.imageAt t .store = .ok ∧ t.bank = .active ∧ mayLeave t = true ∧ s.copiesAtWork t = false ∧
      s.parkRoom t.die t.core 1 = true) ∧
    (∃ (s : State) (t : Team), s.team? t.tid = some t ∧ t.draining = true ∧ s.imageAt t .store = .ok ∧ t.bank = .shadow ∧
      s.parkRoom t.die t.core (s.inBank t.die t.core .shadow).length = true) ∧
    (∃ (s s1 : State) (t : Team), (s.inBank 0 0 .active).find? (fun t => (repliedInPlace t).isSome) = some t ∧ repliedInPlace t = some 0 ∧ resumeInPlace s t 0 = .go s1) ∧
    (∃ (s s1 : State) (t : Team), (∀ u ∈ s.inBank 0 0 .active, repliedInPlace u = none) ∧ s.nextRestore 0 0 = some t ∧ s.imageAt t .load = .ok ∧ restoreTeam (s.fillImage t) t = .go s1) ∧
    (∃ (s : State), (s.coreAt 0 0).ctx ≠ some 0 ∧ (s.coreAt 0 0).shadow = .empty ∧ s.fillTeams 0 0 0 ≠ [] ∧ s.fillAt (s.fillTeams 0 0 0) = .ok) ∧
    (∃ (s : State), (s.coreAt 0 0).preempt = true ∧ (s.coreAt 0 0).shadow ≠ .filling ∧ s.safePoint 0 0 = true ∧ s.inBank 0 0 .active ≠ [] ∧
      (∀ t ∈ s.inBank 0 0 .active, ∀ c ∈ t.secs, c.state = .parked ∨ c.state = .exited) ∧ s.inBank 0 0 .shadow = []) ∧
    (∃ (s : State), s.stage = .s2 ∧ (s.coreAt 0 0).preempt = true ∧ s.safePoint 0 0 = true ∧ (s.coreAt 0 0).shadow ≠ .filling ∧ (∀ t ∈ s.inBank 0 0 .active, mayDiscard t = false) ∧
      s.inBank 0 0 .active ≠ []) ∧
    (∃ (s : State), (s.dieAt 0).wake = [0] ∧ s.wakeOver 0 = true ∧ (s.ctxAt 0).homeDie = 0 ∧ (∀ x ∈ s.contexts, x.2.wakeKept = false)) ∧
    (∃ (s : State), (s.dieAt 0).wake = [5] ++ 0 :: [] ∧ (∀ c ∈ (s.dieAt 0).wake, s.wakeOver c = false) ∧ s.wakeCores 5 = [] ∧ s.wakeCores 0 ≠ []) := by
  refine ⟨⟨tiredBase, tiredTeam, (1, none), by decide +kernel, by decide +kernel, by decide +kernel, by decide +kernel, by decide +kernel, by decide +kernel⟩,
    ⟨teamsBase [secTeam parkedSec .active true], secTeam parkedSec .active true, by decide +kernel, rfl, image_ok _ (by decide +kernel), rfl, by decide +kernel, by decide +kernel, by decide +kernel⟩,
    ⟨teamsBase [secTeam parkedSec .shadow true], secTeam parkedSec .shadow true, by decide +kernel, rfl, image_ok _ (by decide +kernel), rfl, by decide +kernel⟩,
    ⟨teamsBase [secTeam replied .active false], _, secTeam replied .active false, by decide +kernel, by decide +kernel, goes_is _ (by decide +kernel)⟩,
    ⟨onCore (fun x => { x with parked := [1] }) (teamsBase [parkedTeam 1]), _, parkedTeam 1, by decide +kernel, by decide +kernel, image_ok _ (by decide +kernel), goes_is _ (by decide +kernel)⟩,
    ⟨fillBase, by decide +kernel, by decide +kernel, ?_, image_ok _ (by decide +kernel)⟩,
    ⟨onCore (fun x => { x with preempt := true }) (teamsBase [secTeam parkedSec .active false]), by decide +kernel, by decide +kernel, by decide +kernel, by decide +kernel, by decide +kernel, by decide +kernel⟩,
    ⟨onCore (fun x => { x with preempt := true }) base, by decide +kernel⟩,
    ⟨base.modDie 0 (fun d => { d with wake := [0] }), by decide +kernel⟩, ⟨wakeBase, by decide +kernel, by decide +kernel, ?_⟩⟩
  all_goals decide +kernel

def queueBase : State := { base with queues := [(0, ⟨0x500000, true, false, 0, 0, 0, 0, 1⟩)] }
def planLaunch : Launch := { bootLaunch with placed := 0 }
def planBase : State := { base with teams := [], launches := [planLaunch], cores := [] }
def doneLaunch (d : DWord) (complete : Bool) : Launch := { bootLaunch with complete := complete, pkt := { bootPacket with done := d } }
def doneBase (d : DWord) (complete : Bool) : State := { base with teams := [{ bootTeam with bank := .gone }], launches := [doneLaunch d complete] }
def reqOf (num : Nat) : SvcReq := ⟨5, 0, 0, 0, num, false, 0, [toBytes 32 0], 0, 1, false, 0, false, 0⟩
def reqBase (num : Nat) : State := base.modSlice 0 0 (fun x => { x with reqs := [reqOf num] })

theorem wit_LaunchEvents :
    (∃ (s : State) (x : Queue) (bs : List Byte), s.stage = .s2 ∧ (s.launches.filter (fun l => l.part == 0 && !l.complete)).length < 256 ∧ s.nextQueue 0 = some (0, x) ∧
      State.ctxRead { s with turn := tset 0 s.turn (queueTurn 0 x.prio.toNat) 1 } x.ctx.toNat (x.base.toNat + 64 * (x.head.toNat % 2 ^ (x.log2.toNat + 4))) 64 = .bytes bs) ∧
    (∃ (s s1 : State) (l : Launch) (p : Plan), s.launch? l.lid = some l ∧ s.stage = .s2 ∧ (∀ q ∈ s.launches, q.part = l.part → q.lid < l.lid → s.planFor q = none) ∧ l.pkt.replay = false ∧ s.planFor l = some p ∧
      s.logPlaces l p.cores = .go s1) ∧
    (∃ (s : State) (l : Launch), s.launch? l.lid = some l ∧ l.complete = false ∧ l.placed = l.pkt.grid ∧ (∀ t ∈ s.teams, t.lid = l.lid → t.bank = .gone) ∧
      s.launchQuiet l.lid = true ∧ l.pkt.det = false) ∧
    (∃ (s : State) (l : Launch), s.launch? l.lid = some l ∧ l.complete = true ∧ l.wordDone = false ∧ l.pkt.done = 0) ∧
    (∃ (s : State) (l : Launch) (pa : Nat) (pinned : Bool), s.launch? l.lid = some l ∧ l.complete = true ∧ l.wordDone = false ∧ l.pkt.done ≠ 0 ∧ addrClass l.pkt.done.toNat = 0 ∧
      addrZeros l.pkt.done.toNat = true ∧ s.translateNow l.ctx .store l.pkt.done.toNat = .ok pa pinned) ∧
    (∃ (s : State) (t : Team) (c : Section) (w : SvcWait), Stands s t c ∧ c.svcPending = [w] ∧ s.olderPerformed t c none w.before 4 = true ∧
      reqFits (s.sliceAt t.die (svcSlice t)) (w.req.length - 1) = true) ∧
    (∀ n ∈ [1, 2, 3, 0x8000, 0xFFFF], ∃ (s : State) (r : SvcReq) (reply : List (DWord × DWord)),
      (s.sliceAt 0 0).reqs.find? (fun q => q.seq == r.seq && (!q.served || (q.nowait && !q.delivered))) = some r ∧
      (s.sliceAt 0 0).reqs.find? (fun q => q.seq == r.seq && !q.served) = some r ∧ r.served = false ∧ (s.ctxAt r.ctx).ended = false ∧ r.num = n ∧ reply.length = r.args.length) := by
  obtain ⟨pa, p, hx⟩ := xlat_is ((doneBase 0x500000 true).translateNow 0 .store 0x500000) (by decide +kernel)
  have hb : (match State.ctxRead { queueBase with turn := tset 0 queueBase.turn (queueTurn 0 0) 1 } 0 0x500000 64 with
    | .bytes _ => true
    | _ => false) = true := by decide +kernel
  have hq : queueBase.nextQueue 0 = some (0, ⟨0x500000, true, false, 0, 0, 0, 0, 1⟩) := by decide +kernel
  refine ⟨?_, ⟨planBase, _, planLaunch, ⟨[0], [], 0⟩, by decide +kernel, by decide +kernel, by decide +kernel, by decide +kernel, by decide +kernel, goes_is _ (by decide +kernel)⟩,
    ⟨doneBase 0 false, doneLaunch 0 false, by decide +kernel⟩, ⟨doneBase 0 true, doneLaunch 0 true, by decide +kernel⟩,
    ⟨doneBase 0x500000 true, doneLaunch 0x500000 true, pa, p, by decide +kernel, rfl, rfl, by decide +kernel, by decide +kernel, by decide +kernel, hx⟩,
    ⟨waitBase, _, _, svcReqOf, ⟨rfl, rfl⟩, rfl, by decide +kernel, by decide +kernel⟩, ?_⟩
  · cases e : State.ctxRead { queueBase with turn := tset 0 queueBase.turn (queueTurn 0 0) 1 } 0 0x500000 64 with
    | bytes bs => exact ⟨queueBase, _, bs, by decide +kernel, by decide +kernel, hq, e⟩
    | held va => rw [e] at hb; cases hb
    | bad c => rw [e] at hb; cases hb
  · intro n hn
    simp only [List.mem_cons, List.not_mem_nil, or_false] at hn
    refine ⟨reqBase n, reqOf n, (reqOf n).args.map (fun _ => (0, 0)), ?_, ?_, rfl, ?_, rfl, List.length_map _⟩ <;>
      obtain rfl | rfl | rfl | rfl | rfl := hn <;> decide +kernel

def queueOff : Queue := tget ⟨0, false, false, 0, 0, 0, 0, 0⟩ base.queues 2047
theorem wit_HostWrites :
    (∃ (s : State), s.cfgReady = true ∧ s.invJob = none) ∧ (∃ (s : State), s.cfgReady = true ∧ s.invJob ≠ none) ∧
    (bits 0x1234FFFF00000001 32 16 ≠ 0 ∧ bits 0xFFFF0000FFFFFFFF 32 16 = 0) ∧
    (∃ (s : State) (v : Word), s.cfgReady = true ∧ s.stage = .s2 ∧ (v - queueOff.head).toNat = 2 ^ (queueOff.log2.toNat + 4)) ∧
    (∃ (s : State) (v : DWord), s.cfgReady = true ∧ s.stage = .s2 ∧ bits v.toNat 58 4 = 0 ∧ bits v.toNat 0 36 = 0 ∧ bits v.toNat 52 4 = 12 ∧ queueOff.en = false ∧ queueOff.err = false) ∧
    (∃ (s : State), s.cfgReady = true ∧ (s.ctxAt 4095).enabled = false ∧ (s.ctxAt 4095).part < 16 ∧ (s.ctxAt 4095).homeDie < 4) ∧
    (∃ (s : State), s.cfgReady = true ∧ (s.ctxAt 0).enabled = true ∧ (s.ctxAt 0).part < 16 ∧ (s.ctxAt 0).homeDie < 4) ∧
    (∃ (s : State) (v : Word), s.cfgReady = true ∧ s.stage = .s2 ∧ v.toNat + 1 = 2 ^ 22) ∧
    (∃ (s : State) (t : Team) (c : Section) (l : Nat), s.stage = .s2 ∧ s.selected 0 = some (t, c, l)) ∧
    (∃ (s : State) (t : Team) (c : Section) (l : Nat), s.stage = .s2 ∧ s.selected 0 = some (t, c, l) ∧ c.state = .held) := by
  exact ⟨⟨base, by decide +kernel⟩, ⟨{ base with invJob := some (0, 0, 0) }, rfl, by decide⟩, by decide +kernel, ⟨base, 16, by decide +kernel⟩, ⟨base, 0x00C0000000000000 <<< 0, by decide +kernel⟩,
    ⟨base, by decide +kernel⟩, ⟨base, by decide +kernel⟩, ⟨base, 0x3FFFFF, by decide +kernel⟩, ⟨base, bootTeam, sec0, 0, by decide +kernel⟩,
    ⟨onSec (fun c => { c with state := .held }) base, _, _, 0, rfl, rfl, rfl⟩⟩

/-- Whether an image is accepted is free (log entry 7): the two clauses on an image share every image between them; one too short is refused. -/
theorem wit_DeviceEvents :
    (∃ s : State, s.stage = .off) ∧ (∃ s : State, s.stage = .s0) ∧
    (∃ (s : State) (c : Nat), s.stage = .s0 ∧ s.cfgReady = true ∧ s.recover = none ∧ checkImage s.fusedMin.toNat ((([] : List Byte) ++ []).take 128) (([] ++ []).drop 128) = .error c) ∧
    (∀ (s : State) (h b : List Byte), (∃ v, checkImage s.fusedMin.toNat ((h ++ b).take 128) ((h ++ b).drop 128) = .ok v) ∨
      ∃ c, checkImage s.fusedMin.toNat ((h ++ b).take 128) ((h ++ b).drop 128) = .error c) ∧
    (∃ s : State, s.stage = .s1) ∧ (∃ s : State, s.stage ≠ .off ∧ s.clockAt = none ∧ s.clockMHz = 1650) ∧
    (∃ s : State, s.stage ≠ .off ∧ (s.ctxAt 0).enabled = true) ∧ (∃ s : State, s.invJob = some (0, 0, 4096)) ∧
    (∃ (s : State) (page : Nat), page / 2 ^ 36 = 8 ∧ s.quiet (4096 * page) 4096 = true ∧ page ∉ s.ats) ∧
    (∃ (s : State) (l : Leaf) (b : Nat), s.pageBase 0 0x20000000 = some (l, b) ∧ leafOWN l.e = 2 ∧
      ∃ h ∈ s.homes, h.ctx = 0 ∧ h.va = BitVec.ofNat 64 b ∧ h.toHost = false ∧ h.failed = false) ∧
    (∃ (s : State) (cells : List Nat), s.stage = .s2 ∧ (∀ x ∈ s.contexts, x.2.part = 15 → x.2.exists_ = false) ∧ cells ≠ [] ∧ cells.Nodup ∧ (∀ c ∈ cells, c < 64) ∧
      (∀ x ∈ s.parts, x.1 ≠ 15 → ∀ c ∈ cells, c ∉ x.2) ∧
      (∀ d < 4, (((s.parts.filter (fun x => x.1 != 15)).flatMap Prod.snd ++ cells).filter (fun c => c / 16 == d)).length ≤ 15)) ∧
    (∃ s : State, s.stage = .s2 ∧ (s.ctxAt 0).exists_ = true ∧ (s.ctxAt 0).enabled = true) :=
  ⟨⟨State.reset, rfl⟩, ⟨{ State.reset with stage := .s0 }, rfl⟩, ⟨{ State.reset with stage := .s0, cfgReady := true }, 1, rfl, rfl, rfl, by unfold checkImage; exact if_pos (Or.inl (by decide))⟩,
   fun _ _ _ => by
     cases checkImage _ _ _ with
     | ok v => exact .inl ⟨v, rfl⟩
     | error c => exact .inr ⟨c, rfl⟩,
   ⟨{ State.reset with stage := .s1 }, rfl⟩, ⟨{ base with clockMHz := 1650, clockAt := none }, by decide +kernel⟩, ⟨base, by decide +kernel⟩, ⟨{ base with invJob := some (0, 0, 4096) }, rfl⟩,
   ⟨base, 8 * 2 ^ 36, by decide +kernel⟩, ⟨{ pageOf pinPage base with homes := [homeReq false] }, leafOf pinPage, 0x20000000, by decide +kernel⟩,
   ⟨{ base with parts := [] }, (List.range 60).map (fun i => 16 * (i / 15) + i % 15), by decide +kernel⟩, ⟨base, by decide +kernel⟩⟩

/-- The last predicate that can be written, p7, and a lane and a predicate beside; the last vector register. -/
theorem wit_RegisterFrames : ∃ (th : Thread) (act : Mask) (p q l l' x : Nat), p < 8 ∧ q < 8 ∧ p = 7 ∧ q ≠ p ∧ l ∈ th.lanes act ∧ l' ∉ th.lanes act ∧ x + 1 = 256 ∧
    (0xBF : Sel).toNat < 0xC0 ∧ (th.lowest act).isSome = true :=
  ⟨sec0.th, 1, 7, 6, 0, 31, 255, by decide +kernel⟩

theorem wit_LatchShift : ∃ (th : Thread) (path : Mask), 0 ∈ groupsOf path th.groups ∧ 1 ∉ groupsOf path th.groups := ⟨sec0.th, 1, by decide +kernel⟩

theorem wit_RetireFrame : ∃ (k : Iss) (tid role : Nat), (tid, role) ≠ (k.team.tid, k.sec.role) := ⟨issOf base, 0, 1, by decide +kernel⟩

theorem wit_DecodeEncode : Instr.isEvent (.icmp 2 1 0xF5 2) = false ∧ decode 0x1211F502 = .ok (.icmp 2 1 0xF5 2) := ⟨rfl, rfl⟩

/-- An agenda with an event; an issue of a word, of one that is none, and of one whose fetch faults; a word not in the fetch buffer. -/
def issueBase (w : Nat) : State := { base with sel := none, agenda := [.issue 0 0 0], mem := writeNat base.mem 0x20400000 4 w }
def pickOf (s : State) : Team × Section := (s.pick 0 0 0).getD (bootTeam, sec0)
theorem pick_is (s : State) (h : (s.pick 0 0 0).isSome = true) : s.pick 0 0 0 = some (pickOf s) := by
  obtain ⟨x, e⟩ := Option.isSome_iff_exists.1 h
  simp [pickOf, e]

/-- The state before the issue, and the issuer. -/
def ready0 (s : State) : State := { tick s with agenda := [] }
def issuer0 (s : State) : Iss := issOf (issuing (ready0 s) (pickOf (ready0 s)).1 (pickOf (ready0 s)).2)
def fetch0 (s : State) : Fetched :=
  fetchWord (issuing (ready0 s) (pickOf (ready0 s)).1 (pickOf (ready0 s)).2) (issuer0 s).team (issuer0 s).homeKey (issuer0 s).th.pc.toNat
def quiet0 (s : State) : Bool :=
  ((ready0 s).pick 0 0 0).isSome && !asked (ready0 s) (pickOf (ready0 s)).1 (pickOf (ready0 s)).2
    && !(ready0 s).uiHeld (pickOf (ready0 s)).1 (pickOf (ready0 s)).2
def issuable (s : State) : Bool :=
  quiet0 s && (portsLeft (pickOf (ready0 s)).2 0).isEmpty && (State.iss? (issuing (ready0 s) (pickOf (ready0 s)).1 (pickOf (ready0 s)).2)).isSome

theorem quiet_is (s : State) (h : quiet0 s = true) : (ready0 s).pick 0 0 0 = some (pickOf (ready0 s)) ∧
    asked (ready0 s) (pickOf (ready0 s)).1 (pickOf (ready0 s)).2 = false ∧ (ready0 s).uiHeld (pickOf (ready0 s)).1 (pickOf (ready0 s)).2 = false := by
  simp only [quiet0, Bool.and_eq_true, Bool.not_eq_true'] at h
  exact ⟨pick_is _ h.1.1, h.1.2, h.2⟩
theorem issues_is (s : State) (h : issuable s = true) : Issues (ready0 s) 0 0 0 (pickOf (ready0 s)).1 (pickOf (ready0 s)).2 (issuer0 s) := by
  simp only [issuable, Bool.and_eq_true, List.isEmpty_iff] at h
  obtain ⟨h1, h2, h3⟩ := quiet_is s h.1.1
  exact ⟨by decide, h1, h.1.2, h2, h3, iss_is _ h.2⟩

/-- What a fetch gave, with the word where it gave one. -/
inductive Got where
  | word (w : Word)
  | fault
  | wait
  deriving DecidableEq
def gotOf : Fetched → Got
  | .word w _ => .word w
  | .fault _ => .fault
  | .wait _ => .wait
theorem got_word (x : Fetched) (w : Word) (h : gotOf x = .word w) : ∃ s, x = .word w s := by
  cases x <;> simp_all [gotOf]
theorem got_fault (x : Fetched) (h : gotOf x = .fault) : ∃ c, x = .fault c := by
  cases x <;> simp_all [gotOf]
theorem got_wait (x : Fetched) (h : gotOf x = .wait) : ∃ s, x = .wait s := by
  cases x <;> simp_all [gotOf]
/-- A PC in a page without entry; one in a page to be mapped on demand; a section of two groups, whose other port has still to pick it. -/
def farBase : State := onTh (fun th => { th with pc := 0x40000000 }) (issueBase 0)
def demFetch : State := onTh (fun th => { th with pc := 0x20000000 }) (pageOf demPage (issueBase 0))
def wideBase : State := onSec (fun c => { c with th := { c.th with groups := 2, path := fullMask 2 } }) (issueBase 0)

theorem wit_StepRunsDecoded :
    (∃ (s : State) (e : Event), (tick s).agenda = [.event e]) ∧ (∃ (s : State) (sp : Spot), (tick s).agenda = [.fail sp]) ∧
    (∃ (s : State) (sp : Spot), (tick s).agenda = [.mend sp]) ∧
    (∃ (s : State) (pa : Nat) (bs : List Byte), (tick s).agenda = [.host pa bs] ∧ bs ≠ [] ∧ ∀ i, i < bs.length → paOk (tick s).cxlBytes (pa + i) = true) ∧
    (∃ (s : State), (tick s).agenda = [.thrash 4095 255 10000 100000]) ∧ (∃ (s : State), (tick s).agenda = [.eccClear 583]) ∧
    (∃ (s s1 : State) (t : Team) (x : Section) (k : Iss), (tick s).agenda = [.issue 0 0 0] ∧ Issues (ready0 s) 0 0 0 t x k ∧
      fetchWord (issuing (ready0 s) t x) k.team k.homeKey k.th.pc.toNat = .word 0x18001000 s1 ∧ decode 0x18001000 = .ok (.movi false 0 0x1000) ∧ k.sec.taps = []) ∧
    (∃ (s s1 : State) (t : Team) (x : Section) (k : Iss), (tick s).agenda = [] ∧ s.focus = (0, 0, 0) ∧ Issues (ready0 s) 0 0 0 t x k ∧
      fetchWord (issuing (ready0 s) t x) k.team k.homeKey k.th.pc.toNat = .word 0 s1 ∧ decode 0 = .error .opc) ∧
    (∃ (s : State) (t : Team) (x : Section) (k : Iss) (c : Nat), (tick s).agenda = [.issue 0 0 0] ∧ Issues (ready0 s) 0 0 0 t x k ∧
      fetchWord (issuing (ready0 s) t x) k.team k.homeKey k.th.pc.toNat = .fault c) ∧
    (∃ (s s1 : State) (t : Team) (x : Section) (k : Iss), (tick s).agenda = [.issue 0 0 0] ∧ Issues (ready0 s) 0 0 0 t x k ∧
      fetchWord (issuing (ready0 s) t x) k.team k.homeKey k.th.pc.toNat = .wait s1) ∧
    (∃ (s : State) (t : Team) (x : Section), (tick s).agenda = [.issue 0 0 0] ∧ (ready0 s).pick 0 0 0 = some (t, x) ∧ portsLeft x 0 = [1] ∧
      asked (ready0 s) t x = false ∧ (ready0 s).uiHeld t x = false) ∧
    (∃ (k : Iss) (s : State) (c : Section), s.sec? k.team.tid k.sec.role = some c ∧ c.retired = k.sec.retired + 1) ∧
    (∃ (s : State) (t : Team) (va pa : Nat) (pinned : Bool), va < 2 ^ 49 ∧ va % 4 = 0 ∧ s.translate t.die t.core t.ctx .fetch va = .ok pa pinned ∧
      (∀ x ∈ (s.coreAt t.die t.core).ibuf, x.1 ≠ pa / 4) ∧ s.eccAt (.phys [(pa, 4)]) 4 = false) := by
  obtain ⟨s1, h1⟩ := got_word (fetch0 (issueBase 0x18001000)) 0x18001000 (by decide +kernel)
  obtain ⟨s2, h2⟩ := got_word (fetch0 { issueBase 0 with agenda := [] }) 0 (by decide +kernel)
  obtain ⟨c, h3⟩ := got_fault (fetch0 farBase) (by decide +kernel)
  obtain ⟨s4, h4⟩ := got_wait (fetch0 demFetch) (by decide +kernel)
  obtain ⟨pa, p, hx⟩ := xlat_is (base.translate 0 0 0 .fetch 0x400000) (by decide +kernel)
  obtain ⟨w1, w2, w3⟩ := quiet_is wideBase (by decide +kernel)
  exact ⟨⟨{ base with agenda := [.event ⟨.powerGood, rfl⟩] }, ⟨.powerGood, rfl⟩, rfl⟩, ⟨{ base with agenda := [.fail (.team 0 0)] }, .team 0 0, rfl⟩,
    ⟨{ base with agenda := [.mend (.team 0 0)] }, .team 0 0, rfl⟩,
    ⟨{ base with agenda := [.host (8 * 2 ^ 48) [1]] }, 8 * 2 ^ 48, [1], rfl, by decide, by decide +kernel⟩,
    ⟨{ base with agenda := [.thrash 4095 255 10000 100000] }, rfl⟩, ⟨{ base with agenda := [.eccClear 583] }, rfl⟩,
    ⟨issueBase 0x18001000, s1, _, _, _, rfl, issues_is _ (by decide +kernel), h1, rfl, by decide +kernel⟩,
    ⟨{ issueBase 0 with agenda := [] }, s2, _, _, _, rfl, rfl, issues_is _ (by decide +kernel), h2, rfl⟩,
    ⟨farBase, _, _, _, c, rfl, issues_is _ (by decide +kernel), h3⟩,
    ⟨demFetch, s4, _, _, _, rfl, issues_is _ (by decide +kernel), h4⟩,
    ⟨wideBase, _, _, rfl, w1, by decide +kernel, w2, w3⟩,
    ⟨issOf base, onSec (fun c => { c with retired := 1 }) base, { sec0 with retired := 1 }, by decide +kernel, rfl⟩,
    ⟨base, bootTeam, 0x400000, pa, p, by decide, by decide, hx, fun x h => absurd h (by show x ∉ []; exact List.not_mem_nil), rfl⟩⟩

theorem wit_IllFormedTraps : ∃ s k, Instr.isEvent (.iadd false 0xF5 0 0) = false ∧ Instr.wellFormed (.iadd false 0xF5 0 0) = false ∧ State.iss? s = some k :=
  ⟨base, _, rfl, by decide, iss_is _ (by decide +kernel)⟩

theorem wit_StepAnswersNext : (∃ (i : Instr) (s : State), i.isEvent = false ∧ ∃ k, s.iss? = some k) ∧ (∃ (i : Instr), i.isEvent = true) ∧
    ∃ (i : Instr) (s : State), i.isEvent = false ∧ s.iss? = none :=
  ⟨⟨.join, base, rfl, _, iss_is _ (by decide +kernel)⟩, ⟨.powerGood, rfl⟩, .join, State.reset, rfl, rfl⟩

theorem wit_StepKeepsMemory : ∃ (s t : State), s.MemOk ∧ step s = .next t := by
  have h : ∃ t, step State.reset = .next t := ⟨_, rfl⟩
  obtain ⟨t, ht⟩ := h
  exact ⟨State.reset, t, (by decide +kernel : Memory.wf State.reset.mem = true), ht⟩

/-! ## Single steps, with results worked out from the rules -/

/-- One lane with the registers given, under a GMODE. -/
def one (g : Word) (l : List (Nat × Word)) : State := withMode g (withV (l.map (fun x => (0, x.1, x.2))) (onTh (fun th => { th with path := 1 }) base))
def after (i : Instr) (s : State) : State :=
  match exec i s with
  | .next t => t
  | _ => s
def vOf (s : State) (n : Nat) : Word := (issOf s).th.vreg 0 n
/-- What an instruction leaves in a register of lane 0. -/
def gives (i : Instr) (g : Word) (l : List (Nat × Word)) (n : Nat) : Word := vOf (after i (one g l)) n

/-- R36's own example: 100 + 100 in s8, narrow and all. R224: the high half, products and shifts that pass the width. -/
theorem test_integer_results :
    gives (.iadd false 4 0 1) 0x07 [(0, 100), (1, 100)] 4 = 0xFFFFFFC8 ∧ gives (.iadd false 4 0 1) 0x807 [(0, 100), (1, 100)] 4 = 127 ∧
    gives (.iadd false 4 0 1) 0x27 [(0, 0x7FFFFFFF), (1, 1)] 4 = 0x80000000 ∧ gives (.isub false 0 0 1) 0x27 [(0, 3), (1, 5)] 0 = 0xFFFFFFFE ∧
    gives (.imulh false 4 0 1) 0x27 [(0, 0x80000000), (1, 0x80000000)] 4 = 0x40000000 ∧ gives (.imulh false 4 0 1) 0x67 [(0, 0xFFFFFFFF), (1, 0xFFFFFFFF)] 4 = 0xFFFFFFFE ∧
    gives (.imad false 4 0 1) 0x27 [(0, 3), (1, 4), (4, 5)] 4 = 17 ∧ gives (.imin false 4 0 1) 0x27 [(0, 0xFFFFFFFF), (1, 1)] 4 = 0xFFFFFFFF ∧
    gives (.imin false 4 0 1) 0x67 [(0, 0xFFFFFFFF), (1, 1)] 4 = 1 ∧ gives (.iabs false 4 0) 0x27 [(0, 0xFFFFFFFB)] 4 = 5 ∧
    gives (.shr false 4 0 1) 0x27 [(0, 0xFFFFFFF8), (1, 100)] 4 = 0xFFFFFFFF ∧ gives (.shl false 4 0 1) 0x27 [(0, 1), (1, 32)] 4 = 0 ∧
    gives (.popc false 4 0) 0x27 [(0, 0xF0F)] 4 = 8 ∧ gives (.clz false 4 0) 0x27 [(0, 1)] 4 = 31 ∧ gives (.addi false 4 0xFFFF) 0x27 [(4, 3)] 4 = 2 := by decide +kernel

/-- R227, R237, R240 and the pair of lea (R226). -/
theorem test_move_results :
    gives (.movi false 4 0x8000) 0x27 [] 4 = 0xFFFF8000 ∧ gives (.movhi false 4 0x1234) 0x27 [(4, 0xABCD5678)] 4 = 0x12345678 ∧
    gives (.not false 4 0) 0x27 [(0, 0xF)] 4 = 0xFFFFFFF0 ∧ gives (.mov false 4 0xF5) 0x27 [] 4 = 0 ∧ gives (.mov true 4 0) 0x27 [(0, 9)] 4 = 0 ∧
    gives (.lea false 4 0 2) 0x27 [(0, 0xFFFFFFFF), (1, 1), (2, 1)] 4 = 3 ∧ gives (.lea false 4 0 2) 0x27 [(0, 0xFFFFFFFF), (1, 1), (2, 1)] 5 = 2 ∧
    gives (.getmode false 4) 0x27 [] 4 = 0x27 := by decide +kernel

/-- R66: a result is in b0 for the next instruction, the older one in b1. -/
theorem test_latches :
    (let s := after (.movi false 5 7) (after (.movi false 4 3) (one 0x27 []))
     vOf (after (.iadd false 6 0xF0 0xF1) s) 6 = 10) := by decide +kernel

/-- R225, R235, R277: signed and unsigned comparison, an unordered one, a predicate operation. -/
theorem test_predicates :
    (issOf (after (.icmp 2 3 0 1) (one 0x27 [(0, 0xFFFFFFFF), (1, 0)]))).th.pred 0 3 = true ∧ (issOf (after (.icmp 2 3 0 1) (one 0x67 [(0, 0xFFFFFFFF), (1, 0)]))).th.pred 0 3 = false ∧
    (issOf (after (.fcmp 6 3 0 1) (one 0xB7 [(0, 0x7FC00000)]))).th.pred 0 3 = true ∧ (issOf (after (.plop 0 2 15 7) (one 0x27 []))).th.pred 0 2 = false := by decide +kernel

/-- R274 to R276 in f32: sums, a fused product exact to the last bit, a quotient by zero, a root; f64 in pairs. -/
theorem test_float_results :
    gives (.fadd false 4 0 1) 0xB7 [(0, 0x3F800000), (1, 0x33800000)] 4 = 0x3F800000 ∧ gives (.fadd false 4 0 1) 0x4B7 [(0, 0x3F800000), (1, 0x33800000)] 4 = 0x3F800001 ∧
    gives (.ffma false 4 0 1) 0xB7 [(0, 0x3F800001), (1, 0x3F800001), (4, 0xBF800002)] 4 = 0x28800000 ∧ gives (.fdiv false 4 0 1) 0xB7 [(0, 0x3F800000)] 4 = 0x7F800000 ∧
    gives (.fsqrt false 4 0) 0xB7 [(0, 0x40000000)] 4 = 0x3FB504F3 ∧ gives (.fneg false 4 0) 0xB7 [(0, 0)] 4 = 0x80000000 ∧
    gives (.fmul false 4 0 2) 0xA7 [(1, 0x40000000), (3, 0x40080000)] 5 = 0x40180000 ∧ gives (.fexp2 false 4 0) 0xB7 [(0, 0x40400000)] 4 = 0x41000000 := by decide +kernel

/-- R281, R283, R284: a dot product of bytes, conversions that round, wrap and clamp, packing and its reverse. -/
theorem test_conversion_results :
    gives (.dot4 false 4 0 1) 0x07 [(0, 0x04030201), (1, 0xFF010101), (4, 10)] 4 = 12 ∧ gives (.cvtS32F32 0 4 0) 0x27 [(0, 0xBFC00000)] 4 = 0xFFFFFFFE ∧
    gives (.cvtS32F32 2 4 0) 0x27 [(0, 0xBFC00000)] 4 = 0xFFFFFFFF ∧ gives (.cvtF32S32 0 4 0) 0x27 [(0, 0xFFFFFFFD)] 4 = 0xC0400000 ∧
    gives (.cvtF32H16 0 4 0) 0x27 [(0, 0x3C00)] 4 = 0x3F800000 ∧ gives (.packS8 4 0) 0x827 [(0, 200), (1, 1), (2, 0xFFFFFF00), (3, 2)] 4 = 0x0280017F ∧
    gives (.unpackS8 4 0) 0x27 [(0, 0x8001FF7F)] 7 = 0xFFFFFF80 ∧ gives (.unpackZ4 4 0) 0x27 [(0, 0x80000000)] 11 = 8 := by decide +kernel

/-- R246, R249, R254: where control goes; R199: PC + 4 otherwise. -/
theorem test_control :
    (issOf (after (.bra 4 0) (one 0x27 []))).th.pc = 0x400010 ∧ (issOf (after (.bra 0x3FFF 0) (one 0x27 []))).th.pc = 0x3FFFFC ∧
    (issOf (after (.call 0x1FFFFFF) (one 0x27 []))).th.pc = 0x3FFFFC ∧ ((issOf (after (.call 8) (one 0x27 []))).sec.stack.map Entry.resume) = [0x400004] ∧
    (issOf (after .ret (after (.call 8) (one 0x27 [])))).th.pc = 0x400004 ∧ (issOf (after .join (one 0x27 []))).th.pc = 0x400004 := by decide +kernel

/-- R255 to R257, R262: bytes of memory are read little-endian and extended by TYPE; scratchpad writes; the old value of an atomic. -/
theorem test_memory :
    (let s : State := { withK [(4, 0x500000)] (one 0x07 []) with mem := writeNat base.mem 0x20500000 4 0x80FF7F01 }
     vOf (after (.ld false 8 2 0xF4 3) s) 8 = 0xFFFFFF80 ∧ vOf (after (.ld false 8 2 0xF4 3) (withMode 0x47 s)) 8 = 0x80 ∧ vOf (after (.ld false 8 2 0xF4 1) (withMode 0x17 s)) 8 = 0xFFFF80FF) ∧
    (let s := after (.sts 8 3 0xF4 0) (withK [(6, 16)] (one 0x27 [(8, 0x04030201)]))
     (issOf s).team.scratch = [(16, 1), (17, 2), (18, 3), (19, 4)] ∧ vOf (after (.lds false 9 3 0xF4 0) s) 9 = 0x04030201) ∧
    (let s := after (.atomAdd false 8 2 0xF4 4) (withK [(4, 0x500000)] { one 0x27 [(8, 5)] with mem := writeNat base.mem 0x20500000 4 7 })
     vOf s 8 = 7 ∧ ofBytes (s.physRead 0x20500000 4) = 12) := by decide +kernel

/-- R77 to R79, R206, R80: an illegal TYPE traps with OPND, TRAPAUX being the word; a software trap; the handler's return. -/
theorem test_traps :
    (let c := (issOf (after (.fadd false 4 0 1) (one 0x27 []))).sec
     c.trapCode = 2 ∧ c.trapPc = 0x400000 ∧ c.trapAux = 0x40040001 ∧ c.hmode = true ∧ c.th.pc = 0x400400 ∧ c.th.gmode = 0x27 ∧ c.trapMask = 1) ∧
    (let c := (issOf (after (.trap 0x2A) (one 0x27 []))).sec
     c.trapCode = 0x41 ∧ c.trapAux = 0x2A) ∧
    (let c := (issOf (after .skip (after (.trap 1) (one 0xB7 [])))).sec
     c.hmode = false ∧ c.th.pc = 0x400004 ∧ c.th.gmode = 0xB7 ∧ c.state = .running) ∧
    (let c := (issOf (after .resume (after (.trap 1) (one 0xB7 [])))).sec
     c.hmode = false ∧ c.th.pc = 0x400000) := by decide +kernel

/-- R183 to R186: a barrier of one arrival and 32 bytes; its phase ends with both. -/
theorem test_barrier :
    (let s := after (.tbinit 0xC0 0xC1 0xC2) (withK [(1, 1), (2, 1)] (one 0x27 []))
     let t := after (.tbarrive 0xC0) s
     ((issOf t).team.tbar 0).phase = 0 ∧ ((issOf t).team.tbar 0).penda = 0 ∧ ((issOf (after (.tbwait 0xC0 0xF4) t)).sec.waitOn) = .tbwait ∧
       (((issOf t).team.tbar 0).sectors (-1)).phase = 1 ∧ vOf (after (.tbtest false 4 0xC0 0xF4) t) 4 = 0) := by decide +kernel

def imgLaunch : Launch := { bootLaunch with pkt := { bootPacket with scratch := 1, roles := [(1, 1)], save := 0x800000 } }
def imgSec (v : Word) : Section := { parkedSec with th := { sec0.th with groups := 1, budget := 8, vregs := tset 0 [] (256 * 3 + 2) v } }
def imgTeam (k : Bank) (dr : Bool) (v : Word) (b : Byte) : Team :=
  { secTeam (imgSec v) k dr with scratchSize := 1024, scratch := tset 0 [] 5 b }
def imgBase (t : Team) : State := { base with teams := [t], launches := [imgLaunch] }
/-- R114, R115: register v2 of lane 3 lies behind the header and the role's spill and state; the scratchpad lies behind the registers. -/
theorem test_image_places : (imageKibs imgLaunch.pkt (imgTeam .active true 0x12345678 0x5A)).map (fun x => (x.1, (x.2.drop 268).take 4, (x.2.drop 5).take 1)) =
    [(1024 * 208, [0x78, 0x56, 0x34, 0x12], [0]), (1024 * 209, [0, 0, 0, 0], [0x5A])] := by decide +kernel
/-- R114: a fill reads back what stands in the save area. -/
theorem test_image_in : (let s := (imgBase (imgTeam .saved false 0 0)).physWrite (0x20800000 + 1024 * 208 + 128 * 2 + 4 * 3) [0x78, 0x56, 0x34, 0x12]
   ((s.imageIn (imgTeam .saved false 0 0)).sec? 0 0).map (fun c => c.th.vreg 3 2)) = some 0x12345678 := by decide +kernel

end Sys2Proof.Tests
end

section
/-!
PROOFS. Integer and control forms: what an issued form of one result per lane answers, once per shape of form (guarded, register, lane,
integer, move, shift, count, exchange), and from it the integer arithmetic, the moves, logic, shifts and counts, and the exchange of values
between lanes.
-/

namespace Sys2Proof.Claims

open Sys2Proof.Machine

variable {s : State} {k : Iss} {i : Instr} {n : Bool} {d a b : Sel}

/-! ## What an issued form answers -/

/-- An issued form under the guard answers its effect (R206). -/
theorem AtIssue.guardedForm_eq {u : Iss → Uses} (h : AtIssue s k i (u k)) (dyn : Iss → Bool) (idle : Iss → Thread) (eff : Iss → State)
    (hd : dyn k = true) : guardedForm i s dyn u idle eff = .next (eff k) :=
  guardedForm_next i dyn u idle eff h.issuer h.formed h.active hd h.usable

/-- An issued register form answers its new thread, retired, with the PC gone on (R199). -/
theorem AtIssue.regForm_eq {u : Iss → Uses} (h : AtIssue s k i (u k)) (dyn : Iss → Bool) (f : Iss → Thread) (hd : dyn k = true) :
    regForm i s dyn u f = .next (retireWith k s (f k).advance) :=
  h.guardedForm_eq dyn f _ hd

/-- An issued form of one result per lane answers the thread that holds the lanes' results and flags (R47, R58, R66, R199). -/
theorem AtIssue.laneForm_eq {w : Word → Bool} {srcs : Word → List (Sel × Nat)}
    (h : AtIssue s k i ⟨n, [wsel (w k.th.gmode) d], srcs k.th.gmode⟩) (dyn : Word → Bool) (f : Thread → Nat → DWord × Word)
    (hd : dyn k.th.gmode = true) :
    laneForm i s dyn n d w srcs f =
      .next (retireWith k s (written k n (w k.th.gmode) d (fun l => (f k.th l).1) (fun l => (f k.th l).2))) :=
  AtIssue.regForm_eq (u := fun k => ⟨n, [wsel (w k.th.gmode) d], srcs k.th.gmode⟩) h _ _ hd

/-- An issued integer form writes fin(t) (R223). -/
theorem AtIssue.intForm_eq {srcs : List Sel}
    (h : AtIssue s k i ⟨n, [wsel (tyInt64 (gType k.th.gmode)) d], srcs.map (wsel (tyInt64 (gType k.th.gmode)))⟩)
    (t : Thread → Nat → Int) (hd : intDyn d srcs k.th.gmode = true) :
    intForm i n d srcs t s = .next (retireWith k s (written k n (tyInt64 (gType k.th.gmode)) d
      (fun l => (k.th.ifin (t k.th l)).1) (fun l => (k.th.ifin (t k.th l)).2))) :=
  AtIssue.laneForm_eq (w := fun g => tyInt64 (gType g)) (srcs := fun g => srcs.map (wsel (tyInt64 (gType g)))) h _ _ hd

/-- An issued form of 32 bits that ignores TYPE writes its result and sets no flag (R227 to R231). -/
theorem AtIssue.moveForm_eq {srcs : List Sel} (h : AtIssue s k i ⟨n, [(d, 1)], srcs.map (fun x => (x, 1))⟩)
    (v : Thread → Nat → Word) : moveForm i n d srcs v s = .next (retireWith k s (written32 k n d (v k.th))) :=
  AtIssue.laneForm_eq (w := fun _ => false) (srcs := fun _ => srcs.map (fun x => (x, 1))) h _ _ rfl

/-- An issued shift writes fin of its operand shifted by its count (R229). -/
theorem AtIssue.shiftForm_eq
    (h : AtIssue s k i ⟨n, [wsel (tyInt64 (gType k.th.gmode)) d], [wsel (tyInt64 (gType k.th.gmode)) a, (b, 1)]⟩)
    (t : Int → Nat → Int) (hd : intDyn d [a] k.th.gmode = true) :
    shiftForm i n d a b t s = .next (retireWith k s (written k n (tyInt64 (gType k.th.gmode)) d
      (fun l => (k.th.ifin (t (k.th.iopnd l a) (min (k.th.src32 l b).toNat 64))).1)
      (fun l => (k.th.ifin (t (k.th.iopnd l a) (min (k.th.src32 l b).toNat 64))).2))) :=
  AtIssue.laneForm_eq (w := fun g => tyInt64 (gType g)) (srcs := fun g => [wsel (tyInt64 (gType g)) a, (b, 1)]) h _ _ hd

/-- An issued count writes the count of its operand's pattern as 32 bits (R230). -/
theorem AtIssue.countForm_eq (h : AtIssue s k i ⟨n, [wsel false d], [wsel (tyInt64 (gType k.th.gmode)) a]⟩)
    (f : Nat → Nat → Nat) (ht : tyInt (gType k.th.gmode) = true) (hp : pairSrc (tyInt64 (gType k.th.gmode)) a = true) :
    countForm i n d a f s = .next (retireWith k s (written k n false d
      (fun l => BitVec.ofNat 64 (f (k.th.src (tyInt64 (gType k.th.gmode)) l a) (tyBits (gType k.th.gmode)))) (fun _ => 0))) :=
  AtIssue.laneForm_eq (w := fun _ => false) (srcs := fun g => [wsel (tyInt64 (gType g)) a]) h
    (fun g => tyInt (gType g) && pairSrc (tyInt64 (gType g)) a) _ (by rw [ht, hp]; rfl)

/-- An issued exchange gives each active lane the value of its source lane if that one is active, else its own (R233). -/
theorem AtIssue.shflForm_eq (h : AtIssue s k i ⟨n, [(d, 1)], [(a, 1), (b, 1)]⟩) (from_ : Nat → Nat → Nat) :
    shflForm i n d a b from_ s = .next (retireWith k s ((k.th.putResult n false k.path k.act d (fun l =>
      let m := laneIdx (l / 32) (from_ (l % 32) ((k.th.src32 l b).toNat % 32))
      (k.th.src32 (if k.act.getLsbD m then m else l) a).setWidth 64)).advance)) :=
  AtIssue.regForm_eq (u := fun _ => ⟨n, [(d, 1)], [(a, 1), (b, 1)]⟩) h _ _ rfl

/-! ## Integer arithmetic -/

/-- The magnitude of R224's iabs, as the rule splits it by the sign. -/
theorem natAbs_eq_ite (x : Int) : (x.natAbs : Int) = if x < 0 then -x else x := by
  split <;> omega

/-- Each instruction of R224 is the integer form of its sources and its t. -/
theorem IntRule.exec_eq_intForm {srcs : List Sel} {t : Thread → Nat → Int} (h : IntRule i n d srcs t) (s : State) :
    exec i s = intForm i n d srcs t s := by
  cases h with
  | iabs n d a => simp only [← natAbs_eq_ite]; rfl
  | iadd | isub | imul | imulh | imad | imin | imax | addi => rfl

/-- Settles O1: each form is an integer form, and an issued integer form writes fin(t). -/
theorem integerArithmetic : Obligations.IntegerArithmetic := by
  intro i n d srcs t hrule s k w hissue hdyn
  rw [hrule.exec_eq_intForm]
  exact hissue.intForm_eq t hdyn

/-! ## Moves, logic, shifts and counts -/

/-- Each instruction of R227, R228, R231, R237 and R240 is the 32-bit form of its sources and its result. -/
theorem MoveRule.exec_eq_moveForm {srcs : List Sel} {v : Thread → Nat → Word} (h : MoveRule i n d srcs v) (s : State) :
    exec i s = moveForm i n d srcs v s := by
  cases h <;> rfl

/-- Settles O3: the moves and the logic are 32-bit forms, lea is a form of one pair per lane, the shifts and the counts are forms of
their own, and each of them issued writes its result. -/
theorem movesLogicShifts : Obligations.MovesLogicShifts := by
  refine ⟨⟨?moves, ?lea⟩, ?shifts, ?counts⟩
  case moves =>
    intro i n d srcs v hrule s k hissue
    rw [hrule.exec_eq_moveForm]
    exact hissue.moveForm_eq v
  case lea =>
    intro n d a b s k hissue htype
    change execLea n d a b s = _
    exact hissue.laneForm_eq (w := fun _ => true) (srcs := fun _ => [(a, 2), (b, 1)]) (fun g => tyInt (gType g)) _ htype
  case shifts =>
    intro n d a b s k w v hdyn
    exact ⟨fun hshl => hshl.shiftForm_eq (fun x c => x * (2 ^ c : Nat)) hdyn, fun hshr => hshr.shiftForm_eq (fun x c => x / (2 ^ c : Nat)) hdyn⟩
  case counts =>
    intro n d a s k w pat bits htype hpair
    exact ⟨fun hpopc => hpopc.countForm_eq popCount htype hpair, fun hclz => hclz.countForm_eq leadZeros htype hpair⟩

/-! ## The exchange of values between lanes -/

/-- Settles O5: rdlane reads the one lane it names, shfl and shflx are exchanges by their two ways to name the source lane, and ballot
gathers the predicate. -/
theorem laneExchange : Obligations.LaneExchange := by
  refine ⟨?rdlane, ?shfl, ?shflx, ?ballot⟩
  case rdlane =>
    intro n d a b s k hissue m hlatch
    have hreadable : ¬(0xF0 ≤ a.toNat ∧ a.toNat < 0xF4 ∧ k.th.latchReadable (m / 32) (a.toNat - 0xF0) = false) := by
      rintro ⟨hlo, hhi, hunreadable⟩
      exact Bool.false_ne_true (hunreadable.symm.trans (hlatch hlo hhi))
    exact (hissue.guardedForm_eq (u := fun _ => ⟨n, [(d, 1)], [(a, 1), (b, 1)]⟩) _ _ _ rfl).trans
      (congrArg Host.Outcome.next (if_neg hreadable))
  case shfl => exact fun n d a b s k hissue => hissue.shflForm_eq (fun _ x => x)
  case shflx => exact fun n d a b s k hissue => hissue.shflForm_eq (fun l x => l ^^^ x)
  case ballot => exact fun n d a s k hissue => hissue.regForm_eq (u := fun _ => ⟨n, [(d, 1)], []⟩) _ _ rfl

end Sys2Proof.Claims
end

section
/-!
PROOFS. Float forms: what an issued form of one float result per lane answers, the classification of a float, and from them the float
arithmetic, the choice of the lesser or greater operand and the sign operations.
-/

namespace Sys2Proof.Claims

open Sys2Proof.Machine

variable {s : State} {k : Iss} {i : Instr} {n : Bool} {d a : Sel} {srcs : List Sel}

/-- An issued float form whose TYPE and pairs are legal writes its result of the TYPE's width and ORs its flags (R273). -/
theorem AtIssue.floatForm_eq (h : AtIssue s k i ⟨n, [wsel (isF64 k.th.gmode) d], srcs.map (wsel (isF64 k.th.gmode))⟩)
    (v : Thread → Nat → DWord × Word) (hd : floatDyn [d] srcs k.th.gmode = true) :
    floatForm i n d srcs v s = .next (retireWith k s (written k n (isF64 k.th.gmode) d
      (fun l => (v k.th l).1) (fun l => (v k.th l).2))) :=
  AtIssue.laneForm_eq (w := isF64) (srcs := fun g => srcs.map (wsel (isF64 g))) h (floatDyn [d] srcs) v hd

/-- An issued fclass writes the class of its operand to one register, under f64 as well, and sets no flag (R278). -/
theorem AtIssue.execFclass_eq (h : AtIssue s k (.fclass n d a) ⟨n, [wsel false d], [wsel (isF64 k.th.gmode) a]⟩)
    (hd : floatDyn [] [a] k.th.gmode = true) :
    execFclass n d a s = .next (retireWith k s (written k n false d
      (fun l => BitVec.ofNat 64 (2 ^ fClassBit (tyFmt (gType k.th.gmode)) (k.th.rawBits l a))) (fun _ => 0))) :=
  AtIssue.laneForm_eq (w := fun _ => false) (srcs := fun g => [wsel (isF64 g) a]) h (floatDyn [] [a]) _ hd

/-- Each instruction of R274 to R276 is the float form of its sources and its result; fdiv adds the flags of the division to those of
the rounding. -/
theorem FloatRule.exec_eq_floatForm {v : Thread → Nat → DWord × Word} (h : FloatRule i n d srcs v) (s : State) :
    exec i s = floatForm i n d srcs v s := by
  cases h with
  | fadd | fsub | fmul | ffma | fdiv | fsqrt => rfl
  | fmin | fmax => rfl
  | fabs | fneg => rfl

/-- Settles O6: the forms of R274 to R276 are float forms, fclass is a form of one register per lane, and each of them issued writes its
result and its flags. -/
theorem floatArithmetic : Obligations.FloatArithmetic := by
  refine ⟨?results, ?fclass⟩
  case results =>
    intro i n d srcs v hrule s k w hissue hdyn
    rw [hrule.exec_eq_floatForm]
    exact hissue.floatForm_eq v hdyn
  case fclass => exact fun n d a s k hissue hdyn => hissue.execFclass_eq hdyn

end Sys2Proof.Claims
end

section
/-!
PROOFS. Steps and memory: what comes next in a step, and what its passes add, keeps physical memory in canonical form, and so does a step.
-/

namespace Sys2Proof.Machine

/-- What comes next stands on a memory in canonical form. -/
def Next.MemOk : Next → Prop
  | .run _ s | .done s => s.MemOk

theorem Next.memOk_ite {p : Prop} [Decidable p] {a b : Next} (ha : a.MemOk) (hb : b.MemOk) : (if p then a else b).MemOk := by
  split <;> assumption

/-- The passes of an execution are not in memory. -/
@[simp] theorem settle_mem (k : Iss) (s : State) : (settle k s).mem = s.mem := by
  unfold settle
  split
  · rfl
  · dsimp only
    split <;> simp

theorem settle_memOk {k : Iss} {s : State} (h : s.MemOk) : (settle k s).MemOk := by rw [State.MemOk, settle_mem]; exact h

/-- What the passes add to an answer keeps the canonical form. -/
theorem settled_keeps {s : State} {r : Res} (h : Keeps r) : Keeps (settled s r) := by
  unfold settled
  split
  · exact keeps_next (settle_memOk (h _ rfl))
  · exact h

theorem issueAt_memOk {s : State} (k : Iss) (h : s.MemOk) : (issueAt s k).MemOk := by
  unfold issueAt
  split
  case h_1 s1 hw => rw [Next.MemOk, State.MemOk, waitOn_mem, fetchWord_wait_mem hw]; exact h
  case h_2 => exact raise_wf k s _ h
  case h_3 w s1 hw =>
    have h1 : s1.MemOk := by rw [State.MemOk, fetchWord_word_mem hw]; exact h
    split
    · exact Next.memOk_ite h1 h1
    · exact raise_wf k s1 _ h1

theorem issuePass_memOk {s : State} (t : Team) (c : Section) (port : Nat) (h : s.MemOk) : (issuePass s t c port).MemOk := by
  unfold issuePass
  split
  · exact h
  · dsimp only
    split
    · next k _ =>
      have hi : (issueAt { s with sel := some (.sect t.tid c.role) } k).MemOk := issueAt_memOk k h
      split
      · next hd => rw [hd] at hi; exact settle_memOk hi
      · exact hi
    · exact h

theorem issueSection_memOk {s : State} (t : Team) (c : Section) (port : Nat) (h : s.MemOk) : (issueSection s t c port).MemOk := by
  have pass : (issuePass s t c port).MemOk := issuePass_memOk t c port h
  have issue : (if s.uiHeld t c then Next.done { s with stalled := (t.tid, c.role) :: s.stalled } else issuePass s t c port).MemOk :=
    Next.memOk_ite h pass
  have event (i : Instr) : (runEvent i s).MemOk := h
  unfold issueSection
  refine Next.memOk_ite pass (Next.memOk_ite h (Next.memOk_ite pass (Next.memOk_ite (event _) (Next.memOk_ite h
    (Next.memOk_ite (event _) (Next.memOk_ite (event _) ?_))))))
  split
  · exact Next.memOk_ite (event _) issue
  · exact Next.memOk_ite (event _) issue
  · exact issue

theorem issueLane_memOk {s : State} (d c idx : Nat) (h : s.MemOk) : (issueLane s d c idx).MemOk := by
  unfold issueLane
  split
  · exact h
  · split
    · refine Next.memOk_ite h (Next.memOk_ite h ?_)
      split
      · exact issueAt_memOk _ h
      · exact h
    · exact h

theorem issueOn_memOk {s : State} (d c port : Nat) (h : s.MemOk) : (issueOn s d c port).MemOk := by
  unfold issueOn
  refine Next.memOk_ite ?_ (issueLane_memOk d c _ h)
  split
  · exact issueSection_memOk _ _ _ h
  · exact h

theorem hostStore_memOk {s : State} (pa : Nat) (bs : List Byte) (h : s.MemOk) : (hostStore s pa bs).MemOk := by
  unfold hostStore
  split
  · exact physWrite_memOk s pa bs h
  · exact h

theorem setThrash_memOk {s : State} (ctx m w t : Nat) (h : s.MemOk) : (setThrash s ctx m w t).MemOk := by
  unfold setThrash
  split <;> exact h

/-- The choice of the next act keeps the canonical form, whatever heads the agenda. -/
theorem nextOf_memOk {s : State} (h : s.MemOk) : (nextOf s).MemOk := by
  unfold nextOf
  split
  case h_1 => exact h
  case h_2 => exact issueOn_memOk _ _ _ h
  case h_3 | h_4 | h_7 => exact h
  case h_5 => exact hostStore_memOk _ _ h
  case h_6 => exact setThrash_memOk _ _ _ _ h
  case h_8 => exact issueOn_memOk _ _ _ h

end Sys2Proof.Machine

namespace Sys2Proof.Claims

open Sys2Proof.Machine

/-- Settles O59: the time that passes and the choice of the next act keep the form, and so does the meaning of every instruction and
event. -/
theorem stepKeepsMemory : Obligations.StepKeepsMemory := by
  intro s t hs hstep
  have h : (nextOf (tick s)).MemOk := nextOf_memOk (by rw [State.MemOk, tick_mem]; exact hs)
  unfold step at hstep
  cases hn : nextOf (tick s) with
  | run i s1 =>
    rw [hn] at h hstep
    exact settled_keeps (exec_keeps i s1 h) t hstep
  | done s1 =>
    rw [hn] at h hstep
    cases hstep
    exact h

end Sys2Proof.Claims
end

section
/-!
PROOFS. Words: what each format of R200 says of a word's parts, and from it that decoding and encoding agree.
-/

namespace Sys2Proof

/-- A vector is the concatenation of its own parts alone. -/
theorem eq_append_iff {v l : Nat} {x : BitVec v} {y : BitVec l} {z : BitVec (v + l)} :
    z = x ++ y ↔ z.extractLsb' l v = x ∧ z.extractLsb' 0 l = y := by
  constructor
  · rintro rfl
    exact ⟨BitVec.extractLsb'_append_eq_left, BitVec.extractLsb'_append_eq_right⟩
  · rintro ⟨rfl, rfl⟩
    exact BitVec.extractLsb'_append_extractLsb'.symm

/-- A part of a part is a part of the whole. -/
theorem slice_slice {v s l s' l' : Nat} {x : BitVec v} (h : s' + l' ≤ l) :
    (x.extractLsb' s l).extractLsb' s' l' = x.extractLsb' (s + s') l' := by
  ext i hi
  simp only [BitVec.getElem_extractLsb', BitVec.getLsbD_extractLsb', show s' + i < l by omega, decide_true, Bool.true_and, Nat.add_assoc]

/-- A part of one bit holds that bit. -/
theorem bit_eq_iff {v : Nat} {x : BitVec v} {i : Nat} {n : Bool} : x.extractLsb' i 1 = bit n ↔ x.getLsbD i = n := by
  rw [BitVec.getLsbD_eq_extractLsb', bit]
  generalize x.extractLsb' i 1 = y
  revert y n
  decide

/-! ## The formats -/

set_option linter.unusedSimpArgs false

variable {w : Word} {i : Instr}
/-- Major, N and three selectors. -/
theorem word_ndab {m : BitVec 7} {n : Bool} {d a b : BitVec 8} :
    m ++ bit n ++ d ++ a ++ b = w ↔
      w.extractLsb' 25 7 = m ∧ w.getLsbD 24 = n ∧ w.extractLsb' 16 8 = d ∧ w.extractLsb' 8 8 = a ∧ w.extractLsb' 0 8 = b := by
  refine (eq_comm.trans eq_append_iff).trans ?_
  simp (disch := decide) only [-Nat.reduceAdd, eq_append_iff, bit_eq_iff, slice_slice, and_assoc]

/-- Major, N, a selector and a half-word. -/
theorem word_ndi {m : BitVec 7} {n : Bool} {d : BitVec 8} {i : BitVec 16} :
    m ++ bit n ++ d ++ i = w ↔ w.extractLsb' 25 7 = m ∧ w.getLsbD 24 = n ∧ w.extractLsb' 16 8 = d ∧ w.extractLsb' 0 16 = i := by
  refine (eq_comm.trans eq_append_iff).trans ?_
  simp (disch := decide) only [-Nat.reduceAdd, eq_append_iff, bit_eq_iff, slice_slice, and_assoc]

/-- A comparison that writes a predicate. -/
theorem word_zcpab {m : BitVec 7} {c p : BitVec 3} {a b : BitVec 8} :
    m ++ 0#3 ++ c ++ p ++ a ++ b = w ↔
      w.extractLsb' 25 7 = m ∧ w.extractLsb' 22 3 = 0#3 ∧ w.extractLsb' 19 3 = c ∧ w.extractLsb' 16 3 = p ∧ w.extractLsb' 8 8 = a ∧ w.extractLsb' 0 8 = b := by
  refine (eq_comm.trans eq_append_iff).trans ?_
  simp (disch := decide) only [-Nat.reduceAdd, eq_append_iff, bit_eq_iff, slice_slice, and_assoc]

/-- Logic or a vote that writes a predicate. -/
theorem word_zopab {m : BitVec 7} {o : BitVec 2} {p : BitVec 3} {a b : BitVec 8} :
    m ++ 0#4 ++ o ++ p ++ a ++ b = w ↔
      w.extractLsb' 25 7 = m ∧ w.extractLsb' 21 4 = 0#4 ∧ w.extractLsb' 19 2 = o ∧ w.extractLsb' 16 3 = p ∧ w.extractLsb' 8 8 = a ∧ w.extractLsb' 0 8 = b := by
  refine (eq_comm.trans eq_append_iff).trans ?_
  simp (disch := decide) only [-Nat.reduceAdd, eq_append_iff, bit_eq_iff, slice_slice, and_assoc]

/-- setmode. -/
theorem word_zeg {m : BitVec 7} {e : BitVec 4} {g : BitVec 16} :
    m ++ 0#5 ++ e ++ g = w ↔ w.extractLsb' 25 7 = m ∧ w.extractLsb' 20 5 = 0#5 ∧ w.extractLsb' 16 4 = e ∧ w.extractLsb' 0 16 = g := by
  refine (eq_comm.trans eq_append_iff).trans ?_
  simp (disch := decide) only [-Nat.reduceAdd, eq_append_iff, bit_eq_iff, slice_slice, and_assoc]

/-- A selector and a half-word, no N. -/
theorem word_zdi {m : BitVec 7} {d : BitVec 8} {i : BitVec 16} :
    m ++ 0#1 ++ d ++ i = w ↔ w.extractLsb' 25 7 = m ∧ w.extractLsb' 24 1 = 0#1 ∧ w.extractLsb' 16 8 = d ∧ w.extractLsb' 0 16 = i := by
  refine (eq_comm.trans eq_append_iff).trans ?_
  simp (disch := decide) only [-Nat.reduceAdd, eq_append_iff, bit_eq_iff, slice_slice, and_assoc]

/-- bra. -/
theorem word_oj {m : BitVec 7} {o : BitVec 14} {j : BitVec 11} :
    m ++ o ++ j = w ↔ w.extractLsb' 25 7 = m ∧ w.extractLsb' 11 14 = o ∧ w.extractLsb' 0 11 = j := by
  refine (eq_comm.trans eq_append_iff).trans ?_
  simp (disch := decide) only [-Nat.reduceAdd, eq_append_iff, bit_eq_iff, slice_slice, and_assoc]

/-- call, and the forms of 25 unused bits. -/
theorem word_o {m : BitVec 7} {o : BitVec 25} :
    m ++ o = w ↔ w.extractLsb' 25 7 = m ∧ w.extractLsb' 0 25 = o := by
  refine (eq_comm.trans eq_append_iff).trans ?_
  simp (disch := decide) only [-Nat.reduceAdd, eq_append_iff, bit_eq_iff, slice_slice, and_assoc]

/-- calli. -/
theorem word_zab {m : BitVec 7} {a b : BitVec 8} :
    m ++ 0#9 ++ a ++ b = w ↔ w.extractLsb' 25 7 = m ∧ w.extractLsb' 16 9 = 0#9 ∧ w.extractLsb' 8 8 = a ∧ w.extractLsb' 0 8 = b := by
  refine (eq_comm.trans eq_append_iff).trans ?_
  simp (disch := decide) only [-Nat.reduceAdd, eq_append_iff, bit_eq_iff, slice_slice, and_assoc]

/-- The M format with a destination. -/
theorem word_ndkoi {m : BitVec 7} {n : Bool} {d : BitVec 8} {k : BitVec 5} {o : BitVec 8} {i : BitVec 3} :
    m ++ bit n ++ d ++ k ++ o ++ i = w ↔
      w.extractLsb' 25 7 = m ∧ w.getLsbD 24 = n ∧ w.extractLsb' 16 8 = d ∧ w.extractLsb' 11 5 = k ∧ w.extractLsb' 3 8 = o ∧ w.extractLsb' 0 3 = i := by
  refine (eq_comm.trans eq_append_iff).trans ?_
  simp (disch := decide) only [-Nat.reduceAdd, eq_append_iff, bit_eq_iff, slice_slice, and_assoc]

/-- The M format with a source. -/
theorem word_zdkoi {m : BitVec 7} {d : BitVec 8} {k : BitVec 5} {o : BitVec 8} {i : BitVec 3} :
    m ++ 0#1 ++ d ++ k ++ o ++ i = w ↔
      w.extractLsb' 25 7 = m ∧ w.extractLsb' 24 1 = 0#1 ∧ w.extractLsb' 16 8 = d ∧ w.extractLsb' 11 5 = k ∧ w.extractLsb' 3 8 = o ∧ w.extractLsb' 0 3 = i := by
  refine (eq_comm.trans eq_append_iff).trans ?_
  simp (disch := decide) only [-Nat.reduceAdd, eq_append_iff, bit_eq_iff, slice_slice, and_assoc]

/-- Three selectors, no N. -/
theorem word_zdab {m : BitVec 7} {d a b : BitVec 8} :
    m ++ 0#1 ++ d ++ a ++ b = w ↔
      w.extractLsb' 25 7 = m ∧ w.extractLsb' 24 1 = 0#1 ∧ w.extractLsb' 16 8 = d ∧ w.extractLsb' 8 8 = a ∧ w.extractLsb' 0 8 = b := by
  refine (eq_comm.trans eq_append_iff).trans ?_
  simp (disch := decide) only [-Nat.reduceAdd, eq_append_iff, bit_eq_iff, slice_slice, and_assoc]

/-- Page 0x7E with an override. -/
theorem word_xzrab {m : BitVec 7} {x : BitVec 6} {r : BitVec 2} {a b : BitVec 8} :
    m ++ x ++ 0#1 ++ r ++ a ++ b = w ↔
      w.extractLsb' 25 7 = m ∧ w.extractLsb' 19 6 = x ∧ w.extractLsb' 18 1 = 0#1 ∧ w.extractLsb' 16 2 = r ∧ w.extractLsb' 8 8 = a ∧ w.extractLsb' 0 8 = b := by
  refine (eq_comm.trans eq_append_iff).trans ?_
  simp (disch := decide) only [-Nat.reduceAdd, eq_append_iff, bit_eq_iff, slice_slice, and_assoc]

/-- A page minor with a 3-bit sub and two selectors. -/
theorem word_xcab {m : BitVec 7} {x : BitVec 6} {c : BitVec 3} {a b : BitVec 8} :
    m ++ x ++ c ++ a ++ b = w ↔
      w.extractLsb' 25 7 = m ∧ w.extractLsb' 19 6 = x ∧ w.extractLsb' 16 3 = c ∧ w.extractLsb' 8 8 = a ∧ w.extractLsb' 0 8 = b := by
  refine (eq_comm.trans eq_append_iff).trans ?_
  simp (disch := decide) only [-Nat.reduceAdd, eq_append_iff, bit_eq_iff, slice_slice, and_assoc]

/-- waitc. -/
theorem word_xczt {m : BitVec 7} {x : BitVec 6} {c : BitVec 3} {t : BitVec 6} :
    m ++ x ++ c ++ 0#10 ++ t = w ↔
      w.extractLsb' 25 7 = m ∧ w.extractLsb' 19 6 = x ∧ w.extractLsb' 16 3 = c ∧ w.extractLsb' 6 10 = 0#10 ∧ w.extractLsb' 0 6 = t := by
  refine (eq_comm.trans eq_append_iff).trans ?_
  simp (disch := decide) only [-Nat.reduceAdd, eq_append_iff, bit_eq_iff, slice_slice, and_assoc]

/-- bar. -/
theorem word_xczeb {m : BitVec 7} {x : BitVec 6} {c : BitVec 3} {e : BitVec 4} {b : BitVec 8} :
    m ++ x ++ c ++ 0#4 ++ e ++ b = w ↔
      w.extractLsb' 25 7 = m ∧ w.extractLsb' 19 6 = x ∧ w.extractLsb' 16 3 = c ∧ w.extractLsb' 12 4 = 0#4 ∧ w.extractLsb' 8 4 = e ∧ w.extractLsb' 0 8 = b := by
  refine (eq_comm.trans eq_append_iff).trans ?_
  simp (disch := decide) only [-Nat.reduceAdd, eq_append_iff, bit_eq_iff, slice_slice, and_assoc]

/-- A page minor with 19 unused bits. -/
theorem word_xo {m : BitVec 7} {x : BitVec 6} {o : BitVec 19} :
    m ++ x ++ o = w ↔ w.extractLsb' 25 7 = m ∧ w.extractLsb' 19 6 = x ∧ w.extractLsb' 0 19 = o := by
  refine (eq_comm.trans eq_append_iff).trans ?_
  simp (disch := decide) only [-Nat.reduceAdd, eq_append_iff, bit_eq_iff, slice_slice, and_assoc]

/-- fence. -/
theorem word_xci {m : BitVec 7} {x : BitVec 6} {c : BitVec 3} {i : BitVec 16} :
    m ++ x ++ c ++ i = w ↔ w.extractLsb' 25 7 = m ∧ w.extractLsb' 19 6 = x ∧ w.extractLsb' 16 3 = c ∧ w.extractLsb' 0 16 = i := by
  refine (eq_comm.trans eq_append_iff).trans ?_
  simp (disch := decide) only [-Nat.reduceAdd, eq_append_iff, bit_eq_iff, slice_slice, and_assoc]

/-- A page minor with one low byte. -/
theorem word_xzb {m : BitVec 7} {x : BitVec 6} {b : BitVec 8} :
    m ++ x ++ 0#11 ++ b = w ↔ w.extractLsb' 25 7 = m ∧ w.extractLsb' 19 6 = x ∧ w.extractLsb' 8 11 = 0#11 ∧ w.extractLsb' 0 8 = b := by
  refine (eq_comm.trans eq_append_iff).trans ?_
  simp (disch := decide) only [-Nat.reduceAdd, eq_append_iff, bit_eq_iff, slice_slice, and_assoc]

/-- svc. -/
theorem word_xznab {m : BitVec 7} {x : BitVec 6} {n : Bool} {a b : BitVec 8} :
    m ++ x ++ 0#2 ++ bit n ++ a ++ b = w ↔
      w.extractLsb' 25 7 = m ∧ w.extractLsb' 19 6 = x ∧ w.extractLsb' 17 2 = 0#2 ∧ w.getLsbD 16 = n ∧ w.extractLsb' 8 8 = a ∧ w.extractLsb' 0 8 = b := by
  refine (eq_comm.trans eq_append_iff).trans ?_
  simp (disch := decide) only [-Nat.reduceAdd, eq_append_iff, bit_eq_iff, slice_slice, and_assoc]

/-! ## From the instruction to the word and back -/

/-- Major 0x7E is decoded by its page (R210). -/
theorem decode_page7E (hm : w.extractLsb' 25 7 = 0x7E#7) : decode w = decodePage7E w := by
  rw [decode, hm]
  rfl

/-- Major 0x7F is decoded by its page (R211). -/
theorem decode_page7F (hm : w.extractLsb' 25 7 = 0x7F#7) : decode w = decodePage7F w := by
  rw [decode, hm]
  rfl

/-- A word that encodes an instruction decodes to it, format by format. -/
theorem decode_of_encode (h : encode i = some w) : decode w = .ok i := by
  cases i
  case iadd | isub | imul | imulh | imad | imin | imax | lea | and | or | xor | shl | shr | rdlane | shfl | shflx | fadd | fsub | fmul |
      ffma | fdiv | fmin | fmax | dot2 | dot4 | dot8 | mma | mmad | mmadg | mmadw | rast | tex | texg | rayq | trace | tbtest =>
    obtain ⟨hm, rfl, rfl, rfl, rfl⟩ := word_ndab.1 (Option.some.inj h)
    rw [decode, hm]
    rfl
  case iabs | not | popc | clz | mov | ballot | fsqrt | fabs | fneg | fclass | frcp | frsq | fexp2 | flog2 | fsin | fcos =>
    obtain ⟨hm, rfl, rfl, rfl, hz⟩ := word_ndab.1 (Option.some.inj h)
    rw [decode, hm]
    exact if_pos hz
  case icmp | fcmp =>
    obtain ⟨hm, hz, rfl, rfl, rfl, rfl⟩ := word_zcpab.1 (Option.some.inj h)
    rw [decode, hm]
    exact if_pos hz
  case addi | movi | movhi =>
    obtain ⟨hm, rfl, rfl, rfl⟩ := word_ndi.1 (Option.some.inj h)
    rw [decode, hm]
    rfl
  case vote =>
    obtain ⟨hm, hz, rfl, rfl, rfl, hz'⟩ := word_zopab.1 (Option.some.inj h)
    rw [decode, hm]
    exact if_pos ⟨hz, hz'⟩
  case plop =>
    obtain ⟨hm, hz, rfl, rfl, rfl, rfl⟩ := word_zopab.1 (Option.some.inj h)
    rw [decode, hm]
    exact if_pos hz
  case movp | getmode =>
    obtain ⟨hm, rfl, rfl, hz⟩ := word_ndi.1 (Option.some.inj h)
    rw [decode, hm]
    exact if_pos hz
  case setmode =>
    obtain ⟨hm, hz, rfl, rfl⟩ := word_zeg.1 (Option.some.inj h)
    rw [decode, hm]
    exact if_pos hz
  case mfs =>
    obtain ⟨hm, rfl, rfl, hz, rfl⟩ := word_ndab.1 (Option.some.inj h)
    rw [decode, hm]
    exact if_pos hz
  case mts | brx =>
    obtain ⟨hm, hz, rfl, rfl⟩ := word_zdi.1 (Option.some.inj h)
    rw [decode, hm]
    exact if_pos hz
  case bra =>
    obtain ⟨hm, rfl, rfl⟩ := word_oj.1 (Option.some.inj h)
    rw [decode, hm]
    rfl
  case call =>
    obtain ⟨hm, rfl⟩ := word_o.1 (Option.some.inj h)
    rw [decode, hm]
    rfl
  case join | ret | exit =>
    obtain ⟨hm, hz⟩ := word_o.1 (Option.some.inj h)
    rw [decode, hm]
    exact if_pos hz
  case calli =>
    obtain ⟨hm, hz, rfl, hz'⟩ := word_zab.1 (Option.some.inj h)
    rw [decode, hm]
    exact if_pos ⟨hz, hz'⟩
  case ld | lds | ldp | ldt | atomAdd | atomMin | atomMax | atomAnd | atomOr | atomXor | atomXchg | atomCas =>
    obtain ⟨hm, rfl, rfl, rfl, rfl, rfl⟩ := word_ndkoi.1 (Option.some.inj h)
    rw [decode, hm]
    rfl
  case st | sts | stp | stt | redAdd | redMin | redMax | redAnd | redOr | redXor =>
    obtain ⟨hm, hz, rfl, rfl, rfl, rfl⟩ := word_zdkoi.1 (Option.some.inj h)
    rw [decode, hm]
    exact if_pos hz
  case lupd | tbinit =>
    obtain ⟨hm, hz, rfl, rfl, rfl⟩ := word_zdab.1 (Option.some.inj h)
    rw [decode, hm]
    exact if_pos hz
  case cvtF32F64 | cvtF64F32 | cvtF32H16 | cvtH16F32 | cvtF32W16 | cvtW16F32 | cvtF32S32 | cvtF32Z32 | cvtS32F32 | cvtZ32F32 | cvtF64S64 |
      cvtF64Z64 | cvtS64F64 | cvtZ64F64 | cvtF64S32 | cvtS32F64 | cvtF32S64 | cvtS64F32 | cvtQ8F32 | cvtF32Q8 | cvtQ6F32 | cvtF32Q6 |
      cvtQ4F32 | cvtF32Q4 | cvtS8S32 | cvtZ8Z32 | cvtS16S32 | cvtZ16Z32 | cvtS64S32 | cvtZ64Z32 | cvtS32S64 | cvtZ32Z64 | packH16 |
      packW16 | packQ8 | packQ6 | packQ4 =>
    obtain ⟨hm, hx, hz, rfl, rfl, rfl⟩ := word_xzrab.1 (Option.some.inj h)
    rw [decode_page7E hm, decodePage7E, hx]
    exact if_pos hz
  case unpackH16 | unpackW16 | unpackQ8 | unpackQ6 | unpackQ4 | packS8 | unpackS8 | packZ8 | unpackZ8 | packS4 | unpackS4 | packZ4 |
      unpackZ4 =>
    obtain ⟨hm, hx, hz, rfl, rfl⟩ := word_xcab.1 (Option.some.inj h)
    rw [decode_page7E hm, decodePage7E, hx]
    exact if_pos hz
  case tcopy | tcopys | treduce | bind | unbind | tbarrive | resid | assert =>
    obtain ⟨hm, hx, hz, rfl, hz'⟩ := word_xcab.1 (Option.some.inj h)
    rw [decode_page7F hm, decodePage7F, hx]
    exact if_pos ⟨hz, hz'⟩
  case waitc =>
    obtain ⟨hm, hx, rfl, hz, rfl⟩ := word_xczt.1 (Option.some.inj h)
    rw [decode_page7F hm, decodePage7F, hx]
    exact if_pos hz
  case tbexpect | tbwait | sptest | sysflush | sysinv | mldn | mldw | evpop | uisend =>
    obtain ⟨hm, hx, hz, rfl, rfl⟩ := word_xcab.1 (Option.some.inj h)
    rw [decode_page7F hm, decodePage7F, hx]
    exact if_pos hz
  case bar =>
    obtain ⟨hm, hx, rfl, hz, rfl, hz'⟩ := word_xczeb.1 (Option.some.inj h)
    rw [decode_page7F hm, decodePage7F, hx]
    exact if_pos ⟨hz, hz'⟩
  case gbar | backoff | resume | skip | brkpt | uiret | idemEnter | hold =>
    obtain ⟨hm, hx, hz⟩ := word_xo.1 (Option.some.inj h)
    rw [decode_page7F hm, decodePage7F, hx]
    exact if_pos hz
  case fence =>
    obtain ⟨hm, hx, rfl, hz⟩ := word_xci.1 (Option.some.inj h)
    rw [decode_page7F hm, decodePage7F, hx]
    exact if_pos hz
  case fenceRp =>
    obtain ⟨hm, hx, rfl, rfl, hz⟩ := word_xcab.1 (Option.some.inj h)
    rw [decode_page7F hm, decodePage7F, hx]
    exact if_pos hz
  case spcast | spcastOff | dtest | blend | pstore =>
    obtain ⟨hm, hx, rfl, rfl, rfl⟩ := word_xcab.1 (Option.some.inj h)
    rw [decode_page7F hm, decodePage7F, hx]
    rfl
  case curve =>
    obtain ⟨hm, hx, rfl, hz, rfl⟩ := word_xcab.1 (Option.some.inj h)
    rw [decode_page7F hm, decodePage7F, hx]
    exact if_pos hz
  case bmap | trap =>
    obtain ⟨hm, hx, hz, rfl⟩ := word_xzb.1 (Option.some.inj h)
    rw [decode_page7F hm, decodePage7F, hx]
    exact if_pos hz
  case svc =>
    obtain ⟨hm, hx, hz, rfl, rfl, rfl⟩ := word_xznab.1 (Option.some.inj h)
    rw [decode_page7F hm, decodePage7F, hx]
    exact if_pos hz
  case idemLeave =>
    obtain ⟨hm, hx, hz⟩ := word_xo.1 (Option.some.inj h)
    rw [decode_page7F hm, decodePage7F, hx]
    exact (if_neg (by rw [hz]; decide)).trans (if_pos hz)
  all_goals nomatch h

/-! ## From the word to the instruction -/

theorem eq_ofNat_of_toNat {v n : Nat} {x : BitVec v} (h : x.toNat = n) : x = BitVec.ofNat v n := by
  rw [← h, BitVec.ofNat_toNat, BitVec.setWidth_eq]

/-- An instruction of page 0x7E encodes to the word that decoded to it. -/
theorem encode_of_page7E (hm : w.extractLsb' 25 7 = 0x7E#7) (h : decodePage7E w = .ok i) : encode i = some w := by
  unfold decodePage7E at h
  split at h
  case h_51 => nomatch h
  all_goals
    next hx =>
    split at h
    · next hz =>
      cases h
      simp only [encode, Option.some.injEq, word_xzrab, word_xcab, hm, eq_ofNat_of_toNat hx, true_and, and_true]
      exact hz
    · nomatch h

/-- An instruction of page 0x7F encodes to the word that decoded to it. -/
theorem encode_of_page7F (hm : w.extractLsb' 25 7 = 0x7F#7) (h : decodePage7F w = .ok i) : encode i = some w := by
  unfold decodePage7F at h
  split at h
  case h_39 => nomatch h
  all_goals
    rename_i hx
    replace hx := eq_ofNat_of_toNat hx
  all_goals
    repeat' split at h
  all_goals
    cases h
  all_goals
    simp_all only [encode, Option.some.injEq, word_xczt, word_xczeb, word_xo, word_xci, word_xzb, word_xznab, word_xcab, 
      BitVec.ofNat_eq_ofNat, and_true, true_and]

/-- A decoded word encodes the instruction. -/
theorem encode_of_decode (h : decode w = .ok i) : encode i = some w := by
  unfold decode at h
  split at h
  case h_96 hx => exact encode_of_page7E (eq_ofNat_of_toNat hx) h
  case h_97 hx => exact encode_of_page7F (eq_ofNat_of_toNat hx) h
  case h_98 => nomatch h
  all_goals
    rename_i hx
    replace hx := eq_ofNat_of_toNat hx
  all_goals
    repeat' split at h
  all_goals
    cases h
  all_goals
    simp_all only [encode, Option.some.injEq, word_ndab, word_ndi, word_zcpab, word_zopab, word_zeg, word_zdi, word_oj, word_o, word_zab,
      word_ndkoi, word_zdkoi, word_zdab, BitVec.ofNat_eq_ofNat, and_true, true_and]

/-- Exactly the instructions that are no events have a word. -/
theorem isSome_encode (i : Instr) : (encode i).isSome = !i.isEvent := by
  cases i <;> rfl

end Sys2Proof

namespace Sys2Proof.Claims

/-- Settles O54: an encoded instruction decodes to itself by its format, and each arm of the decoder names the parts of which the word
is put together. -/
theorem decodeEncode : Obligations.DecodeEncode := by
  refine ⟨fun i hi => ?_, fun w i h => ⟨?_, encode_of_decode h⟩⟩
  · obtain ⟨w, hw⟩ := Option.isSome_iff_exists.1 ((isSome_encode i).trans (congrArg Bool.not hi))
    exact ⟨w, hw, decode_of_encode hw⟩
  · have hs := isSome_encode i
    rw [encode_of_decode h] at hs
    simpa using hs

/-- Settles O55: each word is put together from its fields, and the decoder evaluates on it. -/
theorem decodedWords : Obligations.DecodedWords := by
  refine ⟨?_, ?_, ?_, ?_, ?_, ?_, ?_, ?_, ?_, ?_, ?_, ?_, ?_⟩ <;> rfl

end Sys2Proof.Claims
end

section
/-!
PROOFS. Lane forms: fin over every value, the forms that judge a predicate, the transcendentals, the conversions and the packed forms.
-/

namespace Sys2Proof.Machine

/-- Two functions that agree on a list keep the same of it. -/
theorem filterMap_congr_of_mem {α β : Type} {f g : α → Option β} {l : List α} (h : ∀ x ∈ l, f x = g x) : l.filterMap f = l.filterMap g := by
  induction l with
  | nil => rfl
  | cons x r ih =>
    rw [List.filterMap_cons, List.filterMap_cons, h x List.mem_cons_self, ih (fun y hy => h y (List.mem_cons_of_mem x hy))]

/-- The value that wraps into the range of `n` bits differs from `t` by a multiple of 2^n (R223). -/
theorem wrapInt_congr (sgn : Bool) (n : Nat) (t : Int) : ∃ q : Int, wrapInt sgn n t = t + q * (2 ^ n : Nat) := by
  have hdiv := Int.emod_add_mul_ediv t (2 ^ n : Nat)
  unfold wrapInt
  simp only
  split
  · exact ⟨-(t / (2 ^ n : Nat)) - 1, by rw [Int.sub_mul, Int.neg_mul, Int.mul_comm (t / _), Int.one_mul]; omega⟩
  · exact ⟨-(t / (2 ^ n : Nat)), by rw [Int.neg_mul, Int.mul_comm (t / _)]; omega⟩

/-- A wrapped value lies in the range of `n` bits (R223). -/
theorem wrapInt_mem_range (sgn : Bool) {n : Nat} (t : Int) (hn : 0 < n) :
    intLo sgn n ≤ wrapInt sgn n t ∧ wrapInt sgn n t ≤ intHi sgn n := by
  obtain ⟨m, rfl⟩ : ∃ m, n = m + 1 := ⟨n - 1, by omega⟩
  have htwo : ((2 ^ (m + 1) : Nat) : Int) = 2 * (2 ^ m : Nat) := by rw [Nat.pow_succ, Nat.mul_comm]; rfl
  have hpos : 0 < ((2 ^ m : Nat) : Int) := by exact_mod_cast Nat.two_pow_pos m
  have hlo := Int.emod_nonneg t (b := (2 ^ (m + 1) : Nat)) (by omega)
  have hhi := Int.emod_lt_of_pos t (b := (2 ^ (m + 1) : Nat)) (by omega)
  cases sgn
  case false =>
    simp only [wrapInt, intLo, intHi, Bool.false_and, Bool.false_eq_true, if_false]
    omega
  case true =>
    simp only [wrapInt, intLo, intHi, Bool.true_and, if_true, decide_eq_true_eq, Nat.add_sub_cancel]
    split <;> omega

/-- The bounds of a range of at least one bit stand in order (R223). -/
theorem intLo_le_intHi (sgn : Bool) (n : Nat) : intLo sgn n ≤ intHi sgn n := by
  have hpos : ∀ m : Nat, 0 < ((2 ^ m : Nat) : Int) := fun m => by exact_mod_cast Nat.two_pow_pos m
  have h1 := hpos n
  have h2 := hpos (n - 1)
  cases sgn <;> simp only [intLo, intHi, Bool.false_eq_true, if_false, if_true] <;> omega

/-- fin keeps a value of the range (R223). -/
theorem finInt_of_mem {sgn : Bool} {n : Nat} {sat : BitVec 2} {t : Int} (hlo : intLo sgn n ≤ t) (hhi : t ≤ intHi sgn n) :
    finInt sgn n sat t = (t, 0) :=
  if_neg (by omega)

/-- Without saturation fin is the wrapped value, with no flag, outside the range (R223). -/
theorem finInt_of_not_mem {sgn : Bool} {n : Nat} {sat : BitVec 2} {t : Int} (ht : t < intLo sgn n ∨ intHi sgn n < t) (hsat : sat ≠ 1) :
    finInt sgn n sat t = (wrapInt sgn n t, 0) :=
  (if_pos ht).trans (if_neg hsat)

/-- With saturation fin is the bound that the value passes, with SAT (R223). -/
theorem finInt_sat {sgn : Bool} {n : Nat} {t : Int} (ht : t < intLo sgn n ∨ intHi sgn n < t) :
    finInt sgn n 1 t = (if t < intLo sgn n then intLo sgn n else intHi sgn n, fSAT) :=
  (if_pos ht).trans (if_pos rfl)

/-- An operation field of two bits holds one of four values. -/
theorem two_bits_cases (o : BitVec 2) : o = 0 ∨ o = 1 ∨ o = 2 ∨ o = 3 := by
  revert o
  decide

end Sys2Proof.Machine

namespace Sys2Proof.Claims

open Sys2Proof.Machine

variable {s : State} {k : Iss} {i : Instr} {n : Bool} {d a b : Sel}

/-- Settles O2: inside the range fin is the value; outside it the saturated bound or the wrapped value. -/
theorem finWrapsOrSaturates : Obligations.FinWrapsOrSaturates := by
  intro sgn n sat t hn r
  have hbounds := intLo_le_intHi sgn n
  refine ⟨fun hlo hhi => finInt_of_mem hlo hhi, ?below, ?above, ?wraps⟩
  case below =>
    rintro rfl hlo
    exact (finInt_sat (.inl hlo)).trans (by rw [if_pos hlo])
  case above =>
    rintro rfl hhi
    exact (finInt_sat (.inr hhi)).trans (by rw [if_neg (by omega)])
  case wraps =>
    intro hsat
    by_cases ht : t < intLo sgn n ∨ intHi sgn n < t
    · have hr : r = (wrapInt sgn n t, 0) := finInt_of_not_mem ht hsat
      rw [hr]
      exact ⟨(wrapInt_mem_range sgn t hn).1, (wrapInt_mem_range sgn t hn).2, rfl, wrapInt_congr sgn n t⟩
    · have hr : r = (t, 0) := finInt_of_mem (by omega) (by omega)
      rw [hr]
      exact ⟨by omega, by omega, rfl, 0, by simp⟩

/-! ## Predicates -/

/-- An issued form that judges a predicate writes it, with its flags, in the active lanes (R225, R277). -/
theorem AtIssue.predForm_eq {srcs : Word → List (Sel × Nat)} (h : AtIssue s k i ⟨true, [], srcs k.th.gmode⟩) (dyn : Word → Bool)
    (p : Nat) (f : Thread → Nat → Bool × Word) (hd : dyn k.th.gmode = true) :
    predForm i s dyn p srcs f = .next (retireWith k s (judged k p (fun l => (f k.th l).1) (fun l => (f k.th l).2))) :=
  AtIssue.regForm_eq (u := fun k => ⟨true, [], srcs k.th.gmode⟩) h _ _ hd

/-- Settles O4: icmp, fcmp and plop judge a predicate lane by lane, vote one for all. -/
theorem predicateForms : Obligations.PredicateForms := by
  refine ⟨?icmp, ?fcmp, ?plop, ?vote⟩
  case icmp =>
    intro c p a b s k w hissue htype hpa hpb
    have hdyn : (tyInt (gType k.th.gmode) && pairSrc (tyInt64 (gType k.th.gmode)) a && pairSrc (tyInt64 (gType k.th.gmode)) b) = true := by
      rw [htype, hpa, hpb]; rfl
    exact hissue.predForm_eq (srcs := fun g => [wsel (tyInt64 (gType g)) a, wsel (tyInt64 (gType g)) b])
      (fun g => tyInt (gType g) && pairSrc (tyInt64 (gType g)) a && pairSrc (tyInt64 (gType g)) b) p.toNat
      (fun th l => (intCond c (th.iopnd l a) (th.iopnd l b), 0)) hdyn
  case fcmp =>
    intro c p a b s k hissue hdyn
    exact hissue.predForm_eq (srcs := fun g => [wsel (isF64 g) a, wsel (isF64 g) b]) (floatDyn [] [a, b]) p.toNat
      (fun th l => (fCond c (th.fget l a) (th.fget l b), if (th.fget l a).isSnan || (th.fget l b).isSnan then fNV else 0)) hdyn
  case plop =>
    intro o p a b s k hissue
    change execPlop o p a b s = _
    refine (hissue.predForm_eq (srcs := fun _ => []) (fun _ => true) _ _ rfl).trans ?_
    obtain rfl | rfl | rfl | rfl := two_bits_cases o <;> rfl
  case vote =>
    intro o p a s k hissue
    change execVote o p a s = _
    refine (hissue.regForm_eq (u := fun _ => ⟨true, [], []⟩) (fun _ => true) _ rfl).trans ?_
    obtain rfl | rfl | rfl | rfl := two_bits_cases o <;> rfl

/-! ## Transcendentals, conversions, packing -/

/-- Each instruction of R279 is the transcendental form of its number and its function. -/
theorem TransRule.exec_eq_transForm {op : Nat} {f : Fmt → FVal → TransRes} (h : TransRule i op n d a f) (s : State) :
    exec i s = transForm op i n d a f s := by
  cases h <;> rfl

/-- Settles O7: a transcendental is a float form of one source, whose result is the exact value or the one chosen. -/
theorem transcendentals : Obligations.Transcendentals := by
  intro i op n d a f hrule s k w fm v hissue hdyn
  rw [hrule.exec_eq_transForm]
  exact (hissue.floatForm_eq (srcs := [a]) _ hdyn).trans rfl

/-- Each instruction of R283 is the conversion of its two types. -/
theorem CvtRule.exec_eq_cvtForm {ov : BitVec 2} {dst src : PackElem} (h : CvtRule i ov a b dst src) (s : State) :
    exec i s = cvtForm i ov a b dst src s := by
  cases h <;> rfl

/-- Settles O8: a conversion is a form of one result per lane that every TYPE admits. -/
theorem conversions : Obligations.Conversions := by
  intro i ov a b dst src hrule s k hissue
  rw [hrule.exec_eq_cvtForm]
  exact hissue.laneForm_eq (w := fun _ => dst.isPair) (srcs := fun _ => [wsel src.isPair b]) (fun _ => true) _ rfl

/-- Each packed dot product of R281 is the form of its number of elements and its TYPEs. -/
theorem DotRule.exec_eq_dotForm {cnt : Nat} {tys : List Nat} (h : DotRule i cnt tys n d a b) (s : State) :
    exec i s = dotForm i cnt tys n d a b s := by
  cases h <;> rfl

/-- Each pack of R284 is the form of its number of registers and its types. -/
theorem PackRule.exec_eq_packForm {ov : BitVec 2} {cnt : Nat} {e wide : PackElem} (h : PackRule i ov a b cnt e wide) (s : State) :
    exec i s = packForm i ov a b cnt e wide s := by
  cases h <;> rfl

/-- Each unpack of R284 is the form of its number of registers and its types. -/
theorem UnpackRule.exec_eq_unpackForm {cnt : Nat} {e wide : PackElem} (h : UnpackRule i a b cnt e wide) (s : State) :
    exec i s = unpackForm i a b cnt e wide s := by
  cases h <;> rfl

/-- Settles O9: a dot product, a pack and an unpack are forms of one result, one register and one run per lane. -/
theorem packedForms : Obligations.PackedForms := by
  refine ⟨?dot, ?pack, ?unpack⟩
  case dot =>
    intro i cnt tys n d a b hrule s k e hissue htype helem
    rw [hrule.exec_eq_dotForm]
    refine (hissue.laneForm_eq (w := fun _ => false) (srcs := fun _ => [(a, 1), (b, 1), (d, 1)]) _ _ htype).trans ?_
    simp only [helem]
  case pack =>
    intro i ov a b n e wide hrule s k hissue rs
    rw [hrule.exec_eq_packForm]
    exact hissue.laneForm_eq (w := fun _ => false) (srcs := fun _ => [(b, n)]) (fun _ => true) _ rfl
  case unpack =>
    intro i a b n e wide hrule s k hissue el
    rw [hrule.exec_eq_unpackForm]
    exact hissue.regForm_eq (u := fun _ => ⟨false, [(a, n)], [(b, 1)]⟩) (fun _ => true) _ rfl

end Sys2Proof.Claims
end

section
/-!
PROOFS. Results and latches: the registers that a result is written to, and where a pass leaves the latches of its group.
-/

namespace Sys2Proof.Machine.Thread

open Sys2Proof.Claims

/-! ## What a written result leaves -/

/-- A thread that differs from another in its registers and latches alone. -/
def SameButRegs (a b : Thread) : Prop := ∃ vs ks ls, a = { b with vregs := vs, kregs := ks, latches := ls }

theorem SameButRegs.refl (a : Thread) : SameButRegs a a := ⟨a.vregs, a.kregs, a.latches, rfl⟩

theorem SameButRegs.trans {a b c : Thread} (h : SameButRegs a b) (g : SameButRegs b c) : SameButRegs a c := by
  obtain ⟨v, k, l, rfl⟩ := h
  obtain ⟨v', k', l', rfl⟩ := g
  exact ⟨v, k, l, rfl⟩

theorem SameButRegs.foldl {α : Type} {f : Thread → α → Thread} (hf : ∀ t x, SameButRegs (f t x) t) (l : List α) (t : Thread) :
    SameButRegs (l.foldl f t) t := by
  induction l generalizing t with
  | nil => exact .refl t
  | cons x r ih => exact (ih _).trans (hf t x)

theorem SameButLatches.sameButRegs {a b : Thread} (h : SameButLatches a b) : SameButRegs a b := by
  obtain ⟨ls, rfl⟩ := h
  exact ⟨_, _, ls, rfl⟩

theorem SameButRegs.pred {a b : Thread} (h : SameButRegs a b) (l p : Nat) : a.pred l p = b.pred l p := by
  obtain ⟨_, _, _, rfl⟩ := h
  rfl

theorem SameButRegs.fpflags {a b : Thread} (h : SameButRegs a b) : a.fpflags = b.fpflags := by obtain ⟨_, _, _, rfl⟩ := h; rfl
theorem SameButRegs.gmode {a b : Thread} (h : SameButRegs a b) : a.gmode = b.gmode := by obtain ⟨_, _, _, rfl⟩ := h; rfl
theorem SameButRegs.pc {a b : Thread} (h : SameButRegs a b) : a.pc = b.pc := by obtain ⟨_, _, _, rfl⟩ := h; rfl
theorem SameButRegs.groups {a b : Thread} (h : SameButRegs a b) : a.groups = b.groups := by obtain ⟨_, _, _, rfl⟩ := h; rfl

theorem SameButRegs.lanes {a b : Thread} (h : SameButRegs a b) (m : Mask) : a.lanes m = b.lanes m := by
  unfold Thread.lanes
  rw [h.groups]

theorem putV_sameButRegs (th : Thread) (w : Bool) (l n : Nat) (v : DWord) : SameButRegs (th.putV w l n v) th := by
  cases w <;> exact ⟨_, _, _, rfl⟩

theorem putK_sameButRegs (th : Thread) (w : Bool) (n : Nat) (v : DWord) : SameButRegs (th.putK w n v) th := by
  cases w <;> exact ⟨_, _, _, rfl⟩

/-- The recoverable bits that a write clears are latches. -/
theorem unrecAll_same (th : Thread) (gs : List Nat) (d : Sel) (c : Nat) : SameButLatches (gs.foldl (fun t g => t.unrec g d c) th) th :=
  SameButLatches.foldl _ (fun t g => unrec_same t g d c) gs th

/-- The write-back of a result, case by case: nothing with N = 1; the active lanes' vector registers; the lowest active lane's uniform
ones; nothing otherwise; each up to latches (R58, R60, R61). -/
theorem writeBack_cases (th : Thread) (n w : Bool) (act : Mask) (d : Sel) (f : Nat → DWord) :
    SameButLatches (th.writeBack n w act d f)
      (if n = true then th
       else if d.toNat < 0xC0 then (th.lanes act).foldl (fun t l => t.putV w l d.toNat (f l)) th
       else if d.toNat < 0xF0 then ((th.lowest act).map fun l => th.putK w (uniNo d) (f l)).getD th
       else th) := by
  unfold writeBack
  split
  · exact .refl _
  split
  · exact unrecAll_same _ _ _ _
  split
  · cases th.lowest act with
    | none => exact .refl _
    | some l => exact unrecAll_same _ _ _ _
  · exact .refl _

theorem writeBack_sameButRegs (th : Thread) (n w : Bool) (act : Mask) (d : Sel) (f : Nat → DWord) :
    SameButRegs (th.writeBack n w act d f) th := by
  refine (writeBack_cases th n w act d f).sameButRegs.trans ?_
  split
  · exact .refl _
  split
  · exact .foldl (fun t l => putV_sameButRegs t w l _ _) _ _
  split
  · cases th.lowest act with
    | none => exact .refl _
    | some l => exact putK_sameButRegs _ _ _ _
  · exact .refl _

theorem putResult_sameButRegs (th : Thread) (n w : Bool) (path act : Mask) (d : Sel) (f : Nat → DWord) :
    SameButRegs (th.putResult n w path act d f) th :=
  (latchPass_same _ n w path act d f).sameButRegs.trans (writeBack_sameButRegs th n w act d f)

/-! ## The registers written -/

/-- The vector registers after a register or a pair of one lane is written (R60). -/
theorem vreg_putV (th : Thread) (w : Bool) (l n l' x : Nat) (v : DWord) (hn : n < 0xC0) (hx : x < 256) :
    (th.putV w l n v).vreg l' x = if l' = l then regAfter w n x v (th.vreg l' x) else th.vreg l' x := by
  have hset := fun (t : Thread) (m : Nat) (hm : m < 256) (u : Word) => vreg_setV t l m l' x u hm hx
  cases w with
  | false =>
    simp only [putV, regAfter, hset _ n (by omega), Bool.false_eq_true, if_false, false_and]
    by_cases hl : l' = l <;> simp [hl]
  | true =>
    simp only [putV, regAfter, hset _ n (by omega), hset _ (n + 1) (by omega), if_true, true_and]
    by_cases hl : l' = l <;> by_cases hxn : x = n <;> simp [hl, hxn]

/-- The uniform registers after one or a pair is written (R60). -/
theorem kreg_putK (th : Thread) (w : Bool) (n x : Nat) (v : DWord) : (th.putK w n v).kreg x = regAfter w n x v (th.kreg x) := by
  cases w with
  | false => by_cases hxn : x = n <;> simp [putK, kreg_setK, regAfter, hxn]
  | true => by_cases hxn : x = n <;> simp [putK, kreg_setK, regAfter, hxn]

theorem vreg_putK (th : Thread) (w : Bool) (n : Nat) (v : DWord) (l x : Nat) : (th.putK w n v).vreg l x = th.vreg l x := by
  cases w <;> rfl

theorem kreg_putV (th : Thread) (w : Bool) (l n : Nat) (v : DWord) (x : Nat) : (th.putV w l n v).kreg x = th.kreg x := by
  cases w <;> rfl

/-- Each lane of a list has its own value in the registers written; a lane written twice receives the same value again. -/
theorem vreg_putV_foldl (w : Bool) (n : Nat) (f : Nat → DWord) (l x : Nat) (hn : n < 0xC0) (hx : x < 256) (ls : List Nat) (th : Thread) :
    (ls.foldl (fun t m => t.putV w m n (f m)) th).vreg l x = if l ∈ ls then regAfter w n x (f l) (th.vreg l x) else th.vreg l x := by
  induction ls generalizing th with
  | nil => simp
  | cons m r ih =>
    rw [List.foldl_cons, ih, vreg_putV th w m n l x (f m) hn hx]
    by_cases hm : l = m
    · subst hm
      by_cases hr : l ∈ r
      · simp only [hr, List.mem_cons, or_true, if_true, regAfter]
        split
        · rfl
        · split <;> rfl
      · simp [hr]
    · simp [hm]

theorem kreg_putV_foldl (w : Bool) (n : Nat) (f : Nat → DWord) (x : Nat) (ls : List Nat) (th : Thread) :
    (ls.foldl (fun t m => t.putV w m n (f m)) th).kreg x = th.kreg x := by
  induction ls generalizing th with
  | nil => rfl
  | cons m r ih => rw [List.foldl_cons, ih, kreg_putV]

/-- The vector registers after a result: those it names, in the active lanes alone (R58, R60). -/
theorem vreg_putResult (th : Thread) (n w : Bool) (path act : Mask) (d : Sel) (f : Nat → DWord) (l x : Nat) (hx : x < 256) :
    (th.putResult n w path act d f).vreg l x =
      if n = false ∧ d.toNat < 0xC0 ∧ l ∈ th.lanes act then regAfter w d.toNat x (f l) (th.vreg l x) else th.vreg l x := by
  rw [putResult, vreg_of_same (latchPass_same _ n w path act d f), vreg_of_same (writeBack_cases th n w act d f)]
  cases n with
  | true => simp
  | false =>
    by_cases hvec : d.toNat < 0xC0
    · simp [hvec, vreg_putV_foldl w d.toNat f l x hvec hx]
    · simp only [Bool.false_eq_true, if_false, hvec, false_and, and_false]
      split
      · cases th.lowest act with
        | none => rfl
        | some m => exact vreg_putK _ _ _ _ _ _
      · rfl

/-- The uniform registers after a result: those it names, with the lowest active lane's value (R61). -/
theorem kreg_putResult (th : Thread) (n w : Bool) (path act : Mask) (d : Sel) (f : Nat → DWord) (x : Nat) :
    (th.putResult n w path act d f).kreg x = ((th.lowest act).map fun l =>
      if n = false ∧ 0xC0 ≤ d.toNat ∧ d.toNat < 0xF0 then regAfter w (uniNo d) x (f l) (th.kreg x) else th.kreg x).getD (th.kreg x) := by
  rw [putResult, kreg_of_same (latchPass_same _ n w path act d f), kreg_of_same (writeBack_cases th n w act d f)]
  cases n with
  | true => cases th.lowest act <;> simp
  | false =>
    by_cases hvec : d.toNat < 0xC0
    · have huni : ¬0xC0 ≤ d.toNat := by omega
      cases th.lowest act <;> simp [hvec, huni, kreg_putV_foldl]
    · by_cases huni : d.toNat < 0xF0
      · have hlow : 0xC0 ≤ d.toNat := by omega
        cases th.lowest act <;> simp [hvec, huni, hlow, kreg_putK]
      · cases th.lowest act <;> simp [hvec, huni]

/-- The writing of a predicate changes predicates alone. -/
theorem putPred_sameButPreds (th : Thread) (act : Mask) (p : Nat) (f : Nat → Bool) :
    ∃ ps, th.putPred act p f = { th with preds := ps } := by
  unfold putPred
  generalize th.lanes act = ls
  induction ls generalizing th with
  | nil => exact ⟨_, rfl⟩
  | cons l r ih =>
    obtain ⟨ps, hps⟩ := ih (th.setP l p (f l))
    rw [List.foldl_cons, hps]
    unfold setP
    split <;> exact ⟨_, rfl⟩

/-! ## Latches -/

theorem groupsOf_nodup (m : Mask) (g : Nat) : (groupsOf m g).Nodup := List.Pairwise.filter _ List.nodup_range

/-- A pass of one group leaves the latches of another (R66). -/
theorem latch_pushLatch_other (th : Thread) (g g' i : Nat) (b : Latch) (hne : g' ≠ g) (hi : i < 4) :
    (th.pushLatch g b).latch g' i = th.latch g' i :=
  tget_tsets_other _ _ _ _ (by simp only [List.mem_cons, List.not_mem_nil, or_false]; rintro e (rfl | rfl | rfl | rfl) <;> simp only <;> omega)

/-- A pass moves each latch of its group one place on (R66). -/
theorem latch_pushLatch_same (th : Thread) (g : Nat) (b : Latch) :
    (th.pushLatch g b).latch g 3 = th.latch g 2 ∧ (th.pushLatch g b).latch g 2 = th.latch g 1 ∧
    (th.pushLatch g b).latch g 1 = th.latch g 0 ∧ (th.pushLatch g b).latch g 0 = b := by
  simp [latch, pushLatch, tsets, tget_tset]

/-- The passes of a list of groups, each of which passes once. -/
theorem latch_pushLatch_foldl (b : Nat → Latch) (gs : List Nat) (hgs : gs.Nodup) (th : Thread) (g : Nat) :
    (g ∉ gs → ∀ i < 4, (gs.foldl (fun t g => t.pushLatch g (b g)) th).latch g i = th.latch g i) ∧
    (g ∈ gs → (gs.foldl (fun t g => t.pushLatch g (b g)) th).latch g 3 = th.latch g 2 ∧
      (gs.foldl (fun t g => t.pushLatch g (b g)) th).latch g 2 = th.latch g 1 ∧
      (gs.foldl (fun t g => t.pushLatch g (b g)) th).latch g 1 = th.latch g 0 ∧
      (gs.foldl (fun t g => t.pushLatch g (b g)) th).latch g 0 = b g) := by
  induction gs generalizing th with
  | nil => simp
  | cons x r ih =>
    obtain ⟨hx, hr⟩ := List.nodup_cons.1 hgs
    obtain ⟨hother, hsame⟩ := ih hr (th.pushLatch x (b x))
    rw [List.foldl_cons]
    constructor
    · intro hg i hi
      obtain ⟨hgx, hgr⟩ := not_or.1 (fun h => hg (List.mem_cons.2 h))
      rw [hother hgr i hi, latch_pushLatch_other th x g i _ hgx hi]
    · intro hg
      by_cases hgx : g = x
      · subst hgx
        rw [hother hx 3 (by omega), hother hx 2 (by omega), hother hx 1 (by omega), hother hx 0 (by omega)]
        exact latch_pushLatch_same th g (b g)
      · have hmoved := hsame ((List.mem_cons.1 hg).resolve_left hgx)
        rwa [latch_pushLatch_other th x g 2 _ hgx (by omega), latch_pushLatch_other th x g 1 _ hgx (by omega),
          latch_pushLatch_other th x g 0 _ hgx (by omega)] at hmoved

end Sys2Proof.Machine.Thread

namespace Sys2Proof.Claims

open Sys2Proof.Machine Sys2Proof.Machine.Thread

/-- Settles O51: a result changes registers and latches alone, and of the registers those that it names; a predicate result changes
predicates alone. -/
theorem registerFrames : Obligations.RegisterFrames := by
  refine ⟨fun th n w path act d f => ?result, fun th act p f hp => ?predicate⟩
  case result =>
    have hsame := putResult_sameButRegs th n w path act d f
    refine ⟨fun l x hx => vreg_putResult th n w path act d f l x hx, fun x => ?_, hsame.pred, hsame.fpflags, hsame.gmode, hsame.pc⟩
    refine (kreg_putResult th n w path act d f x).trans ?_
    cases th.lowest act <;> rfl
  case predicate =>
    have hpred := fun l q hq => pred_putPred th act p f l q hp hq
    obtain ⟨ps, hps⟩ := putPred_sameButPreds th act p f
    refine ⟨fun l hl => (hpred l p hp).trans ?_, fun l q hq hout => (hpred l q hq).trans (if_neg ?_), ?_⟩
    · by_cases h7 : p = 7
      · rw [if_neg (fun h => h.2.2 h7), if_pos h7, h7]
        rfl
      · rw [if_pos ⟨hl, rfl, h7⟩, if_neg h7]
    · rintro ⟨hl, hqp, -⟩
      exact hout.elim (fun h => h hl) (fun h => h hqp)
    · rw [hps]
      exact ⟨fun _ _ => rfl, fun _ => rfl, rfl, rfl⟩

/-- Settles O52: the pass of each group of the path shifts its latches once, and no pass touches another group's. -/
theorem latchShift : Obligations.LatchShift := by
  intro th n w path act d f g
  have hfold := latch_pushLatch_foldl (fun g => ⟨true, !n && d != 0xF4, some d, w, th.latchVals w act d f g⟩)
    (groupsOf path th.groups) (groupsOf_nodup _ _) th g
  exact ⟨hfold.2, hfold.1⟩

end Sys2Proof.Claims
end

section
/-!
PROOFS. Issue: every instruction checks its word first, every event answers a next state, and the machine's next act always has one to run.
-/

namespace Sys2Proof.Machine

/-! ## The word is checked first -/

/-- The answer `r` of instruction `i`: one with no issuer is the machine's fault, and an ill-formed word is OPND before anything else
(R206). -/
def Checked (i : Instr) (s : State) (r : Res) : Prop :=
  ∃ f : Iss → State, r = issued s f ∧
    (i.wellFormed = false → ∀ k, f k = raise k s ⟨cOPND, if k.act = 0 then k.path else k.act, 0, wordOf i⟩)

/-- The first check of R206 is that of the word. -/
theorem issueFault_illFormed {th : Thread} {path act : Mask} {w : Word} {dyn : Bool} {u : Uses} :
    issueFault th path act w false dyn u = some ⟨cOPND, if act = 0 then path else act, 0, w⟩ := rfl

theorem guardedForm_checked {i : Instr} {s : State} (dyn : Iss → Bool) (u : Iss → Uses) (idle : Iss → Thread) (eff : Iss → State) :
    Checked i s (guardedForm i s dyn u idle eff) :=
  ⟨_, rfl, fun h k => by rw [staticOk, h, issueFault_illFormed]⟩

theorem pathForm_checked {i : Instr} {s : State} (dyn : Iss → Bool) (u : Iss → Uses) (eff : Iss → State) :
    Checked i s (pathForm i s dyn u eff) :=
  ⟨_, rfl, fun h k => by rw [staticOk, h, issueFault_illFormed]; rfl⟩

/-- A form that names no operand has no ill-formed word. -/
theorem wellFormed_checked {i : Instr} {s : State} (hi : i.wellFormed = true) (f : Iss → State) : Checked i s (issued s f) :=
  ⟨f, rfl, fun h => absurd (hi.symm.trans h) (Bool.noConfusion ·)⟩

/-- A form with checks of its own checks its word before them. -/
theorem wordFirst_checked {i : Instr} {s : State} (f : Iss → State) :
    Checked i s (issued s (fun k => if !staticOk i then raise k s ⟨cOPND, if k.act = 0 then k.path else k.act, 0, wordOf i⟩ else f k)) :=
  ⟨_, rfl, fun h k => by rw [staticOk, h]; rfl⟩

/-- Every instruction checks its word: under the guard, for the whole path, by its own first check, or as a form that names no
operand. -/
theorem exec_checked {i : Instr} (s : State) (hi : i.isEvent = false) : Checked i s (exec i s) := by
  cases i with
  | iadd | isub | imul | imulh | imad | imin | imax | iabs | icmp | lea | addi | movi | movhi | and | or | xor | not | shl | shr | popc | clz | mov |
    rdlane | shfl | shflx | ballot | vote | plop | movp | fadd | fsub | fmul | ffma | fdiv | fsqrt | fmin | fmax | fabs | fneg | fcmp | fclass | frcp
    | frsq | fexp2 | flog2 | fsin | fcos | dot2 | dot4 | dot8 | getmode | mfs | mts | bra | call | brx | calli | ret | exit | ld | st | lds | sts |
    ldp | stp | ldt | stt | atomAdd | atomMin | atomMax | atomAnd | atomOr | atomXor | atomXchg | atomCas | redAdd | redMin | redMax | redAnd | redOr
    | redXor | rast | rayq | lupd | cvtF32F64 | cvtF64F32 | cvtF32H16 | cvtH16F32 | cvtF32W16 | cvtW16F32 | cvtF32S32 | cvtF32Z32 | cvtS32F32 |
    cvtZ32F32 | cvtF64S64 | cvtF64Z64 | cvtS64F64 | cvtZ64F64 | cvtF64S32 | cvtS32F64 | cvtF32S64 | cvtS64F32 | cvtQ8F32 | cvtF32Q8 | cvtQ6F32 |
    cvtF32Q6 | cvtQ4F32 | cvtF32Q4 | cvtS8S32 | cvtZ8Z32 | cvtS16S32 | cvtZ16Z32 | cvtS64S32 | cvtZ64Z32 | cvtS32S64 | cvtZ32Z64 | packH16 | unpackH16
    | packW16 | unpackW16 | packQ8 | unpackQ8 | packQ6 | unpackQ6 | packQ4 | unpackQ4 | packS8 | unpackS8 | packZ8 | unpackZ8 | packS4 | unpackS4 |
    packZ4 | unpackZ4 | sptest | spcast | spcastOff | sysflush | sysinv | dtest | blend | pstore | evpop | svc | assert | trap | uisend =>
    exact guardedForm_checked _ _ _ _
  | setmode | tbinit | tcopy | tcopys | treduce | bind | unbind | waitc | bar | gbar | backoff | fence | fenceRp | resid | brkpt | idemEnter |
    idemLeave | hold => exact pathForm_checked _ _ _
  | mma | mmad | mmadg | mmadw | tex | texg | trace | tbtest | tbexpect | tbarrive | tbwait | mldn | mldw | curve | bmap =>
    exact wordFirst_checked _
  | join | resume | skip | uiret => exact wellFormed_checked rfl _
  | waitEnd | loadReturn | heldLoadComplete | storePerform | remotePerform | matrixWriteback | fmtEmuComplete | walkComplete | demandMapComplete |
    frameGrant | migrationComplete | hostMigrationRequest | throttleExpiry | sideLogReplay | cacheEviction | sysCacheOpComplete | atomicopCompletion |
    epochClose | dmrCompare | copyStart | sectorLanding | copyPause | copyResume | copyStop | treduceComplete | oculusCompare | gangDieArrival |
    lanternExec | uiDelivery | alarmExpiry | alarmTrap | breakpointMatch | stepHold | latchIdleInvalidate | aging | backoffDecay | backoffDelayEnd |
    resumeClassExpiry | demandParkEligible | demandPark | imageDrainComplete | teamRestore | shadowFillComplete | bankSwap | preemptRequest |
    preemptSafePoint | contextWake | packetRead | teamPlace | launchComplete | completionWordWrite | svcDeferredPost | serviceRequestServe |
    cupolaDoorbell | cupolaRound | launchQueueDoorbell | qctlWrite | invgo | invalidationComplete | chalt | contextEnable | contextEndRequest |
    loghead | doorbellSend | peerSendReceive | debugHold | debugRelease | debugHoldAll | debugWindowWrite | registerWrite | atsInvalidationRequest |
    pageRequestResponse | inboundAtomicop | firmwareRecovery | powerGood | stage1Complete | stage2Complete | clockStep | hotSpot105 | hotSpot115 |
    cxlPortFailure | serviceInstanceFailure | eccCorrected | eccImageError | stage0Complete | completionTimeout | hostRuntimeServiceReply |
    sendStatusReturn | partitionChange | doorbellPageBind | dieScratchpadBlockGive =>
    exact absurd hi (Bool.noConfusion ·)

/-- Every event answers a next state. -/
theorem exec_event {i : Instr} (s : State) (hi : i.isEvent = true) : ∃ t, exec i s = .next t := by
  cases i with
  | waitEnd | loadReturn | heldLoadComplete | storePerform | remotePerform | matrixWriteback | fmtEmuComplete | walkComplete | demandMapComplete |
    frameGrant | migrationComplete | hostMigrationRequest | throttleExpiry | sideLogReplay | cacheEviction | sysCacheOpComplete | atomicopCompletion |
    epochClose | dmrCompare | copyStart | sectorLanding | copyPause | copyResume | copyStop | treduceComplete | oculusCompare | gangDieArrival |
    lanternExec | uiDelivery | alarmExpiry | alarmTrap | breakpointMatch | stepHold | latchIdleInvalidate | aging | backoffDecay | backoffDelayEnd |
    resumeClassExpiry | demandParkEligible | demandPark | imageDrainComplete | teamRestore | shadowFillComplete | bankSwap | preemptRequest |
    preemptSafePoint | contextWake | packetRead | teamPlace | launchComplete | completionWordWrite | svcDeferredPost | serviceRequestServe |
    cupolaDoorbell | cupolaRound | launchQueueDoorbell | qctlWrite | invgo | invalidationComplete | chalt | contextEnable | contextEndRequest |
    loghead | doorbellSend | peerSendReceive | debugHold | debugRelease | debugHoldAll | debugWindowWrite | registerWrite | atsInvalidationRequest |
    pageRequestResponse | inboundAtomicop | firmwareRecovery | powerGood | stage1Complete | stage2Complete | clockStep | hotSpot105 | hotSpot115 |
    cxlPortFailure | serviceInstanceFailure | eccCorrected | eccImageError | stage0Complete | completionTimeout | hostRuntimeServiceReply |
    sendStatusReturn | partitionChange | doorbellPageBind | dieScratchpadBlockGive =>
    exact ⟨_, rfl⟩
  | _ => exact absurd hi Bool.false_ne_true

/-! ## The machine's next act has one that issues it -/

/-- What issues depends on the selection, the teams and the lanterns alone. -/
theorem iss?_congr {s t : State} (hsel : t.sel = s.sel) (hteams : t.teams = s.teams)
    (hlantern : ∀ d c, (t.coreAt d c).lantern = (s.coreAt d c).lantern) : t.iss? = s.iss? := by
  simp only [State.iss?, State.sec?, State.team?, hsel, hteams, hlantern]

/-- The fetch of a word leaves what issues: at most the core's instruction buffer gains the word (R199). -/
theorem fetchWord_iss? {s t : State} {x : Team} {key va : Nat} {w : Word} (h : fetchWord s x key va = .word w t) : t.iss? = s.iss? := by
  revert h
  unfold fetchWord
  repeat' split
  all_goals
    intro h
    injection h
  next e => rw [← e]
  next e =>
    rw [← e]
    refine iss?_congr rfl rfl (fun d c => ?_)
    rw [coreAt_modCore]
    split
    · next hcore => rw [State.coreAt, State.coreAt, hcore]
    · rfl

/-- What is to run is an event, or something issues it. -/
def Next.HasIssuer : Next → Prop
  | .run i s => i.isEvent = true ∨ ∃ k, s.iss? = some k
  | .done _ => True

theorem Next.hasIssuer_ite {p : Prop} [Decidable p] {a b : Next} (ha : a.HasIssuer) (hb : b.HasIssuer) : (if p then a else b).HasIssuer := by
  split
  · exact ha
  · exact hb

theorem issueAt_hasIssuer {s : State} {k : Iss} (hk : s.iss? = some k) : (issueAt s k).HasIssuer := by
  unfold issueAt
  split
  case h_1 | h_2 => trivial
  case h_3 w s1 hw =>
    split
    · exact Next.hasIssuer_ite (.inr ⟨k, (fetchWord_iss? hw).trans hk⟩) trivial
    · trivial

theorem issuePass_hasIssuer (s : State) (t : Team) (c : Section) (port : Nat) : (issuePass s t c port).HasIssuer := by
  unfold issuePass
  split
  · trivial
  · dsimp only
    split
    · next k hk =>
      have hissue := issueAt_hasIssuer hk
      split
      · trivial
      · exact hissue
    · trivial

theorem issueSection_hasIssuer (s : State) (t : Team) (c : Section) (port : Nat) : (issueSection s t c port).HasIssuer := by
  have pass := issuePass_hasIssuer s t c port
  have issue : (if s.uiHeld t c then Next.done { s with stalled := (t.tid, c.role) :: s.stalled } else issuePass s t c port).HasIssuer :=
    Next.hasIssuer_ite trivial pass
  have event (i : Instr) (hi : i.isEvent = true) : (runEvent i s).HasIssuer := .inl hi
  unfold issueSection
  refine Next.hasIssuer_ite pass (Next.hasIssuer_ite trivial (Next.hasIssuer_ite pass (Next.hasIssuer_ite (event _ rfl)
    (Next.hasIssuer_ite trivial (Next.hasIssuer_ite (event _ rfl) (Next.hasIssuer_ite (event _ rfl) ?_))))))
  split
  · exact Next.hasIssuer_ite (event _ rfl) issue
  · exact Next.hasIssuer_ite (event _ rfl) issue
  · exact issue

theorem issueLane_hasIssuer (s : State) (d c idx : Nat) : (issueLane s d c idx).HasIssuer := by
  unfold issueLane
  split
  · trivial
  · split
    · refine Next.hasIssuer_ite trivial (Next.hasIssuer_ite (.inl rfl) ?_)
      split
      · next hk => exact issueAt_hasIssuer hk
      · trivial
    · trivial

theorem issueOn_hasIssuer (s : State) (d c port : Nat) : (issueOn s d c port).HasIssuer := by
  unfold issueOn
  refine Next.hasIssuer_ite ?_ (issueLane_hasIssuer s d c _)
  split
  · exact issueSection_hasIssuer _ _ _ _
  · trivial

/-- The machine's next act always has one to run, whatever heads the agenda. -/
theorem nextOf_hasIssuer (s : State) : (nextOf s).HasIssuer := by
  unfold nextOf
  split
  case h_1 e _ _ => exact .inl e.property
  case h_2 | h_8 => exact issueOn_hasIssuer _ _ _ _
  case h_3 | h_4 | h_5 | h_6 | h_7 => trivial

/-- What an execution leaves answers a next state where the execution does. -/
theorem settled_next (s t : State) : ∃ t', settled s (.next t) = .next t' := by
  unfold settled
  split
  · exact ⟨_, rfl⟩
  · exact ⟨t, rfl⟩

/-- An instruction that something issues, and every event, answers a next state. -/
theorem exec_next {i : Instr} {s : State} (h : i.isEvent = true ∨ ∃ k, s.iss? = some k) : ∃ t, exec i s = .next t := by
  by_cases hi : i.isEvent = true
  · exact exec_event s hi
  · obtain ⟨k, hk⟩ := h.resolve_left hi
    obtain ⟨f, hf, -⟩ := exec_checked s (Bool.not_eq_true _ ▸ hi)
    exact ⟨f k, hf.trans (issued_some f hk)⟩

end Sys2Proof.Machine

namespace Sys2Proof.Claims

open Sys2Proof.Machine

/-- Settles O57: every instruction's first check is that of its word. -/
theorem illFormedTraps : Obligations.IllFormedTraps := by
  intro i s k hi hill hk
  obtain ⟨f, hf, hword⟩ := exec_checked s hi
  rw [hf, issued_some f hk, hword hill k]
  rfl

/-- Settles O58: every instruction stands behind its issuer, every event answers a state, and what the machine runs next has an issuer. -/
theorem stepAnswersNext : Obligations.StepAnswersNext := by
  refine ⟨fun i s h => exec_next h, fun i s hi hnone => ?_, fun s => ?_⟩
  · obtain ⟨f, hf, -⟩ := exec_checked s hi
    rw [hf, issued_none f hnone]
  · have hissuer := nextOf_hasIssuer (tick s)
    unfold step
    split
    · next i s1 hn =>
      rw [hn] at hissuer
      obtain ⟨t, ht⟩ := exec_next hissuer
      rw [ht]
      exact settled_next s1 t
    · exact ⟨_, rfl⟩

end Sys2Proof.Claims
end

section
/-!
PROOFS. Frames: what retirement and loads leave unchanged, and the barrier and the end of a context by cases.
-/

namespace Sys2Proof.Machine

/-! ## The bytes of memory -/

/-- Every byte of memory that a spot names is as it was: physical memory, slice copies, die and team scratchpads. -/
structure SameBytes (t s : State) : Prop where
  mem     : t.mem = s.mem
  slices  : t.slices = s.slices
  dies    : t.diesT = s.diesT
  scratch : ∀ tid, (t.team? tid).map Team.scratch = (s.team? tid).map Team.scratch

namespace SameBytes

theorem refl (s : State) : SameBytes s s := ⟨rfl, rfl, rfl, fun _ => rfl⟩

theorem trans {a b c : State} (h : SameBytes a b) (g : SameBytes b c) : SameBytes a c :=
  ⟨h.mem.trans g.mem, h.slices.trans g.slices, h.dies.trans g.dies, fun tid => (h.scratch tid).trans (g.scratch tid)⟩

/-- An update of fields that hold neither bytes nor teams. -/
theorem of_teams {t s : State} (hm : t.mem = s.mem) (hs : t.slices = s.slices) (hd : t.diesT = s.diesT) (ht : t.teams = s.teams) :
    SameBytes t s :=
  ⟨hm, hs, hd, fun tid => by rw [State.team?, State.team?, ht]⟩

theorem homeRead {t s : State} (h : SameBytes t s) (pa n : Nat) : t.homeRead pa n = s.homeRead pa n := by
  simp only [State.homeRead, State.homeLine?, State.sliceLine?, State.sliceAt, State.physRead, h.mem, h.slices]

/-- Every spot reads as before. -/
theorem spotRead {t s : State} (h : SameBytes t s) (sp : Spot) (n : Nat) : t.spotRead sp n = s.spotRead sp n := by
  cases sp with
  | phys pas => simp only [State.spotRead, h.homeRead]
  | die d off => simp only [State.spotRead, State.dieAt, h.dies]
  | team tid off =>
    have hscratch := h.scratch tid
    cases ht : t.team? tid <;> cases hs : s.team? tid <;> rw [ht, hs] at hscratch
    · simp [State.spotRead, ht, hs]
    · simp at hscratch
    · simp at hscratch
    · simp only [Option.map_some, Option.some.injEq] at hscratch
      simp only [State.spotRead, ht, hs, hscratch]

theorem modCore (s : State) (d c : Nat) (f : Core → Core) : SameBytes (s.modCore d c f) s := of_teams rfl rfl rfl rfl

/-- A change of a team that leaves its number and its scratchpad. -/
theorem modTeam (s : State) (tid : Nat) (f : Team → Team) (htid : ∀ t, (f t).tid = t.tid) (hscratch : ∀ t, (f t).scratch = t.scratch) :
    SameBytes (s.modTeam tid f) s := by
  refine ⟨rfl, rfl, rfl, fun x => ?_⟩
  rw [team?_modTeam s tid x f htid]
  cases s.team? x with
  | none => rfl
  | some t =>
    simp only [Option.map_some, Option.some.injEq]
    split
    · exact hscratch t
    · rfl

theorem modSec (s : State) (tid role : Nat) (f : Section → Section) : SameBytes (s.modSec tid role f) s :=
  SameBytes.modTeam s tid _ (fun _ => rfl) (fun _ => rfl)

theorem modOwn (k : Iss) (s : State) (f : Section → Section) : SameBytes (modOwn k s f) s := SameBytes.modSec s _ _ f

theorem putTh (k : Iss) (s : State) (th : Thread) : SameBytes (putTh k s th) s := by
  unfold Machine.putTh
  split
  · exact SameBytes.modOwn k s _
  · exact SameBytes.modCore s _ _ _

theorem retire (k : Iss) (s : State) : SameBytes (retire k s) s := by
  unfold Machine.retire
  split
  · exact SameBytes.modOwn k s _
  · exact SameBytes.refl s

theorem retireWith (k : Iss) (s : State) (th : Thread) : SameBytes (retireWith k s th) s :=
  (SameBytes.retire k _).trans (SameBytes.putTh k s th)

theorem hostOver (k : Iss) (s : State) : SameBytes (hostOver k s) s := by
  unfold Machine.hostOver
  split
  · exact SameBytes.modOwn k s _
  · exact SameBytes.refl s

theorem homesServed (s : State) (tid role : Nat) : SameBytes (s.homesServed tid role) s := of_teams rfl rfl rfl rfl

theorem loadsOver (k : Iss) (s : State) : SameBytes (Claims.loadsOver k s) s :=
  (SameBytes.hostOver k _).trans (SameBytes.homesServed s _ _)

theorem unpromote (s : State) (k : Iss) (rs : List (Elem × Ready)) : SameBytes (s.unpromote k rs) s := by
  unfold State.unpromote
  simp only
  split
  · exact SameBytes.refl s
  · exact SameBytes.modOwn k s _

/-- A core that reads a line takes at most a copy of it (R354). -/
theorem coreRead {s t : State} {d c pa n : Nat} {bs : List Byte} (h : s.coreRead? d c pa n = some (bs, t)) : SameBytes t s := by
  obtain ⟨⟨line, s'⟩, hfill, hread⟩ := Option.map_eq_some_iff.1 h
  obtain ⟨-, rfl⟩ := Prod.mk.inj hread
  unfold State.fillLine? at hfill
  split at hfill
  · cases hfill
    exact SameBytes.refl s
  · obtain ⟨x, -, hx⟩ := Option.map_eq_some_iff.1 hfill
    cases hx
    exact SameBytes.modCore s _ _ _

/-- A walk over elements whose every step leaves the bytes leaves them. -/
theorem foldl {α β : Type} (f : β × State → α → β × State) (hf : ∀ p x, SameBytes (f p x).2 p.2) (l : List α) (p : β × State) :
    SameBytes (l.foldl f p).2 p.2 := by
  induction l generalizing p with
  | nil => exact SameBytes.refl _
  | cons x r ih => exact (ih _).trans (hf p x)

theorem loadAt (s : State) (k : Iss) (size : Nat) (r : Ready) : SameBytes (s.loadAt k size r).2 s := by
  unfold State.loadAt
  split
  case h_3 pas _ =>
    refine SameBytes.foldl _ (fun p x => ?_) pas ([], s)
    split
    · next hread => exact SameBytes.coreRead hread
    · exact SameBytes.refl _
  all_goals exact SameBytes.refl s

theorem loadAll (s : State) (k : Iss) (size : Nat) (rs : List (Elem × Ready)) : SameBytes (s.loadAll k size rs).2 s := by
  refine SameBytes.foldl _ (fun p x => ?_) rs ([], s)
  split
  · exact SameBytes.refl _
  · exact SameBytes.loadAt _ k size _

end SameBytes

/-! ## The sections that a change does not name -/

/-- A section that an update does not name is as before. -/
theorem sec?_modSec_other (s : State) {tid role tid' role' : Nat} (f : Section → Section) (hf : ∀ c, (f c).role = c.role)
    (hne : (tid', role') ≠ (tid, role)) : (s.modSec tid role f).sec? tid' role' = s.sec? tid' role' := by
  unfold State.sec? State.modSec
  rw [team?_modTeam s tid tid' (fun t => { t with secs := t.secs.map (fun c => if c.role = role then f c else c) }) (fun _ => rfl)]
  cases ht : s.team? tid' with
  | none => rfl
  | some t =>
    simp only [Option.map_some, Option.bind_some]
    split
    · next htid =>
      have hrole : role' ≠ role := by
        rintro rfl
        exact hne (by rw [← htid, team?_tid ht])
      rw [find?_map_role _ _ _ _ hf]
      cases hc : t.secs.find? (fun c => c.role == role') with
      | none => rfl
      | some c =>
        have hcrole : c.role = role' := by simpa using List.find?_some hc
        rw [Option.map_some, if_neg (by rw [hcrole]; exact hrole)]
    · rfl

theorem sec?_modOwn_other (k : Iss) (s : State) {tid role : Nat} (f : Section → Section) (hf : ∀ c, (f c).role = c.role)
    (hne : (tid, role) ≠ (k.team.tid, k.sec.role)) : (modOwn k s f).sec? tid role = s.sec? tid role :=
  sec?_modSec_other s f hf hne

theorem sec?_modCore (s : State) (d c : Nat) (f : Core → Core) (tid role : Nat) : (s.modCore d c f).sec? tid role = s.sec? tid role := rfl

theorem sec?_putTh_other (k : Iss) (s : State) (th : Thread) {tid role : Nat} (hne : (tid, role) ≠ (k.team.tid, k.sec.role)) :
    (putTh k s th).sec? tid role = s.sec? tid role := by
  unfold putTh
  split
  · exact sec?_modOwn_other k s _ (fun _ => rfl) hne
  · exact sec?_modCore s _ _ _ tid role

theorem sec?_retireWith_other (k : Iss) (s : State) (th : Thread) {tid role : Nat} (hne : (tid, role) ≠ (k.team.tid, k.sec.role)) :
    (retireWith k s th).sec? tid role = s.sec? tid role := by
  unfold retireWith retire
  split
  · refine (sec?_modOwn_other k _ _ ?_ hne).trans (sec?_putTh_other k s th hne)
    exact fun _ => rfl
  · exact sec?_putTh_other k s th hne

/-- Retirement leaves every core's store buffer and data cache. -/
theorem coreAt_retireWith (k : Iss) (s : State) (th : Thread) (d c : Nat) :
    ((retireWith k s th).coreAt d c).storeBuf = (s.coreAt d c).storeBuf ∧ ((retireWith k s th).coreAt d c).dcache = (s.coreAt d c).dcache := by
  cases hrec : k.rec? with
  | none =>
    have hcores : (retireWith k s th).cores = s.cores := by simp only [retireWith, retire, putTh, hrec]; rfl
    simp only [State.coreAt, hcores, and_self]
  | some r =>
    simp only [retireWith, retire, putTh, hrec, coreAt_modCore]
    split
    · next hcore => rw [State.coreAt, State.coreAt, hcore]; exact ⟨rfl, rfl⟩
    · exact ⟨rfl, rfl⟩

/-! ## The end of a context -/

@[simp] theorem sysWrite_ctxAt (s : State) (ctx va : Nat) (bs : List Byte) (c : Nat) : (s.sysWrite ctx va bs).ctxAt c = s.ctxAt c := by
  unfold State.sysWrite
  split <;> rfl

@[simp] theorem sysWrite_teams (s : State) (ctx va : Nat) (bs : List Byte) : (s.sysWrite ctx va bs).teams = s.teams := by
  unfold State.sysWrite
  split <;> rfl

@[simp] theorem post_teams (s : State) (r : Rec) : (s.post r).teams = s.teams := by
  unfold State.post
  simp only
  split
  · rfl
  · split <;> simp

/-- How a context has ended, as its registers say it (R75, R373). -/
def endOf (x : Context) : Bool × BitVec 8 × DWord := (x.ended, x.endCode, x.endAddr)

theorem endOf_modCtx (s : State) (c x : Nat) {f : Context → Context} (hf : ∀ y, endOf (f y) = endOf y) :
    endOf ((s.modCtx c f).ctxAt x) = endOf (s.ctxAt x) := by
  rw [ctxAt_modCtx]
  split
  · next hx => rw [hf, hx]
  · rfl

/-- Posting a record leaves how each context has ended (R143, R373). -/
@[simp] theorem endOf_post (s : State) (r : Rec) (c : Nat) : endOf ((s.post r).ctxAt c) = endOf (s.ctxAt c) := by
  unfold State.post
  simp only
  split
  · rfl
  · split
    · rw [sysWrite_ctxAt]
      exact endOf_modCtx s _ _ (fun _ => rfl)
    · refine (endOf_modCtx _ _ _ ?_).trans (by simp)
      exact fun _ => rfl

/-- A section of a context that has ended (R75). -/
def quitSection (c : Section) : Section := { c with state := .exited, waitOn := .none, log := [] }

/-- A team of a context that has ended (R75). -/
def goneTeam (ctx : Nat) (t : Team) : Team :=
  if t.ctx = ctx then { t with bank := .gone, stood := t.bank != .gone, secs := t.secs.map quitSection } else t

/-- The end of a context writes END and takes its teams out of every core (R75, R373). -/
theorem endContext_live {s : State} {ctx : Nat} (code : Nat) (addr : DWord) (r : Rec) (hlive : (s.ctxAt ctx).ended = false) :
    endOf ((endContext s ctx code addr r).ctxAt ctx) = (true, BitVec.ofNat 8 code, addr) ∧
    (endContext s ctx code addr r).teams = s.teams.map (goneTeam ctx) := by
  unfold endContext
  rw [if_neg (by rw [hlive]; exact Bool.false_ne_true)]
  refine ⟨(endOf_post _ _ _).trans ?_, post_teams _ _⟩
  simp only [State.ctxAt, State.modCtx, tget_tset_same]
  rfl

/-- A section that is found again after a change of every team that keeps numbers, roles and the trap record's code. -/
theorem sec?_goneTeam {s t : State} {ctx : Nat} (ht : t.teams = s.teams.map (goneTeam ctx)) (tid role : Nat) :
    (t.sec? tid role).map Section.trapCode = (s.sec? tid role).map Section.trapCode := by
  have htid : ((fun u : Team => u.tid == tid) ∘ goneTeam ctx) = fun u => u.tid == tid := by
    funext u
    simp only [Function.comp_apply, goneTeam]
    split <;> rfl
  have hrole : ((fun c : Section => c.role == role) ∘ quitSection) = fun c => c.role == role := rfl
  unfold State.sec? State.team?
  rw [ht, List.find?_map, htid]
  cases s.teams.find? (fun u => u.tid == tid) with
  | none => rfl
  | some u =>
    simp only [Option.map_some, Option.bind_some, goneTeam]
    split
    · rw [List.find?_map, hrole, Option.map_map]
      rfl
    · rfl

/-! ## Barriers -/

theorem TBar.settle_of_pending {b : TBar} (h : b.penda ≠ 0 ∨ b.pends ≠ 0) : b.settle = b := if_neg (by omega)

theorem TBar.settle_of_complete {b : TBar} (ha : b.penda = 0) (hs : b.pends = 0) :
    b.settle = { b with phase := (b.phase + 1) % 16, penda := b.expa, pends := sext b.exps 32 } := if_pos ⟨ha, hs⟩

/-- An amount within s32 changes PENDS, and the phase ends where both counts are 0 (R184). -/
theorem TBar.sectors_of_mem {b : TBar} {n : Int} (hlo : -2147483648 ≤ b.pends + n) (hhi : b.pends + n ≤ 2147483647) :
    b.sectors n = { b with pends := b.pends + n }.settle := by
  unfold TBar.sectors
  exact if_neg (by simp only [intLo, intHi, if_true]; omega)

end Sys2Proof.Machine

namespace Sys2Proof.Claims

open Sys2Proof.Machine

/-- Settles O17: a load takes copies of lines and retires, and neither touches a byte. -/
theorem loadFrame : Obligations.LoadFrame := by
  intro k s e rs th t
  have h : SameBytes t s := (SameBytes.retireWith k _ th).trans ((SameBytes.loadsOver k _).trans
    ((SameBytes.unpromote _ k rs).trans (SameBytes.loadAll s k e rs)))
  exact ⟨h.mem, h.slices, h.dies, h.scratch, h.spotRead⟩

/-- Settles O31: an arrival or an amount changes its count, and then the phase ends or not. -/
theorem barrierSteps : Obligations.BarrierSteps := by
  refine ⟨fun b h => if_pos h, fun b h => ?_, fun b ha hs => ?_, fun b n hlo hhi h => ?_, fun b n ha hs => ?_, fun b n h => ?_⟩
  · exact (if_neg (by omega)).trans (TBar.settle_of_pending (by simp only; omega))
  · exact (if_neg (by omega)).trans (TBar.settle_of_complete (by simp only; omega) hs)
  · exact (TBar.sectors_of_mem hlo hhi).trans (TBar.settle_of_pending h)
  · exact (TBar.sectors_of_mem (by omega) (by omega)).trans (TBar.settle_of_complete ha hs)
  · exact if_pos (by simp only [intLo, intHi, if_true]; omega)

/-- Settles O36: such a fault ends the context with DOUBLE, and the end of a context leaves the trap record of its sections. -/
theorem doubleFaults : Obligations.DoubleFaults := by
  intro s t role how skip x c hc hdouble hlive s'
  obtain ⟨hmode, hentry, -⟩ | ⟨-, d, hcode, -, htrap⟩ := takeTrapAt_cases s t role how skip x c hc
  · exact absurd hdouble (not_or.2 ⟨by rw [hmode]; exact Bool.false_ne_true, hentry⟩)
  · obtain ⟨hend, hteams⟩ := endContext_live cDOUBLE x.addr (recBy 0x10 t role)
      (s := s.modSec t.tid role (fun c => recordTrap c c.th.pc d)) (ctx := t.ctx) hlive
    rw [← htrap] at hend hteams
    simp only [endOf, Prod.mk.injEq] at hend
    obtain ⟨hended, hendCode, hendAddr⟩ := hend
    refine ⟨hended, hendCode, hendAddr, fun u hu huctx => ?_, ?_⟩
    · change u ∈ (takeTrapAt s t role how skip x).teams at hu
      rw [hteams] at hu
      obtain ⟨v, -, rfl⟩ := List.mem_map.1 hu
      unfold goneTeam at huctx ⊢
      split
      · refine ⟨rfl, fun c hcmem => ?_⟩
        obtain ⟨c', -, rfl⟩ := List.mem_map.1 hcmem
        rfl
      · next hne =>
        rw [if_neg hne] at huctx
        exact absurd huctx hne
    · refine (sec?_goneTeam hteams t.tid role).trans ?_
      rw [sec?_modSec_same s t.tid role (fun c => recordTrap c c.th.pc d) (fun _ => rfl), hc]
      simp only [Option.map_some, recordTrap, hcode]

/-- Settles O53: retirement changes the issuing section, or the row of an ejected lane. -/
theorem retireFrame : Obligations.RetireFrame := by
  intro k s th t
  refine ⟨?_, (SameBytes.retireWith k s th).spotRead, fun tid role hne => sec?_retireWith_other k s th hne, coreAt_retireWith k s th⟩
  cases hrec : k.rec? with
  | none => simp only [t, retireWith, retire, putTh, hrec]; rfl
  | some r => simp only [t, retireWith, retire, putTh, hrec]; rfl

end Sys2Proof.Claims
end

section
/-!
PROOFS. System registers: what a write of one leaves to be read, and the forms that read and write modes and registers.
-/

namespace Sys2Proof.Machine

theorem ctxAt_modCtx_same (s : State) (c : Nat) (f : Context → Context) : (s.modCtx c f).ctxAt c = f (s.ctxAt c) :=
  (ctxAt_modCtx s c c f).trans (if_pos rfl)

theorem ctxAt_modCtx_other (s : State) {c x : Nat} (f : Context → Context) (hne : x ≠ c) : (s.modCtx c f).ctxAt x = s.ctxAt x :=
  (ctxAt_modCtx s c x f).trans (if_neg hne)

/-- A write of a breakpoint register (R90). -/
theorem sysSet_bkpt (s : State) (t : Team) (role : Nat) {r : Nat} (v : DWord) (h : 0x28 ≤ r ∧ r ≤ 0x2F) :
    sysSet s t role r v = s.modCtx t.ctx (fun x => { x with bkpt := tset 0 x.bkpt (r - 0x28) v }) := by
  unfold sysSet
  rw [if_neg, if_neg, if_neg, if_neg, if_neg, if_neg, if_neg, if_pos h] <;> omega

/-- A write of a watchpoint register (R91). -/
theorem sysSet_wpt (s : State) (t : Team) (role : Nat) {r : Nat} (v : DWord) (h : 0x30 ≤ r ∧ r ≤ 0x33) :
    sysSet s t role r v = s.modCtx t.ctx (fun x => { x with wpt := tset 0 x.wpt (r - 0x30) v }) := by
  unfold sysSet
  rw [if_neg, if_neg, if_neg, if_neg, if_neg, if_neg, if_neg, if_neg, if_pos h] <;> omega

theorem sysReg_bkpt (s : State) (t : Team) (c : Section) (l : Nat) {r : Nat} (h : 0x28 ≤ r ∧ r ≤ 0x2F) :
    sysReg s t c l r = tget 0 (s.ctxAt t.ctx).bkpt (r - 0x28) := by
  unfold sysReg ctxReg
  rw [if_neg, if_neg, if_neg, if_neg, if_neg, if_neg, if_neg, if_pos h]
  · rfl
  all_goals omega

theorem sysReg_wpt (s : State) (t : Team) (c : Section) (l : Nat) {r : Nat} (h : 0x30 ≤ r ∧ r ≤ 0x33) :
    sysReg s t c l r = tget 0 (s.ctxAt t.ctx).wpt (r - 0x30) := by
  unfold sysReg ctxReg
  rw [if_neg, if_neg, if_neg, if_neg, if_neg, if_neg, if_neg, if_neg, if_pos h]
  · rfl
  all_goals omega

end Sys2Proof.Machine

namespace Sys2Proof.Claims

open Sys2Proof.Machine

/-- Settles O10: a register of the context is written in the context alone, one of the section in the section alone. -/
theorem systemRegistersReadBack : Obligations.SystemRegistersReadBack := by
  refine ⟨?ofContext, ?ofSection⟩
  case ofContext =>
    intro s t c role l r v hr s'
    obtain ⟨f, hset, hget⟩ : ∃ f, s' = s.modCtx t.ctx f ∧ sysReg s' t c l r = v := by
      obtain rfl | rfl | h | h := hr
      · exact ⟨fun x => { x with uimask := v }, rfl,
          congrArg Context.uimask (ctxAt_modCtx_same s t.ctx (fun x => { x with uimask := v }))⟩
      · exact ⟨fun x => { x with uientry := v, uilaunch := some t.lid }, rfl,
          congrArg Context.uientry (ctxAt_modCtx_same s t.ctx (fun x => { x with uientry := v, uilaunch := some t.lid }))⟩
      · have hset := sysSet_bkpt s t role v h
        refine ⟨_, hset, ?_⟩
        rw [sysReg_bkpt s' t c l h, show s' = _ from hset, ctxAt_modCtx_same, tget_tset_same]
      · have hset := sysSet_wpt s t role v h
        refine ⟨_, hset, ?_⟩
        rw [sysReg_wpt s' t c l h, show s' = _ from hset, ctxAt_modCtx_same, tget_tset_same]
    rw [hset] at hget ⊢
    exact ⟨hget, rfl, rfl, fun x hx => ctxAt_modCtx_other s f hx⟩
  case ofSection =>
    intro s t c role l r v hc hr s'
    have found (f : Section → Section) (hf : ∀ c, (f c).role = c.role) : (s.modSec t.tid role f).sec? t.tid role = some (f c) := by
      rw [sec?_modSec_same s t.tid role f hf, hc, Option.map_some]
    obtain rfl | rfl | rfl | rfl := hr
    · exact ⟨_, found _ (fun _ => rfl), rfl, rfl, rfl⟩
    · exact ⟨_, found _ (fun _ => rfl), rfl, rfl, rfl⟩
    · exact ⟨_, found _ (fun _ => rfl), rfl, rfl, rfl⟩
    · exact ⟨_, found _ (fun _ => rfl), rfl, rfl, rfl⟩

/-! ## Forms under a path's own mask -/

section

variable {s : State} {k : Iss} {i : Instr}

/-- An issued form that ignores the guard answers its effect (R64, R206). -/
theorem AtPath.pathForm_eq {u : Iss → Uses} (h : AtPath s k i (u k)) (dyn : Iss → Bool) (eff : Iss → State) (hd : dyn k = true) :
    pathForm i s dyn u eff = .next (eff k) :=
  pathForm_next i dyn u eff h.issuer h.formed h.lanes hd h.usable

/-- No latch is passed over where no source is named. -/
theorem usesUnlatched_no_src (k : Iss) (n : Bool) (d : List (Sel × Nat)) : usesUnlatched k ⟨n, d, []⟩ = ⟨n, d, []⟩ := by
  unfold usesUnlatched
  split <;> rfl

/-- A form of R328 issued by a section answers its effect. -/
theorem AtPath.sectionForm_eq {u : Iss → Uses} (h : AtPath s k i (usesUnlatched k (u k))) (dyn : Iss → Bool) (eff : Iss → State)
    (hd : dyn k = true) (hrec : k.rec? = none) : sectionForm i s dyn u eff = .next (eff k) := by
  refine (AtPath.pathForm_eq (u := fun k => usesUnlatched k (u k)) h dyn _ hd).trans ?_
  rw [hrec]

/-- A form of R328 issued by an ejected lane raises UNIFORM. -/
theorem AtPath.sectionForm_lane {u : Iss → Uses} (h : AtPath s k i (usesUnlatched k (u k))) (dyn : Iss → Bool) (eff : Iss → State)
    (hd : dyn k = true) (hrec : k.rec?.isSome = true) : sectionForm i s dyn u eff = .next (raise k s ⟨cUNIFORM, k.path, 0, 0⟩) := by
  obtain ⟨r, hr⟩ := Option.isSome_iff_exists.1 hrec
  refine (AtPath.pathForm_eq (u := fun k => usesUnlatched k (u k)) h dyn _ hd).trans ?_
  rw [hr]

/-! ## setmode, mfs, mts -/

theorem sysWidth_debug {r : Nat} (hlo : 0x28 ≤ r) (hhi : r ≤ 0x33) : sysWidth r = some true := by
  unfold sysWidth
  rw [if_neg, if_neg, if_neg, if_neg, if_neg, if_neg, if_pos ⟨hlo, hhi⟩] <;> omega

/-- An issued mfs reads where it may, and raises PROT where it may not (R71, R241). -/
theorem AtIssue.execMfs_eq {n w : Bool} {d r : BitVec 8} (h : AtIssue s k (.mfs n d r) ⟨n, [wsel w d], []⟩) (hw : sysWidth r.toNat = some w) :
    exec (.mfs n d r) s = .next (if mayRead r.toNat k.sec.hmode = true
      then retireWith k s (k.th.putResult n w k.path k.act d (fun l => mfsValue s k l r.toNat)).advance
      else raise k s ⟨cPROT, k.act, 0, 0⟩) := by
  change execMfs n d r s = _
  unfold execMfs
  simp only [hw, Option.getD_some]
  refine (h.guardedForm_eq (u := fun _ => ⟨n, [wsel w d], []⟩) (fun _ => true) _ _ rfl).trans ?_
  cases mayRead r.toNat k.sec.hmode <;> rfl

/-- An issued mts raises UNIFORM on an ejected lane and PROT where it may not write, and else writes (R71, R242). -/
theorem AtIssue.execMts_eq {w : Bool} {x : BitVec 8} {r : BitVec 16} (h : AtIssue s k (.mts x r) (usesUnlatched k ⟨true, [], [wsel w x]⟩))
    (hw : sysWidth r.toNat = some w)
    (hv : (k.rec?.isSome || sysValueOk k.sec r.toNat (BitVec.ofNat 64 (k.th.src w ((k.th.lowest k.act).getD 0) x))) = true) :
    exec (.mts x r) s = .next (if k.rec?.isSome = true then raise k s ⟨cUNIFORM, k.act, 0, 0⟩
      else if mayWrite r.toNat k.sec.hmode = true
        then sysSet (pass k s) k.team k.sec.role r.toNat (BitVec.ofNat 64 (k.th.src w ((k.th.lowest k.act).getD 0) x))
        else raise k s ⟨cPROT, k.act, 0, 1⟩) := by
  change execMts x r s = _
  unfold execMts
  simp only [hw, Option.getD_some]
  refine (h.guardedForm_eq (u := fun k => usesUnlatched k ⟨true, [], [wsel w x]⟩) _ _ _ hv).trans ?_
  cases k.rec? with
  | some _ => rfl
  | none => cases mayWrite r.toNat k.sec.hmode <;> rfl

end

/-- Settles O11: setmode is a form of the section, and mfs and mts ask the rights of R71 before they act. -/
theorem modeAndSystemRegisters : Obligations.ModeAndSystemRegisters := by
  have nosrc (k : Iss) : usesUnlatched k ⟨true, [], []⟩ = ⟨true, [], []⟩ := usesUnlatched_no_src k true []
  refine ⟨⟨?setmode, ?mfs, ?mts, ?setmodeLane, ?mtsLane⟩, ?mfsProt, ?mtsProt⟩
  case setmode =>
    intro e g s k hpath hrec hmode
    exact AtPath.sectionForm_eq (u := fun _ => ⟨true, [], []⟩) ((nosrc k).symm ▸ hpath) _ _ hmode hrec
  case mfs =>
    intro n d r s k w hw hissue hread
    rw [hissue.execMfs_eq hw, if_pos hread]
  case mts =>
    intro x r s k w hw hissue hrec v hv hwrite
    rw [hissue.execMts_eq hw (Bool.or_eq_true_iff.2 (.inr hv)), if_neg (by rw [hrec]; exact Bool.false_ne_true), if_pos hwrite]
  case setmodeLane =>
    intro e g s k hpath hrec hmode
    exact AtPath.sectionForm_lane (u := fun _ => ⟨true, [], []⟩) ((nosrc k).symm ▸ hpath) _ _ hmode hrec
  case mtsLane =>
    intro x r s k w hw hissue hrec
    rw [hissue.execMts_eq hw (Bool.or_eq_true_iff.2 (.inl hrec)), if_pos hrec]
  case mfsProt =>
    intro n d r s k hlo hhi hissue hmode
    rw [hissue.execMfs_eq (sysWidth_debug hlo hhi), if_neg]
    rw [mayRead, if_pos ⟨hlo, hhi⟩, hmode]
    exact Bool.false_ne_true
  case mtsProt =>
    intro x r s k w hw hr hissue hrec hmode hv
    rw [hissue.execMts_eq hw (Bool.or_eq_true_iff.2 (.inr hv)), if_neg (by rw [hrec]; exact Bool.false_ne_true), if_neg]
    rw [mayWrite, if_neg (by omega), if_pos (by omega), hmode]
    exact Bool.false_ne_true

end Sys2Proof.Claims
end

section
/-!
PROOFS. Matrix frame: the registers that a matrix major names, and that it changes no others.
-/

namespace Sys2Proof.Machine

/-- Every register that a pass writes lies in its run and in one of its lanes (R292). -/
theorem MatPass.result_regs {m : MatKind} {k : Iss} {d a : Nat} {p : MatPass} {e : Nat × Nat × Word} (he : e ∈ (p.result m k d a).1) :
    e.1 ∈ p.lanes ∧ d ≤ e.2.1 ∧ e.2.1 < d + (m.runs p.r).1 := by
  have walk (f : List (Nat × Nat × Word) × Word × List (Nat × Byte) → Nat × Nat → List (Nat × Nat × Word) × Word × List (Nat × Byte))
      (hf : ∀ acc x, ∃ v, (f acc x).1 = acc.1 ++ [(x.1, d + x.2, v)]) (cells : List (Nat × Nat)) :
      ∀ acc, e ∈ (cells.foldl f acc).1 → e ∈ acc.1 ∨ ∃ x ∈ cells, e.1 = x.1 ∧ e.2.1 = d + x.2 := by
    induction cells with
    | nil => exact fun acc h => .inl h
    | cons x r ih =>
      intro acc h
      obtain ⟨v, hv⟩ := hf acc x
      obtain hacc | ⟨y, hy, hey⟩ := ih _ h
      · rw [hv, List.mem_append, List.mem_singleton] at hacc
        exact hacc.imp_right (fun hx => ⟨x, List.mem_cons_self, by rw [hx]; exact ⟨rfl, rfl⟩⟩)
      · exact .inr ⟨y, List.mem_cons_of_mem _ hy, hey⟩
  obtain hnil | ⟨x, hx, hlane, hreg⟩ := walk _ (fun acc x => by cases m <;> exact ⟨_, rfl⟩) _ _ he
  · cases hnil
  · simp only [List.mem_flatMap, List.mem_map, List.mem_range] at hx
    obtain ⟨l, hl, j, hj, rfl⟩ := hx
    simp only at hlane hreg
    exact ⟨hlane ▸ hl, by omega, by omega⟩

/-- A run of a major holds at most 64 registers (R292). -/
theorem MatKind.runs_le (m : MatKind) (r : MatRec) : (m.runs r).1 ≤ 64 := by
  have hk : matK r.afmt ≤ 64 := by
    unfold matK matWidth
    repeat' split
    all_goals decide
  cases m <;> simp only [MatKind.runs] <;> omega

namespace Thread

/-- Writes of other registers, or in other lanes, leave a register. -/
theorem vreg_setV_foldl (l x : Nat) (hx : x < 256) (es : List (Nat × Nat × Word)) (th : Thread)
    (hes : ∀ e ∈ es, e.2.1 < 256 ∧ (l = e.1 → x ≠ e.2.1)) : (es.foldl (fun t e => t.setV e.1 e.2.1 e.2.2) th).vreg l x = th.vreg l x := by
  induction es generalizing th with
  | nil => rfl
  | cons e r ih =>
    obtain ⟨hbound, hne⟩ := hes e List.mem_cons_self
    rw [List.foldl_cons, ih _ (fun y hy => hes y (List.mem_cons_of_mem _ hy)), vreg_setV th _ _ l x _ hbound hx, if_neg (fun h => hne h.1 h.2)]

/-- Writes of vector registers leave all else of a thread. -/
theorem setV_foldl (es : List (Nat × Nat × Word)) (th : Thread) :
    ∃ vs, es.foldl (fun t e => t.setV e.1 e.2.1 e.2.2) th = { th with vregs := vs } := by
  induction es generalizing th with
  | nil => exact ⟨_, rfl⟩
  | cons e r ih =>
    obtain ⟨vs, hvs⟩ := ih (th.setV e.1 e.2.1 e.2.2)
    exact ⟨vs, hvs⟩

/-- A matrix major leaves the thread that its register writes leave, up to latches and flags (R295). -/
theorem putMat_eq (th : Thread) (path act : Mask) (r : MatRes) :
    ∃ t, SameButLatches t (if r.n then th else r.regs.foldl (fun t x => t.setV x.1 x.2.1 x.2.2) th) ∧
      th.putMat path act r = t.orFlags r.flags := by
  refine ⟨_, (latchPass_same _ r.n false path act r.d _).trans ?_, rfl⟩
  split
  · exact .refl _
  · exact SameButLatches.foldl _ (fun t (x : Nat × Nat) => unrec_same t x.1 r.d x.2) _ _

end Thread

end Sys2Proof.Machine

namespace Sys2Proof.Claims

open Sys2Proof.Machine Sys2Proof.Machine.Thread

/-- Settles O25: a major writes vector registers of its runs, latches and flags. -/
theorem matrixFrame : Obligations.MatrixFrame := by
  intro m k n d a ps th
  obtain ⟨t, hsame, hth⟩ := putMat_eq k.th k.path k.act (matRes m k n d a ps)
  have hvreg (l x : Nat) : th.vreg l x = t.vreg l x := (congrArg (fun u : Thread => u.vreg l x) hth).trans rfl
  have hkreg (x : Nat) : th.kreg x = t.kreg x := (congrArg (fun u : Thread => u.kreg x) hth).trans rfl
  have hpred (l p : Nat) : th.pred l p = t.pred l p := (congrArg (fun u : Thread => u.pred l p) hth).trans rfl
  obtain ⟨vs, hregs⟩ := setV_foldl (matRes m k n d a ps).regs k.th
  refine ⟨fun l x hx hout hd => ?_, fun x => ?_, fun l p => ?_⟩
  · rw [hvreg, vreg_of_same hsame]
    cases n with
    | true => rfl
    | false =>
      refine vreg_setV_foldl l x hx _ k.th (fun e he => ?_)
      obtain ⟨_, hres, he⟩ := List.mem_flatMap.1 he
      obtain ⟨p, hp, rfl⟩ := List.mem_map.1 hres
      obtain ⟨hlane, hlo, hhi⟩ := MatPass.result_regs he
      have hrun := m.runs_le p.r
      refine ⟨by omega, fun hl hxe => ?_⟩
      have hor := (hout.resolve_left Bool.false_ne_true) p hp (hl ▸ hlane)
      omega
  · rw [hkreg, kreg_of_same hsame, hregs]
    split <;> rfl
  · rw [hpred, pred_of_same hsame, hregs]
    split <;> rfl

end Sys2Proof.Claims
end

section
/-!
PROOFS. Accesses: what a load, a store and an atomic do when every element stands, once per form, and from it the forms of memory.
-/

namespace Sys2Proof.Claims

open Sys2Proof.Machine

/-! ## Elements that stand -/

theorem stands_eq_opens (r : Ready) : stands r = opens r := by cases r <;> rfl

/-- The lane operations that stand are those at a place. -/
theorem laneOps_open {rs : List (Elem × Ready)} (f : Ready × LaneOp → Option LaneOp)
    (hf : ∀ x, f x = match x.1 with
      | .spot .. => some x.2
      | _ => none) : (laneOps rs).filterMap f = openOps rs :=
  filterMap_congr_of_mem (fun x _ => hf x)

section

variable {rs : List (Elem × Ready)}

/-- Elements that stand do not wait, so that no pass is held back (R17). -/
theorem freePasses_stands (h : ∀ x ∈ rs, stands x.2 = true) : freePasses rs = rs := by
  have hnone : ∀ x ∈ rs, x.2.waits = false := by
    intro x hx
    have hstands := h x hx
    revert hstands
    cases x.2 <;> simp [stands, Ready.waits]
  refine List.filter_eq_self.2 (fun x _ => ?_)
  rw [Bool.not_eq_true', List.any_eq_false]
  intro y hy
  rw [hnone y hy, Bool.and_false]
  exact Bool.false_ne_true

theorem trapOf_stands (h : ∀ x ∈ rs, stands x.2 = true) : trapOf rs = none :=
  trapOf_none rs (fun x hx => stands_eq_opens x.2 ▸ h x hx)

theorem waitsFor_stands (k : Iss) (s : State) (op : MemOp) (f : Form) (h : ∀ x ∈ rs, stands x.2 = true) :
    waitsFor k s op f rs [] = none :=
  waitsFor_none k s op f rs (fun x hx => stands_eq_opens x.2 ▸ h x hx)

/-- None of what stands is taken for the side log. -/
theorem laneOps_logs_stands {α : Type} (f : Ready × LaneOp → Option α) (hf : ∀ x, stands x.1 = true → f x = none)
    (h : ∀ x ∈ rs, stands x.2 = true) : (laneOps rs).filterMap f = [] := by
  rw [List.filterMap_eq_nil_iff]
  intro x hx
  obtain ⟨y, hy, rfl⟩ := List.mem_map.1 hx
  exact hf _ (h y hy)

end

/-- The lanes of the elements that stand are the active ones. -/
theorem okLanes_stands {s : State} {k : Iss} (hk : s.iss? = some k) (t : State) (f : Form) (sys : Option Bool) (n : Nat) {es : List Elem}
    (hes : es.map Elem.lane = k.th.lanes k.act) (h : ∀ x ∈ t.readyAll k f sys n es, stands x.2 = true) :
    k.th.lanes (maskOf (okLanes (t.readyAll k f sys n es))) = k.th.lanes k.act ∧ maskOf (k.th.lanes k.act) = k.act := by
  have hact := iss_act hk
  have hok : okLanes (t.readyAll k f sys n es) = k.th.lanes k.act := by
    rw [okLanes_all _ (fun x hx => stands_eq_opens x.2 ▸ h x hx), ← hes, ← readyAll_fst t k f sys n es, List.map_map]
    rw [readyAll_fst]
    rfl
  rw [hok, hact]
  exact ⟨rfl, rfl⟩

/-! ## Loads -/

/-- A load whose elements all stand writes them and goes on (R257). -/
theorem loadForm_stands {s : State} {k : Iss} (hk : s.iss? = some k) (t : State) (n w : Bool) (d : Sel) (ty : BitVec 5) (e : Nat)
    (es : List Elem) (ext : Nat → Nat → DWord) (hes : es.map Elem.lane = k.th.lanes k.act)
    (h : ∀ x ∈ t.readyAll k .load none e es, stands x.2 = true) :
    loadForm k t n w d ty e es [] ext [] = retireWith k (loadsOver k ((t.loadAll k e (t.readyAll k .load none e es)).2.unpromote k
        (t.readyAll k .load none e es)))
      ((k.th.putResult n w k.path k.act d (fun l => ext l (laneVal (t.loadAll k e (t.readyAll k .load none e es)).1 l))).advance) := by
  obtain ⟨hlanes, hact⟩ := okLanes_stands hk t .load none e hes h
  unfold loadForm
  simp only [waitsFor_stands k t _ .load h, List.append_nil]
  rw [accessEnd_none _ _ _ _ (trapOf_stands h), hlanes, putSome_all k n w d _ hact]
  rfl

/-! ## Stores and steps that return nothing -/

/-- The elements that a store writes one by one are those that lie apart (R258). -/
theorem nearOf_eq_apart (rs : List (Elem × Ready)) (steps : Bool) (f : Ready × LaneOp → Option LaneOp)
    (hf : ∀ x, f x = match x.1 with
      | .spot (.phys _) _ => none
      | .spot _ _ => if (steps || addrClass x.2.addr.toNat == 2) = true then none else some x.2
      | _ => none) : (laneOps rs).filterMap f = apart steps rs := by
  unfold apart openOps
  rw [List.filter_filterMap]
  refine filterMap_congr_of_mem (fun x hx => ?_)
  obtain ⟨⟨e, r⟩, -, rfl⟩ := List.mem_map.1 hx
  rw [hf]
  cases r with
  | spot sp vas =>
    cases sp <;> cases steps <;> simp [Option.filter]
  | _ => rfl

/-- A store of a section, more than one of whose elements lies apart, writes the first of them (R258). -/
theorem storeForm_apart (k : Iss) (s : State) (op : MemOp) (es : List Elem) {x y : LaneOp} {r : List LaneOp} (hop : op.kind = .store)
    (h : ∀ z ∈ s.readyAll k .store (s.sysWay op) op.size es, stands z.2 = true) (hdmr : k.sec.dmr = false) (hrec : k.rec? = none)
    (hap : apart false (s.readyAll k .store (s.sysWay op) op.size es) = x :: y :: r) :
    storeForm k s op es [] = serve k (s.storeLane k op x) op false (k.host?.bind HostReq.part) [(x.lane, 0)] := by
  unfold storeForm
  simp only [hop, if_true, freePasses_stands h, hdmr, Bool.or_false, hrec, waitsFor_stands k s op .store h, List.append_nil, trapOf_stands h]
  rw [nearOf_eq_apart _ false]
  · rw [hap]
    rfl
  · intro z
    cases z.1 <;> rfl

/-- A store, or a step that returns nothing, whose elements all stand and lie apart at most singly performs or is posted (R257, R264). -/
theorem storeForm_posted (k : Iss) (s : State) (op : MemOp) (es : List Elem) {f : Form} {rs : List (Elem × Ready)}
    (hf : (if op.kind = .store then Form.store else if op.atomic then .post else .red) = f)
    (hrs : s.readyAll k f (s.sysWay op) op.size es = rs) (h : ∀ z ∈ rs, stands z.2 = true) (hdmr : k.sec.dmr = false)
    (hroom : counter k.sec 3 < 63 ∨ (k.host?.bind HostReq.part).isSome)
    (hap : k.rec?.isSome ∨ (apart f.steps rs).length ≤ 1) : storeForm k s op es [] = posted k s f.steps op rs := by
  have hside (t : State) (id : Nat) : t.sideLog k id op [] = t := rfl
  have hfits (a b c : Nat) : logFits a b c op [] = [] := rfl
  unfold storeForm
  simp only [hf, hrs, freePasses_stands h, hdmr, Bool.or_false, waitsFor_stands k s op f h, List.append_nil, Option.isSome_none]
  rw [nearOf_eq_apart _ f.steps, laneOps_open, laneOps_logs_stands (α := Nat × LaneOp) _ _ h]
  · split
    · next hcons hmany hrec =>
      rw [hrec, hcons] at hap
      rw [hcons] at hmany
      simp only [decide_eq_true_eq] at hmany
      simp only [Option.isSome_none, Bool.false_eq_true, false_or] at hap
      omega
    · simp only [Bool.false_eq_true, if_false, hfits, hside, List.isEmpty_nil, List.length_nil, Nat.lt_irrefl, List.any_nil, Bool.or_false, Bool.not_true,
        Bool.and_false, Bool.false_and, if_true]
      rw [accessEnd_none _ _ _ _ (trapOf_stands h)]
      unfold posted loadsOver
      generalize List.filter (fun x => f.steps || addrClass x.addr.toNat == 2) (openOps rs) = far
      simp only
      rw [if_neg]
      · cases far.isEmpty <;> cases k.host?.bind HostReq.part <;> rfl
      · rcases hroom with hroom | hroom
        · rw [decide_eq_false (by omega), Bool.and_false]
          exact Bool.false_ne_true
        · rw [Option.isNone_eq_false_iff.2 hroom, Bool.and_false, Bool.false_and]
          exact Bool.false_ne_true
  · intro z; cases z.1 <;> simp [stands]
  · intro z; cases z.1 <;> rfl
  · intro z; cases z.1 <;> rfl

/-! ## Atomics that return the old value -/

/-- An atomic of a section outside deterministic mode does one lane's step at a time while several stand (R261). -/
theorem atomForm_first (k : Iss) (s : State) (w : Bool) (d : Sel) (op : MemOp) (es : List Elem) (log : State → List LaneOp → Turn)
    {x y : LaneOp} {r : List LaneOp} (h : ∀ z ∈ s.readyAll k .atom (s.sysWay op) op.size es, stands z.2 = true) (hdmr : k.sec.dmr = false)
    (hrec : k.rec? = none) (hdet : k.sec.det = false) (hops : openOps (s.readyAll k .atom (s.sysWay op) op.size es) = x :: y :: r) :
    atomForm k s w d op es log =
      serve k (s.atomLane k op x).2 op false none [(x.lane, BitVec.ofNat 64 (s.atomLane k op x).1)] := by
  have hspots {rs : List (Elem × Ready)} {f : Ready × LaneOp → Option LaneOp} := laneOps_open (rs := rs) f
  unfold atomForm
  dsimp only
  split
  · next z tail hcons _ _ =>
    rw [freePasses_stands h, hspots (fun z => by cases z.1 <;> rfl), hops] at hcons
    obtain ⟨rfl, -⟩ := List.cons.inj hcons
    rw [trapOf_stands h]
    rfl
  · next hother =>
    refine (hother x (y :: r) ?_ ?_ hrec).elim
    · rw [freePasses_stands h, hspots (fun z => by cases z.1 <;> rfl), hops]
    · rw [Bool.and_eq_true, Bool.and_eq_true, Bool.or_eq_true, decide_eq_true_eq, hspots (fun z => by cases z.1 <;> rfl), hops, hdmr, hdet]
      exact ⟨⟨Or.inl (Nat.succ_lt_succ (Nat.succ_pos _)), rfl⟩, rfl⟩

/-- An atomic that takes its turn does the steps of all its lanes in order and returns the old values (R261, R262, R265). -/
theorem atomForm_stands {s s' : State} {k : Iss} (hk : s.iss? = some k) (w : Bool) (d : Sel) (op : MemOp) (es : List Elem)
    (log : State → List LaneOp → Turn) {rs : List (Elem × Ready)} (hrs : s.readyAll k .atom (s.sysWay op) op.size es = rs)
    (hes : es.map Elem.lane = k.th.lanes k.act) (h : ∀ z ∈ rs, stands z.2 = true) (hdmr : k.sec.dmr = false)
    (hall : k.rec?.isSome ∨ k.sec.det = true ∨ (openOps rs).length ≤ 1) (hlog : log s (openOps rs) = .go s') :
    atomForm k s w d op es log = retireWith k (loadsOver k (stepped k s' op rs).2)
      ((k.th.putResult false w k.path k.act d (fun l => BitVec.ofNat 64 (laneVal (stepped k s' op rs).1 l))).advance) := by
  subst hrs
  obtain ⟨hlanes, hact⟩ := okLanes_stands hk s .atom (s.sysWay op) op.size hes h
  have hok : maskOf (okLanes (s.readyAll k .atom (s.sysWay op) op.size es)) = k.act := by
    rw [okLanes_all _ (fun x hx => stands_eq_opens x.2 ▸ h x hx), ← hact, ← hes]
    rw [← readyAll_fst s k .atom (s.sysWay op) op.size es, List.map_map, readyAll_fst]
    rfl
  have hspots {rs : List (Elem × Ready)} {f : Ready × LaneOp → Option LaneOp} := laneOps_open (rs := rs) f
  unfold atomForm
  dsimp only
  split
  · next hcons hmany hrec =>
    rw [waitsFor_stands k s op .atom h, Bool.and_eq_true, Bool.and_eq_true, Bool.or_eq_true, decide_eq_true_eq,
      hspots (fun z => by cases z.1 <;> rfl)] at hmany
    simp only [Bool.not_eq_true', Option.isSome_none, Bool.false_eq_true, or_false] at hmany
    obtain ⟨⟨hlen, hdet⟩, -⟩ := hmany
    simp only [hrec, Option.isSome_none, Bool.false_eq_true, false_or, hdet] at hall
    omega
  · simp only [waitsFor_stands k s op .atom h, hdmr, Bool.false_eq_true, if_false, List.isEmpty_nil, Bool.not_true]
    rw [hspots (fun z => by cases z.1 <;> rfl), hlog]
    simp only
    rw [accessEnd_none _ _ _ _ (trapOf_stands h), putSome_all k false w d _ hok]
    rfl

/-- Outside deterministic mode every arrival has its turn at once (R265). -/
theorem atomTurn_free (t : Team) (c : Section) (s : State) (ls : List LaneOp) (hdet : c.det = false) : ∃ s', atomTurn t c s ls = .go s' := by
  have hchoose (s : State) (b : Nat) (same : Nat → Bool) : s.choose t.ctx c.det c.replay 2 b same = .go s := by
    unfold State.choose
    rw [hdet]
    rfl
  unfold atomTurn
  simp only [hchoose]
  generalize List.foldl _ ([] : List LaneOp) ls = firsts
  induction firsts generalizing s with
  | nil => exact ⟨s, rfl⟩
  | cons x r ih => exact ih s

/-! ## Loads of the M format -/

section

variable {s : State} {k : Iss} {i : Instr} {win : Window} {n : Bool} {d o : Sel} {m : BitVec 5} {im : BitVec 3} {e : Nat}

theorem LoadRule.exec_eq_loadM (h : LoadRule i win n d m o im) (s : State) : exec i s = loadM i win n d m o im s := by
  cases h <;> rfl

/-- An issued load of a TYPE of `e` bytes is the load form of its lanes' elements (R255, R257). -/
theorem AtIssue.loadM_eq (h : AtIssue s k i ⟨n, [wsel (tyPair (gType k.th.gmode)) d], [(o, 1)]⟩) (hty : tyBytes (gType k.th.gmode) = some e)
    (hd : pairDst (tyPair (gType k.th.gmode)) d = true) :
    loadM i win n d m o im s = .next (loadForm k s n (tyPair (gType k.th.gmode)) d (gType k.th.gmode) e
      ((k.th.lanes k.act).map (fun l => mElem k win m o e im.toNat l 0 0)) [] (fun _ => loadExt (gType k.th.gmode) e) []) := by
  refine (h.guardedForm_eq (u := fun k => ⟨n, [wsel (tyPair (gType k.th.gmode)) d], [(o, 1)]⟩) _ _ _ ?_).trans ?_
  · simp only [hty, hd, Option.isSome_some, Bool.and_self]
  · simp only [hty, Option.getD_some]

/-- An element that stands or faults is the end of its access. -/
theorem waitsFor_settled (k : Iss) (s : State) (op : MemOp) (f : Form) {rs : List (Elem × Ready)}
    (h : ∀ y ∈ rs, stands y.2 = true ∨ ∃ c a u, y.2 = .fault c a u) (hmay : mayTrap k s = true) : waitsFor k s op f rs [] = none := by
  have hsome {β : Type} (g : Elem × Ready → Option β) (hg : ∀ x ∈ rs, g x = none) : rs.findSome? g = none := List.findSome?_eq_none_iff.2 hg
  have hnil {β : Type} (g : Elem × Ready → Option β) (hg : ∀ x ∈ rs, g x = none) : rs.filterMap g = [] := List.filterMap_eq_nil_iff.2 hg
  have hany (g : Elem × Ready → Bool) (hg : ∀ x ∈ rs, g x = false) : rs.any g = false := by
    rw [List.any_eq_false]
    intro x hx
    rw [hg x hx]
    exact Bool.false_ne_true
  unfold waitsFor
  rw [hany, hmay, hnil, hnil, hsome, hany]
  · simp
  all_goals
    intro x hx
    obtain hstands | ⟨c, a, u, hfault⟩ := h x hx
    · revert hstands
      cases x.2 <;> simp [stands]
    · rw [hfault]

/-- A load some of whose elements fault writes what the others read, and its faulting lanes trap together (R77, R259). -/
theorem loadForm_faults (t : State) (w : Bool) (ty : BitVec 5) (es : List Elem) (ext : Nat → Nat → DWord) {x : Trap}
    (h : ∀ y ∈ t.readyAll k .load none e es, stands y.2 = true ∨ ∃ c a u, y.2 = .fault c a u)
    (htrap : trapOf (t.readyAll k .load none e es) = some x) (hmay : mayTrap k t = true) :
    loadForm k t n w d ty e es [] ext [] = raiseAccess k (putTh k (loadsOver k
        ((t.loadAll k e (t.readyAll k .load none e es)).2.unpromote k (t.readyAll k .load none e es)))
      (putSome k n w d (k.th.lanes (maskOf (okLanes (t.readyAll k .load none e es))))
        (fun l => ext l (laneVal (t.loadAll k e (t.readyAll k .load none e es)).1 l)))) x := by
  unfold loadForm
  simp only [waitsFor_settled k t _ .load h hmay, List.append_nil, accessEnd, htrap]
  rfl

end

/-- An element whose data holds an uncorrected error faults with ECC (R78, R259). -/
theorem readyAll_ecc {s : State} {k : Iss} {f : Form} {sys : Option Bool} {n : Nat} {e : Elem} {sp : Spot} {vas : List (Nat × Nat)}
    (hf : f = .load ∨ f = .atom) (hready : s.ready k f sys n e = .spot sp vas)
    (hwatch : s.watch? k.team.ctx f.access (s.vasOf k f.access n e) = none) (hecc : s.eccAt sp n = true) :
    s.readyAll k f sys n [e] = [(e, .fault cECC (BitVec.ofNat 64 e.a) 0)] := by
  have hreads : f.reads = true := by obtain rfl | rfl := hf <;> rfl
  simp only [State.readyAll, List.map_cons, List.map_nil, hready, hwatch, State.eccOf, hreads, hecc, Bool.and_self, if_true]

/-! ## Watchpoints -/

theorem sec?_post (s : State) (r : Rec) (tid role : Nat) : (s.post r).sec? tid role = s.sec? tid role := by
  simp only [State.sec?, State.team?, post_teams]

/-- A hold with a recorded cause stands before the instruction (R90, R91). -/
theorem sec?_holdWith {s : State} {t : Team} {role : Nat} {x : Trap} {c : Section} (hc : s.sec? t.tid role = some c) :
    (holdWith s t role x).sec? t.tid role = some { recordTrap { c with th := c.th.killLatches } c.th.pc x with
      state := .held, prev := c.state, stepping := false, stepDone := false, holdDue := false, granted := [] } := by
  unfold holdWith
  simp only [sec?_post]
  refine (sec?_modSec_same s t.tid role _ ?_).trans (by rw [hc]; rfl)
  exact fun _ => rfl

/-- A fault of a watchpoint with ACT 1 holds the section before its instruction (R91). -/
theorem raiseAccess_holds {s : State} {k : Iss} {x : Trap} (hrec : k.rec? = none) (htaps : k.sec.taps = [])
    (hsec : s.sec? k.team.tid k.sec.role = some k.sec) (hholds : watchHolds k s x = true) :
    ∃ c, (raiseAccess k s x).sec? k.team.tid k.sec.role = some c ∧ c.state = .held ∧ c.prev = k.sec.state ∧
      c.trapCode.toNat = cWATCH ∧ c.th.pc = k.sec.th.pc := by
  have hmay : mayTrap k s = true := by simp [mayTrap, hsec, hrec, htaps]
  have hcode : x.code = cWATCH := by
    rw [watchHolds, Bool.and_eq_true, beq_iff_eq] at hholds
    exact hholds.1
  unfold raiseAccess
  rw [hholds, hmay, hrec]
  refine ⟨_, sec?_holdWith (c := { k.sec with retry := if x.lanes = k.sec.th.path then none else some x.lanes }) ?_, rfl, rfl, ?_, rfl⟩
  · refine (sec?_modSec_same s k.team.tid k.sec.role _ ?_).trans (by rw [hsec]; rfl)
    exact fun _ => rfl
  · simp only [recordTrap, hcode]
    rfl

/-! ## Loads of the own scratchpad -/

/-- The fields of an address in a core's scratchpad window (R95). -/
theorem coreWindow_bits {d c o : Nat} (hd : d < 4) (hc : c < 64) (ho : o < 2 ^ 32) :
    bits (0xFC * 2 ^ 56 + d * 2 ^ 54 + c * 2 ^ 48 + o) 56 8 = 0xFC ∧ bits (0xFC * 2 ^ 56 + d * 2 ^ 54 + c * 2 ^ 48 + o) 54 2 = d ∧
    bits (0xFC * 2 ^ 56 + d * 2 ^ 54 + c * 2 ^ 48 + o) 48 6 = c ∧ bits (0xFC * 2 ^ 56 + d * 2 ^ 54 + c * 2 ^ 48 + o) 32 16 = 0 ∧
    bits (0xFC * 2 ^ 56 + d * 2 ^ 54 + c * 2 ^ 48 + o) 0 32 = o := by
  unfold bits
  simp only [Nat.reducePow, Nat.reduceMul] at ho ⊢
  omega

/-- The size of an element divides the window of a core (R63, R95). -/
theorem tyBytes_dvd {ty : BitVec 5} {e : Nat} (h : tyBytes ty = some e) : 0 < e ∧ 2 ^ 48 % e = 0 := by
  unfold tyBytes at h
  split at h <;> cases h <;> decide

theorem winElem_core {b l : Nat} {v : Int} (h0 : 0 ≤ v) (h32 : v.toNat < 2 ^ 32) :
    winElem b l v = { lane := l, a := b + v.toNat, bad := false, data := 0, data2 := 0 } := by
  have hv : v < (2 ^ 32 : Nat) := by omega
  have hbad : ¬(v < 0 ∨ ((2 ^ 32 : Nat) : Int) ≤ v) := by omega
  unfold winElem
  rw [Int.emod_eq_of_lt h0 hv, decide_eq_false hbad]

/-- What a load of the own scratchpad asks of the issuer: a resident team, nothing of its own under way, every line present (R102, R105). -/
structure Quiet (s : State) (k : Iss) : Prop where
  team   : s.team? k.team.tid = some k.team
  die    : k.team.die < 4
  core   : k.team.core < 64
  size   : k.team.scratchSize < 2 ^ 32
  active : k.team.bank = .active
  lines  : k.team.lines = []
  remote : s.remote = []
  taps   : k.sec.taps = []
  cmp    : k.sec.cmp = []
  host   : k.sec.hostReq = none

/-- An element of `e` bytes, aligned, at offset `o` of the issuer's own scratchpad (R256). -/
structure InOwn (k : Iss) (e o : Nat) (x : Elem) : Prop where
  good    : x.bad = false
  window  : addrClass x.a = 3
  zeros   : bits x.a 32 16 = 0
  die     : bits x.a 54 2 = k.team.die
  core    : bits x.a 48 6 = k.team.core
  offset  : bits x.a 0 32 = o
  aligned : x.a % e = 0
  inside  : o + e ≤ k.team.scratchSize

section

variable {s : State} {k : Iss} {l o e : Nat} {x : Elem}

/-- The sum of an address divides where its window and its offset do. -/
theorem window_add_mod {b o e : Nat} (he : 2 ^ 48 % e = 0) (hb : b % 2 ^ 48 = 0) (ho : o % e = 0) : (b + o) % e = 0 :=
  Nat.mod_eq_zero_of_dvd (Nat.dvd_add (Nat.dvd_trans (Nat.dvd_of_mod_eq_zero he) (Nat.dvd_of_mod_eq_zero hb)) (Nat.dvd_of_mod_eq_zero ho))

/-- The element of lds at a sum that is an aligned offset of the own scratchpad (R256). -/
theorem Quiet.mElem_inOwn (h : Quiet s k) (m : BitVec 5) (o : Sel) (im : Nat) (he : 2 ^ 48 % e = 0) (hpos : 0 < e) (h0 : 0 ≤ k.th.winSum l m o e im)
    (halign : (k.th.winSum l m o e im).toNat % e = 0) (hin : (k.th.winSum l m o e im).toNat + e ≤ k.team.scratchSize) :
    InOwn k e (k.th.winSum l m o e im).toNat (mElem k .core m o e im l 0 0) := by
  have hsize := h.size
  have h32 : (k.th.winSum l m o e im).toNat < 2 ^ 32 := by
    generalize (k.th.winSum l m o e im).toNat = v at hin ⊢
    omega
  obtain ⟨hclass, hdie, hcore, hzero, hoff⟩ := coreWindow_bits h.die h.core h32
  have hbase : (0xFC * 2 ^ 56 + k.team.die * 2 ^ 54 + k.team.core * 2 ^ 48) % 2 ^ 48 = 0 := by omega
  simp only [mElem, winElem_core h0 h32]
  exact ⟨rfl, by simp only [addrClass, hclass], hzero, hdie, hcore, hoff, window_add_mod he hbase halign, hin⟩

theorem InOwn.checkPlace (h : InOwn k e o x) (s : State) (acc : Access) : s.checkPlace k acc e x = .ok (.team k.team.tid o) := by
  have hspace : s.spaceFault k.team x.a e = false := by
    have hinside := h.inside
    simp only [State.spaceFault, addrZeros, h.window, h.zeros, h.die, h.core, h.offset]
    simp
    omega
  simp [State.checkPlace, hspace, h.good, h.aligned, State.placeOf, h.window, h.offset]

theorem Quiet.readyAt (hq : Quiet s k) (h : InOwn k e o x) : s.readyAt k .load none e x = .spot (.team k.team.tid o) [] := by
  have hpresent : touch s k.team.tid (rangeLines o e) = .ok := by
    unfold touch
    rw [hq.team]
    simp only [Team.line, hq.lines]
    rw [List.find?_eq_none.2]
    intro x _
    simp [tget]
  have hown : s.ownRemote k (.team k.team.tid o) e = false := by simp [State.ownRemote, hq.remote, hq.cmp]
  unfold State.readyAt
  simp only [h.checkPlace, hpresent, hown, hq.taps, hq.team, hq.active, List.any_nil, Bool.and_false, Bool.false_eq_true, if_false,
    Form.isLoad, Bool.not_true, Bool.false_and, Option.any_some, bne_self_eq_false]

/-- An aligned element in the own scratchpad whose data is good stands at its bytes. -/
theorem Quiet.readyAll (hq : Quiet s k) (ls : List Nat) (el : Nat → Elem) (off : Nat → Nat)
    (hok : ∀ l ∈ ls, InOwn k e (off l) (el l) ∧ s.eccAt (.team k.team.tid (off l)) e = false) :
    s.readyAll k .load none e (ls.map el) = ls.map (fun l => (el l, .spot (.team k.team.tid (off l)) [])) := by
  unfold State.readyAll
  rw [List.map_map]
  refine List.map_congr_left (fun l hl => ?_)
  obtain ⟨hin, hecc⟩ := hok l hl
  have hready : s.ready k .load none e (el l) = .spot (.team k.team.tid (off l)) [] := by
    have hhost : k.host? = none := by simp [Iss.host?, hq.host]
    unfold State.ready
    rw [hhost]
    exact hq.readyAt hin
  have hvas : s.vasOf k .load e (el l) = [] := by simp [State.vasOf, hin.checkPlace]
  have hwatch : s.watch? k.team.ctx .load [] = none := by simp [State.watch?]
  simp only [Function.comp_apply, hready, Form.access, hvas, hwatch, State.eccOf, hecc, Bool.and_false, Bool.false_eq_true, if_false]

/-- The values loaded from the own scratchpad, lane by lane; the state stays. -/
theorem Quiet.loadAll (hq : Quiet s k) (ls : List Nat) (el : Nat → Elem) (off : Nat → Nat) (hlane : ∀ l, (el l).lane = l) :
    s.loadAll k e (ls.map (fun l => (el l, .spot (.team k.team.tid (off l)) []))) =
      (ls.map (fun l => (l, readNat k.team.scratch (off l) e)), s) := by
  have walk (acc : List (Nat × Nat)) : (ls.map (fun l => (el l, Ready.spot (.team k.team.tid (off l)) []))).foldl
      (fun acc x => match x.2 with
        | .fault .. => acc
        | r => (acc.1 ++ [(x.1.lane, (acc.2.loadAt k e r).1)], (acc.2.loadAt k e r).2)) (acc, s) =
      (acc ++ ls.map (fun l => (l, readNat k.team.scratch (off l) e)), s) := by
    induction ls generalizing acc with
    | nil => simp
    | cons l r ih =>
      rw [List.map_cons, List.foldl_cons]
      refine (ih _).trans ?_
      simp only [State.loadAt, State.spotRead, hq.team, hlane, readNat, List.append_assoc, List.map_cons, List.singleton_append]
  exact walk []

theorem laneVal_map (ls : List Nat) (f : Nat → Nat) (l : Nat) : laneVal (ls.map (fun l => (l, f l))) l = if l ∈ ls then f l else 0 := by
  unfold laneVal
  rw [List.find?_map]
  induction ls with
  | nil => rfl
  | cons x r ih =>
    by_cases hx : x = l
    · simp [hx]
    · have hx' : l ≠ x := fun h => hx h.symm
      simpa [hx, hx'] using ih

end

/-- Settles O16: the loads of the M format are load forms, whose elements stand, or fault, or lie in the own scratchpad. -/
theorem loads : Obligations.Loads := by
  refine ⟨?stand, ?own, ?fault, fun s k f sys n e sp vas hf hready hwatch hecc => readyAll_ecc hf hready hwatch hecc, ?watch⟩
  case stand =>
    intro i win n d m o im hrule s k e ty w rs hissue hty hpair hstands
    rw [hrule.exec_eq_loadM, hissue.loadM_eq hty hpair]
    exact congrArg _ (loadForm_stands hissue.issuer s n w d ty e _ _ (mElem_lanes k win m o e im.toNat _ _ _) hstands)
  case own =>
    intro n d m o im s k e ty w off hissue hty hpair hteam hdie hcore hsize hactive hlines hremote htaps hcmp hhost hlanes
    have hquiet : Quiet s k := ⟨hteam, hdie, hcore, hsize, hactive, hlines, hremote, htaps, hcmp, hhost⟩
    obtain ⟨hpos, hdvd⟩ := tyBytes_dvd hty
    let el (l : Nat) : Elem := mElem k .core m o e im.toNat l 0 0
    have hrs : s.readyAll k .load none e ((k.th.lanes k.act).map el) =
        (k.th.lanes k.act).map (fun l => (el l, .spot (.team k.team.tid (off l)) [])) := by
      refine hquiet.readyAll _ el off (fun l hl => ?_)
      obtain ⟨h0, halign, hin, hecc⟩ := hlanes l hl
      exact ⟨hquiet.mElem_inOwn m o im.toNat hdvd hpos h0 halign hin, hecc⟩
    have hstands : ∀ x ∈ s.readyAll k .load none e ((k.th.lanes k.act).map el), stands x.2 = true := by
      rw [hrs]
      intro x hx
      obtain ⟨l, -, rfl⟩ := List.mem_map.1 hx
      rfl
    have hunpromote (ls : List Nat) : s.unpromote k (ls.map (fun l => (el l, Ready.spot (.team k.team.tid (off l)) []))) = s := by
      unfold State.unpromote
      simp [List.flatMap_map, Spot.linesOf]
    rw [(LoadRule.lds n d m o im).exec_eq_loadM, hissue.loadM_eq hty hpair]
    refine (congrArg _ (loadForm_stands hissue.issuer s n w d ty e _ _ (mElem_lanes k .core m o e im.toNat _ _ _) hstands)).trans ?_
    rw [hrs, hquiet.loadAll _ el off (fun _ => rfl), hunpromote]
    simp only [laneVal_map]
    rfl
  case fault =>
    intro i win n d m o im hrule s k e x ty w rs hissue hty hpair hsettled htrap hmay
    rw [hrule.exec_eq_loadM, hissue.loadM_eq hty hpair]
    exact congrArg _ (loadForm_faults s w ty _ _ hsettled htrap hmay)
  case watch =>
    intro s k x hrec htaps hsec
    refine ⟨fun hno => ?_, raiseAccess_holds hrec htaps hsec⟩
    unfold raiseAccess
    rw [hno]
    rfl

/-! ## Stores, reductions and atomics of the M format -/

section

variable {s : State} {k : Iss} {i : Instr} {win : Window} {kind : OpKind} {n : Bool} {d o : Sel} {m : BitVec 5} {im c : BitVec 3} {e : Nat}

theorem StoreRule.exec_eq_storeM (h : StoreRule i win d m o im) (s : State) : exec i s = storeM i win d m o im s := by
  cases h <;> rfl

theorem RedRule.exec_eq_redM (h : RedRule i kind d m o c) (s : State) : exec i s = redM i kind d m o c s := by
  cases h <;> rfl

theorem AtomRule.exec_eq_atomM (h : AtomRule i kind n d m o c) (s : State) : exec i s = atomM i kind n d m o c s := by
  cases h <;> rfl

theorem RedRule.kind_ne_store (h : RedRule i kind d m o c) : kind ≠ .store := by cases h <;> decide

theorem AtomRule.kind_ne_store (h : AtomRule i kind n d m o c) : kind ≠ .store := by cases h <;> decide

/-- An issued store of a TYPE of `e` bytes is the store form of its lanes' elements (R255, R257). -/
theorem AtIssue.storeM_eq (h : AtIssue s k i ⟨true, [], [wsel (tyPair (gType k.th.gmode)) d, (o, 1)]⟩)
    (hty : tyBytes (gType k.th.gmode) = some e) (hd : pairSrc (tyPair (gType k.th.gmode)) d = true) :
    storeM i win d m o im s = .next (storeForm k s
      { kind := .store, ty := gType k.th.gmode, size := e, scope := 0, rd := 0, lanes := [], atomic := false }
      ((k.th.lanes k.act).map (fun l => mElem k win m o e im.toNat l (BitVec.ofNat 64 (k.th.src (tyPair (gType k.th.gmode)) l d)) 0)) []) := by
  refine (h.guardedForm_eq (u := fun k => ⟨true, [], [wsel (tyPair (gType k.th.gmode)) d, (o, 1)]⟩) _ _ _ ?_).trans ?_
  · simp only [hty, hd, Option.isSome_some, Bool.and_self]
  · simp only [hty, Option.getD_some]

/-- An issued reduction of a legal TYPE is the store form of its lanes' steps (R264). -/
theorem AtIssue.redM_eq (h : AtIssue s k i ⟨true, [], [wsel (tyPair (gType k.th.gmode)) d, (o, 1)]⟩)
    (hkind : atomTy kind (gType k.th.gmode) = true) (hty : tyBytes (gType k.th.gmode) = some e)
    (hd : pairSrc (tyPair (gType k.th.gmode)) d = true) :
    redM i kind d m o c s = .next (storeForm k s
      { kind := kind, ty := gType k.th.gmode, size := e, scope := c, rd := gRd k.th.gmode, lanes := [], atomic := false }
      ((k.th.lanes k.act).map (fun l => mElem k .any m o e 0 l (BitVec.ofNat 64 (k.th.src (tyPair (gType k.th.gmode)) l d)) 0)) []) := by
  refine (h.guardedForm_eq (u := fun k => ⟨true, [], [wsel (tyPair (gType k.th.gmode)) d, (o, 1)]⟩) _ _ _ ?_).trans ?_
  · simp only [hkind, hd, Bool.and_self]
  · simp only [hty, Option.getD_some]

/-- An issued atomic of a legal TYPE is posted with N = 1 and returns the old values otherwise (R261, R264). -/
theorem AtIssue.atomM_eq (h : AtIssue s k i (atomUses kind n (tyPair (gType k.th.gmode)) d o))
    (hkind : atomTy kind (gType k.th.gmode) = true) (hty : tyBytes (gType k.th.gmode) = some e)
    (hd : if kind = .cas then tyPair (gType k.th.gmode) = true → d.toNat % 4 = 0
      else (if n then pairSrc (tyPair (gType k.th.gmode)) d else pairDst (tyPair (gType k.th.gmode)) d) = true) :
    atomM i kind n d m o c s = .next
      (if n then storeForm k s { kind := kind, ty := gType k.th.gmode, size := e, scope := c, rd := gRd k.th.gmode, lanes := [], atomic := true }
        (stepElems k kind (tyPair (gType k.th.gmode)) d m o e) []
      else atomForm k s (tyPair (gType k.th.gmode)) d
        { kind := kind, ty := gType k.th.gmode, size := e, scope := c, rd := gRd k.th.gmode, lanes := [], atomic := true }
        (stepElems k kind (tyPair (gType k.th.gmode)) d m o e) (atomTurn k.team k.sec)) := by
  refine (h.guardedForm_eq (u := fun k => atomUses kind n (tyPair (gType k.th.gmode)) d o) _ _ _ ?_).trans ?_
  · simp only [hkind, Bool.true_and]
    split at hd
    · next hcas =>
      rw [if_pos hcas, Bool.or_eq_true, Bool.not_eq_true', decide_eq_true_eq]
      cases hw : tyPair (gType k.th.gmode) with
      | false => exact .inl rfl
      | true => exact .inr (hd hw)
    · next hcas => rwa [if_neg hcas]
  · simp only [hty, Option.getD_some]
    rfl

end

/-- No step of memory is written apart (R258, R262). -/
theorem apart_steps (rs : List (Elem × Ready)) : apart true rs = [] := by
  unfold apart
  rw [List.filter_eq_nil_iff]
  intro x _
  simp

/-- Settles O18: the stores of the M format are store forms, whose elements stand. -/
theorem stores : Obligations.Stores := by
  intro i win d m o im hrule s k e ty w es op rs hissue hty hpair hstands hdmr hroom
  rw [hrule.exec_eq_storeM, hissue.storeM_eq hty hpair]
  refine ⟨fun hap => congrArg _ ?_, fun x y r hrec hap => congrArg _ ?_⟩
  · exact storeForm_posted (f := .store) k s op es rfl rfl hstands hdmr hroom hap
  · exact storeForm_apart k s op es rfl hstands hdmr hrec hap

/-- Settles O20: a reduction, and an atomic with N = 1, is a store form of steps, none of which is written apart. -/
theorem postedSteps : Obligations.PostedSteps := by
  refine ⟨?red, ?atom⟩
  case red =>
    intro i kind d m o c hrule s k e ty w es op rs hissue hkind hty hpair hstands hdmr hroom
    rw [hrule.exec_eq_redM, hissue.redM_eq hkind hty hpair]
    refine congrArg _ (storeForm_posted (f := .red) k s op es (if_neg hrule.kind_ne_store) rfl hstands hdmr hroom (.inr ?_))
    simp [Form.steps, apart_steps]
  case atom =>
    intro i kind d m o c hrule s k e ty w es op rs hissue hkind hty hd hstands hdmr hroom
    rw [hrule.exec_eq_atomM, hissue.atomM_eq hkind hty hd]
    refine congrArg _ (storeForm_posted (f := .post) k s op es (if_neg hrule.kind_ne_store) rfl hstands hdmr hroom (.inr ?_))
    simp [Form.steps, apart_steps]

theorem stepElems_lanes (k : Iss) (kind : OpKind) (w : Bool) (d : Sel) (m : BitVec 5) (o : Sel) (e : Nat) :
    (stepElems k kind w d m o e).map Elem.lane = k.th.lanes k.act :=
  mElem_lanes k .any m o e 0 _ _ _

/-- Settles O21: an atomic that returns the old value is the atomic form of its lanes' steps. -/
theorem atomics : Obligations.Atomics := by
  intro i kind d m o c hrule s k e ty w es op rs hissue hkind hty hd hstands hdmr
  rw [hrule.exec_eq_atomM, hissue.atomM_eq hkind hty hd]
  refine ⟨fun hall s' hturn => congrArg _ ?_, fun hdet => atomTurn_free k.team k.sec s _ hdet, fun x y r hrec hdet hops => congrArg _ ?_⟩
  · exact atomForm_stands hissue.issuer w d op es _ rfl (stepElems_lanes k kind w d m o e) hstands hdmr hall hturn
  · exact atomForm_first k s w d op es _ hstands hdmr hrec hdet hops

/-! ## Values of a step, and lupd -/

/-- Below 2^n the unsigned operand is the value itself (R223). -/
theorem intOpnd_unsigned {n v : Nat} (h : v < 2 ^ n) : intOpnd false n v = v := by
  simp [intOpnd, Nat.mod_eq_of_lt h]

/-- The order of two operands under a TYPE's sign (R261). -/
theorem intOpnd_le_iff {ty : BitVec 5} {n a b : Nat} (hs : tySigned ty = decide (ty = 2 ∨ ty = 3)) (ha : a < 2 ^ n) (hb : b < 2 ^ n) :
    intOpnd (tySigned ty) n a ≤ intOpnd (tySigned ty) n b ↔ if ty = 2 ∨ ty = 3 then sext a n ≤ sext b n else (a : Int) ≤ b := by
  by_cases h : ty = 2 ∨ ty = 3
  · rw [hs, decide_eq_true h, if_pos h]
    exact Iff.rfl
  · rw [hs, decide_eq_false h, if_neg h, intOpnd_unsigned ha, intOpnd_unsigned hb]

/-- Settles O22: the value of a step by its kind; of a record by its guards; and lupd is a store form of 16-byte steps. -/
theorem stepValuesAndUpdates : Obligations.StepValuesAndUpdates := by
  refine ⟨⟨?values, ?records⟩, ?lupd⟩
  case values =>
    intro ty rd n old data swap hty hold hdata
    obtain ⟨hint, hsigned⟩ : ¬(ty = 0xA ∨ ty = 0xB) ∧ tySigned ty = decide (ty = 2 ∨ ty = 3) := by
      obtain ⟨rfl | rfl, -⟩ | ⟨rfl | rfl, -⟩ := hty <;> decide
    exact ⟨if_neg hint, congrArg some (ite_congr (propext (intOpnd_le_iff hsigned hold hdata)) (fun _ => rfl) (fun _ => rfl)),
      congrArg some (ite_congr (propext (intOpnd_le_iff hsigned hdata hold)) (fun _ => rfl) (fun _ => rfl)), rfl, rfl, rfl, rfl, rfl⟩
  case records =>
    intro old delta hyp h
    unfold latentNew
    by_cases hz : delta % 2 ^ 31 = 0
    · exact if_pos hz
    · exact (if_neg hz).trans (if_pos (h.resolve_left hz))
  case lupd =>
    intro d a b s k base es op rs hissue hstands hdmr hroom
    refine (hissue.guardedForm_eq (u := fun _ => ⟨true, [], [(d, 1), (a, 2), (b, 1)]⟩) (fun _ => true) _ _ rfl).trans (congrArg _ ?_)
    refine storeForm_posted (f := .red) k s op es rfl rfl hstands hdmr hroom (.inr ?_)
    simp [Form.steps, apart_steps]

/-! ## Shaped accesses -/

section

variable {s s' : State} {k : Iss} {i : Instr} {n isLoad : Bool} {d v : Sel} {m : BitVec 5} {r : Shape}

/-- An issued shaped access whose record is read and legal goes on to its elements (R165, R260). -/
theorem AtIssue.shaped_eq {eff : Iss → State → Shape → Nat → State}
    (h : AtIssue s k i (if isLoad then ⟨n, [wsel (decide (r.esize = 8)) d], [(v, r.rank)]⟩ else ⟨true, [], [wsel (decide (r.esize = 8)) d, (v, r.rank)]⟩))
    (halign : (k.th.kpair (2 * m.toNat)).toNat % 128 = 0) (hread : recordRead k s (k.th.kpair (2 * m.toNat)).toNat = .ok (r, s'))
    (hok : r.ok false false = true)
    (hpair : (if isLoad then pairDst (decide (r.esize = 8)) d else pairSrc (decide (r.esize = 8)) d) = true) :
    shaped i n d isLoad m v s eff = .next (eff k s' r (k.th.kpair (2 * m.toNat)).toNat) := by
  refine (guardedForm_next i (fun _ => true) (fun _ => ⟨n, [], []⟩) _ _ h.issuer h.formed h.active rfl ?_).trans (congrArg _ ?_)
  · simp [regFault, least]
  · simp only [halign, hread, hok, hpair, h.usable]
    rfl

/-- With every lane inside the tensor the elements are those of the active lanes, and none is left out or faults (R165). -/
theorem shapeLanes_inside (rec : Nat) (data : Nat → DWord) (h : ∀ l ∈ k.th.lanes k.act, outside k r v l = none) :
    shapeLanes k r v rec data =
      ((k.th.lanes k.act).map (fun l => { lane := l, a := shapeAddr k r v l, bad := false, data := data l, data2 := 0 }), [], []) := by
  unfold shapeLanes
  simp only [Prod.mk.injEq]
  refine ⟨?_, ?_, ?_⟩
  · rw [← List.filterMap_eq_map]
    refine filterMap_congr_of_mem (fun l hl => ?_)
    rw [h l hl]
    rfl
  · split
    · rw [List.filter_eq_nil_iff]
      intro l hl
      rw [h l hl]
      exact Bool.false_ne_true
    · rfl
  · split
    · rfl
    · rw [List.filterMap_eq_nil_iff]
      intro l hl
      rw [h l hl]
      rfl

end

/-- Settles O23: behind its record, ldt is a load form and stt a store form of the permuted addresses. -/
theorem shapedAccess : Obligations.ShapedAccess := by
  intro d m v h s s' k r a w halign hread hok hinside
  refine ⟨?ldt, ?stt⟩
  case ldt =>
    intro n es rs ty hissue hpair hstands
    change execLdt n d m v h s = _
    refine (AtIssue.shaped_eq (isLoad := true) (v := v) hissue halign hread hok hpair).trans (congrArg _ ?_)
    simp only [shapeLanes_inside _ _ hinside]
    refine (loadForm_stands hissue.issuer s' n w d ty r.esize es _ (by simp [es, Function.comp_def]) hstands).trans ?_
    simp only [Bool.or_eq_true, beq_iff_eq]
    rfl
  case stt =>
    intro es op rs hissue hpair hstands hdmr hroom
    have hform : exec (.stt d m v h) s = .next (storeForm k s' op es []) := by
      change execStt d m v h s = _
      refine (AtIssue.shaped_eq (isLoad := false) (n := true) (v := v) hissue halign hread hok hpair).trans (congrArg _ ?_)
      simp only [shapeLanes_inside _ _ hinside]
      rfl
    refine ⟨fun hap => hform.trans (congrArg _ ?_), fun x y t hrec hap => hform.trans (congrArg _ ?_)⟩
    · exact storeForm_posted (f := .store) k s' op es rfl rfl hstands hdmr hroom hap
    · exact storeForm_apart k s' op es rfl hstands hdmr hrec hap

end Sys2Proof.Claims
end

section
/-!
PROOFS. What a write leaves unchanged: the byte of a home, the bytes of a team's scratchpad and its barriers, the scratchpads under a store.
-/

namespace Sys2Proof.Machine

/-! ## One byte at its home -/

/-- A byte of physical memory. -/
def State.memByte (s : State) (a : Nat) : Byte := tget 0 s.mem a

/-- A byte as its home holds it: of a host line with a slice copy, the copy's (R119). -/
def State.homeByte (s : State) (a : Nat) : Byte :=
  match (if isHost a then s.sliceLine? (a / 128 * 128) else none) with
  | some x => x.data.getD (a % 128) 0
  | none => s.memByte a

theorem isHost_line (a : Nat) : isHost (a / 128 * 128) = isHost a := by
  have h : a / 128 * 128 / 2 ^ 48 = a / 2 ^ 48 := by
    simp only [Nat.reducePow]
    omega
  rw [isHost, isHost, h]

theorem physRead_one (s : State) (a : Nat) : s.physRead a 1 = [s.memByte a] := rfl

/-- Reading one byte at its home reads the home's byte. -/
theorem homeRead_one (s : State) (a : Nat) : s.homeRead a 1 = [s.homeByte a] := by
  have hoff : a - a / 128 * 128 = a % 128 := by omega
  unfold State.homeRead State.homeLine? State.homeByte
  simp only [isHost_line]
  cases hh : isHost a with
  | false =>
    have hpos : a / 128 * 128 + a % 128 = a := by omega
    simp [hoff, State.physRead, readBytes, State.memByte, hpos, Nat.mod_lt]
  | true =>
    cases hl : s.sliceLine? (a / 128 * 128) with
    | none => rfl
    | some x => simp [hoff]

/-- A byte at its home is as before where the memory byte and the line's slice copy are. -/
theorem homeByte_congr {s t : State} {a : Nat} (hm : t.memByte a = s.memByte a)
    (hl : t.sliceLine? (a / 128 * 128) = s.sliceLine? (a / 128 * 128)) : t.homeByte a = s.homeByte a := by
  unfold State.homeByte
  rw [hm, hl]

/-- A host byte whose line a slice holds is the copy's. -/
theorem homeByte_held {s : State} {a : Nat} {x : SliceLine} (hh : isHost a = true) (hl : s.sliceLine? (a / 128 * 128) = some x) :
    s.homeByte a = x.data.getD (a % 128) 0 := by
  unfold State.homeByte
  rw [hh, if_pos rfl, hl]

/-- A byte whose line no slice holds is that of memory. -/
theorem homeByte_away {s : State} {a : Nat} (hl : isHost a = false ∨ s.sliceLine? (a / 128 * 128) = none) : s.homeByte a = s.memByte a := by
  unfold State.homeByte
  obtain hh | hl := hl
  · rw [hh]
    rfl
  · rw [hl, ite_self]

theorem memByte_physWrite (s : State) (p : Nat) (bs : List Byte) (a : Nat) (h : a < p ∨ p + bs.length ≤ a) :
    (s.physWrite p bs).memByte a = s.memByte a :=
  physWrite_frame s p bs a h

/-! ## Lines of a slice -/

/-- A slice copy is as before where the change of its slice leaves its line's entry. -/
theorem sliceLine?_modSlice_other (s : State) (d i L : Nat) {f : Slice → Slice}
    (hf : ∀ y : Slice, (f y).lines.find? (fun x => x.1 == L) = y.lines.find? (fun x => x.1 == L)) :
    (s.modSlice d i f).sliceLine? L = s.sliceLine? L := by
  unfold State.sliceLine?
  rw [sliceAt_modSlice]
  split
  · next h =>
    rw [hf]
    simp only [State.sliceAt, h]
  · rfl

/-- The slice copy of a line after a change of its own slice. -/
theorem sliceLine?_modSlice_home (s : State) (L : Nat) (f : Slice → Slice) :
    (s.modSlice (lineHome L).1 (lineHome L).2 f).sliceLine? L =
      ((f (s.sliceAt (lineHome L).1 (lineHome L).2)).lines.find? (fun x => x.1 == L)).map Prod.snd := by
  unfold State.sliceLine?
  rw [sliceAt_modSlice, if_pos rfl]

/-- A change of one line's entries leaves those of another. -/
theorem find?_map_line (l : List (Nat × SliceLine)) {line L : Nat} (hne : L ≠ line) (g : SliceLine → SliceLine) :
    (l.map (fun x => if x.1 = line then (x.1, g x.2) else x)).find? (fun x => x.1 == L) = l.find? (fun x => x.1 == L) := by
  induction l with
  | nil => rfl
  | cons x r ih =>
    by_cases hx : x.1 = line
    · have hxL : (x.1 == L) = false := by simpa [hx] using hne.symm
      simp only [List.map_cons, hx, if_true, List.find?_cons] at ih ⊢
      rw [hx] at hxL
      simp only [hxL, ih]
    · simp only [List.map_cons, hx, if_false, List.find?_cons]
      split
      · rfl
      · exact ih

/-- A change of the entries of the line that is looked for. -/
theorem find?_map_line_same (l : List (Nat × SliceLine)) (line : Nat) (g : SliceLine → SliceLine) :
    ((l.map (fun x => if x.1 = line then (x.1, g x.2) else x)).find? (fun x => x.1 == line)).map Prod.snd =
      ((l.find? (fun x => x.1 == line)).map Prod.snd).map g := by
  induction l with
  | nil => rfl
  | cons x r ih =>
    by_cases hx : x.1 = line
    · simp [hx]
    · have hx' : (x.1 == line) = false := by simpa using hx
      simp only [List.map_cons, hx, if_false, List.find?_cons, hx']
      exact ih

theorem find?_filter_line (l : List (Nat × SliceLine)) {line L : Nat} (hne : L ≠ line) :
    (l.filter (fun x => x.1 != line)).find? (fun x => x.1 == L) = l.find? (fun x => x.1 == L) := by
  induction l with
  | nil => rfl
  | cons x r ih =>
    by_cases hx : x.1 = line
    · have hxL : (x.1 == L) = false := by simpa [hx] using hne.symm
      simp [ih, hx, hne.symm]
    · simp only [List.filter_cons, bne_iff_ne, ne_eq, hx, not_false_eq_true, if_true, List.find?_cons]
      split
      · rfl
      · exact ih

/-- An entry that is written is found; the others stay. -/
theorem find?_tset_line (l : List (Nat × SliceLine)) (line L : Nat) {v : SliceLine} (hv : v ≠ ⟨[], []⟩) :
    ((tset ⟨[], []⟩ l line v).find? (fun x => x.1 == L)).map Prod.snd =
      if L = line then some v else (l.find? (fun x => x.1 == L)).map Prod.snd := by
  induction l with
  | nil =>
    by_cases h : L = line
    · simp [tset, hv, h]
    · have h' : line ≠ L := fun e => h e.symm
      simp [tset, hv, h, h']
  | cons x r ih =>
    obtain ⟨k, u⟩ := x
    simp only [tset, hv, if_false]
    split
    · by_cases h : L = line
      · simp [h]
      · have h' : line ≠ L := fun e => h e.symm
        simp [h, h']
    · split
      · next hk =>
        by_cases h : L = line
        · simp [h]
        · have h' : line ≠ L := fun e => h e.symm
          have h'' : k ≠ L := hk ▸ h'
          simp [h, h', h'']
      · next hlt hk =>
        by_cases h : k = L
        · have hL : L ≠ line := fun e => hk (e ▸ h.symm)
          simp [h, hL]
        · simpa [List.find?_cons, h] using ih

/-! ## Eviction -/

/-- Writing a line back changes memory inside the line alone (R119). -/
theorem memByte_writeBack (s : State) (line a : Nat) (h : a < line ∨ line + 128 ≤ a) : (s.writeBack line).memByte a = s.memByte a := by
  unfold State.writeBack
  split
  · rfl
  · next x _ =>
    have walk (ns : List Nat) (hns : ∀ i ∈ ns, i < 128) (s : State) :
        (ns.foldl (fun s i => if x.dirty.getD i false then s.physWrite (line + i) [x.data.getD i 0] else s) s).memByte a = s.memByte a := by
      induction ns generalizing s with
      | nil => rfl
      | cons i r ih =>
        have hi := hns i List.mem_cons_self
        rw [List.foldl_cons, ih (fun j hj => hns j (List.mem_cons_of_mem _ hj))]
        split
        · exact memByte_physWrite s _ _ a (by simp only [List.length_singleton]; omega)
        · rfl
    exact walk _ (fun i hi => List.mem_range.1 hi) s

/-- Writing a line back leaves the slice copies of other lines. -/
theorem sliceLine?_writeBack_other (s : State) {line L : Nat} (hne : L ≠ line) : (s.writeBack line).sliceLine? L = s.sliceLine? L := by
  unfold State.writeBack
  split
  · rfl
  · next x _ =>
    have hslices (ns : List Nat) (s : State) :
        (ns.foldl (fun s i => if x.dirty.getD i false then s.physWrite (line + i) [x.data.getD i 0] else s) s).slices = s.slices := by
      induction ns generalizing s with
      | nil => rfl
      | cons i r ih =>
        rw [List.foldl_cons, ih]
        split <;> rfl
    refine (sliceLine?_modSlice_other _ _ _ L (fun y => ?_)).trans ?_
    · exact find?_map_line y.lines hne (fun u => { u with dirty := List.replicate 128 false })
    · simp only [State.sliceLine?, State.sliceAt, hslices]

theorem sliceLine?_dropSlice_other (s : State) {line L : Nat} (hne : L ≠ line) : (s.dropSlice line).sliceLine? L = s.sliceLine? L :=
  sliceLine?_modSlice_other s _ _ L (fun y => find?_filter_line y.lines hne)

/-- The line that a slice evicts when it takes another: its first, when it is full (R94). -/
def evicted (s : State) (line : Nat) : Option (Nat × SliceLine) :=
  if 32768 ≤ (s.sliceAt (lineHome line).1 (lineHome line).2).lines.length then (s.sliceAt (lineHome line).1 (lineHome line).2).lines.head? else none

/-- A slice that takes a line leaves the memory outside the line that it evicts. -/
theorem memByte_takeSlice (s : State) (line : Nat) (data : List Byte) (a : Nat)
    (h : ∀ l ∈ evicted s line, a < l.1 ∨ l.1 + 128 ≤ a) : (s.takeSlice line data).memByte a = s.memByte a := by
  unfold evicted at h
  unfold State.takeSlice
  dsimp only
  split
  · next l r hl =>
    rw [hl] at h
    split
    · next hfull =>
      rw [hl] at hfull
      refine memByte_writeBack s l.1 a (h l ?_)
      rw [if_pos hfull]
      rfl
    · rfl
  · rfl

/-- A slice that takes a line holds it. -/
theorem sliceLine?_takeSlice_same (s : State) (line : Nat) (data : List Byte) :
    (s.takeSlice line data).sliceLine? line = some ⟨data, List.replicate 128 false⟩ := by
  have hv : (⟨data, List.replicate 128 false⟩ : SliceLine) ≠ ⟨[], []⟩ := by simp [List.replicate]
  unfold State.takeSlice
  dsimp only
  rw [sliceLine?_modSlice_home, find?_tset_line _ _ _ hv, if_pos rfl]

/-- A slice that takes a line keeps the others, but the one that it evicts. -/
theorem sliceLine?_takeSlice_other (s : State) (line : Nat) (data : List Byte) {L : Nat} (hL : L ≠ line) (h : ∀ l ∈ evicted s line, L ≠ l.1) :
    (s.takeSlice line data).sliceLine? L = s.sliceLine? L := by
  have hv : (⟨data, List.replicate 128 false⟩ : SliceLine) ≠ ⟨[], []⟩ := by simp [List.replicate]
  have take (u : State) (d i : Nat) : (u.modSlice d i (fun x =>
      { x with lines := tset ⟨[], []⟩ x.lines line ⟨data, List.replicate 128 false⟩ })).sliceLine? L = u.sliceLine? L := by
    unfold State.sliceLine?
    rw [sliceAt_modSlice]
    split
    · next hd =>
      simp only
      rw [find?_tset_line _ _ _ hv, if_neg hL]
      simp only [State.sliceAt, hd]
    · rfl
  unfold evicted at h
  unfold State.takeSlice
  dsimp only
  rw [take]
  split
  · next l r hl =>
    rw [hl] at h
    split
    · next hfull =>
      rw [hl] at hfull
      have hne : L ≠ l.1 := h l (by rw [if_pos hfull]; rfl)
      rw [sliceLine?_dropSlice_other _ hne, sliceLine?_writeBack_other _ hne]
    · rfl
  · rfl

/-! ## A byte written at its home -/

/-- A byte of a host line that a slice holds is written in the copy, and leaves the other bytes of every home (R119, R355). -/
theorem homeByte_put_held (s : State) (pa : Nat) (b : Byte) (a : Nat) (hne : a ≠ pa) (hheld : (s.sliceLine? (pa / 128 * 128)).isSome) :
    (s.modSlice (lineHome (pa / 128 * 128)).1 (lineHome (pa / 128 * 128)).2 (fun x => { x with lines := x.lines.map (fun l =>
      if l.1 = pa / 128 * 128 then (l.1, ⟨l.2.data.set (pa - pa / 128 * 128) b, l.2.dirty.set (pa - pa / 128 * 128) true⟩) else l) })).homeByte a
      = s.homeByte a := by
  by_cases hL : a / 128 * 128 = pa / 128 * 128
  · obtain ⟨x, hx⟩ := Option.isSome_iff_exists.1 hheld
    cases hh : isHost a with
    | false => rw [homeByte_away (.inl hh), homeByte_away (.inl hh)]; rfl
    | true =>
      have hput := sliceLine?_modSlice_home s (pa / 128 * 128) (fun y => { y with lines := y.lines.map (fun l =>
        if l.1 = pa / 128 * 128 then (l.1, ⟨l.2.data.set (pa - pa / 128 * 128) b, l.2.dirty.set (pa - pa / 128 * 128) true⟩) else l) })
      rw [find?_map_line_same _ _ (fun u => ⟨u.data.set (pa - pa / 128 * 128) b, u.dirty.set (pa - pa / 128 * 128) true⟩)] at hput
      have hget : ((s.sliceAt (lineHome (pa / 128 * 128)).1 (lineHome (pa / 128 * 128)).2).lines.find? (fun x => x.1 == pa / 128 * 128)).map
          Prod.snd = some x := hx
      rw [hget, ← hL] at hput
      rw [← hL] at hx
      rw [homeByte_held hh hx]
      refine (homeByte_held hh (by simpa only [hL, Option.map_some] using hput)).trans ?_
      have hidx : pa - pa / 128 * 128 ≠ a % 128 := by omega
      simp [List.getD_eq_getElem?_getD, List.getElem?_set_ne hidx]
  · refine homeByte_congr rfl (sliceLine?_modSlice_other s _ _ _ (fun y => ?_))
    exact find?_map_line y.lines hL (fun u => ⟨u.data.set (pa - pa / 128 * 128) b, u.dirty.set (pa - pa / 128 * 128) true⟩)

/-- A byte performed at its home leaves every other byte that is not of a line evicted for it (R94, R119). -/
theorem homeByte_homePut (s : State) (pa : Nat) (b : Byte) (a : Nat) (hne : a ≠ pa)
    (hevict : isHost pa = true → s.sliceLine? (pa / 128 * 128) = none → ∀ l ∈ evicted s (pa / 128 * 128), a < l.1 ∨ l.1 + 128 ≤ a) :
    (s.homePut pa b).homeByte a = s.homeByte a := by
  unfold State.homePut
  cases hh : isHost pa with
  | false =>
    simp only [Bool.false_eq_true, if_false]
    exact homeByte_congr (memByte_physWrite s pa [b] a (by simp only [List.length_singleton]; omega)) rfl
  | true =>
    simp only [if_true]
    cases hl : s.sliceLine? (pa / 128 * 128) with
    | some x => exact homeByte_put_held s pa b a hne (by rw [hl]; rfl)
    | none =>
      have hout := hevict hh hl
      have hsame (L : Nat) (hL : a / 128 * 128 = L) : ∀ l ∈ evicted s (pa / 128 * 128), L ≠ l.1 := by
        intro l hmem
        have := hout l hmem
        omega
      have hmem := memByte_takeSlice s (pa / 128 * 128) (s.physRead (pa / 128 * 128) 128) a hout
      have hself := sliceLine?_takeSlice_same s (pa / 128 * 128) (s.physRead (pa / 128 * 128) 128)
      refine (homeByte_put_held _ pa b a hne (by rw [hself]; rfl)).trans ?_
      by_cases hL : a / 128 * 128 = pa / 128 * 128
      · have hha : isHost a = true := by rw [← isHost_line a, hL, isHost_line, hh]
        refine (homeByte_held hha (x := ⟨s.physRead (pa / 128 * 128) 128, List.replicate 128 false⟩) ?_).trans ?_
        · rw [hL]
          exact hself
        · rw [homeByte_away (.inr (by rw [hL, hl]))]
          have hpos : pa / 128 * 128 + a % 128 = a := by omega
          simp [State.physRead, readBytes, State.memByte, hpos, Nat.mod_lt]
      · exact homeByte_congr hmem (sliceLine?_takeSlice_other s _ _ hL (hsame _ rfl))

/-- A line stays held by its slice when a byte of a host line that a slice holds is written, or one of device memory. -/
theorem sliceLine?_homePut_isSome (s : State) (pa : Nat) (b : Byte) (hheld : isHost pa = true → (s.sliceLine? (pa / 128 * 128)).isSome)
    (L : Nat) (hL : (s.sliceLine? L).isSome) : ((s.homePut pa b).sliceLine? L).isSome := by
  unfold State.homePut
  cases hh : isHost pa with
  | false => exact hL
  | true =>
    obtain ⟨x, hx⟩ := Option.isSome_iff_exists.1 (hheld hh)
    simp only [if_true, hx]
    by_cases hne : L = pa / 128 * 128
    · rw [hne, sliceLine?_modSlice_home]
      rw [find?_map_line_same _ _ (fun u => ⟨u.data.set (pa - pa / 128 * 128) b, u.dirty.set (pa - pa / 128 * 128) true⟩)]
      rw [Option.isSome_map]
      exact hne ▸ hL
    · refine Eq.trans (congrArg Option.isSome (sliceLine?_modSlice_other s _ _ L (fun y => ?_))) hL
      exact find?_map_line y.lines hne (fun u => ⟨u.data.set (pa - pa / 128 * 128) b, u.dirty.set (pa - pa / 128 * 128) true⟩)

/-- Bytes performed at homes whose host lines are held leave the byte of every other home. -/
theorem homeByte_homeWrite (s : State) (bs : List (Nat × Byte)) (a : Nat)
    (h : ∀ b ∈ bs, b.1 ≠ a ∧ (isHost b.1 = true → (s.sliceLine? (b.1 / 128 * 128)).isSome)) : (s.homeWrite bs).homeByte a = s.homeByte a := by
  unfold State.homeWrite
  induction bs generalizing s with
  | nil => rfl
  | cons b r ih =>
    obtain ⟨hne, hheld⟩ := h b List.mem_cons_self
    rw [List.foldl_cons, ih]
    · refine homeByte_homePut s b.1 b.2 a (Ne.symm hne) (fun hh hl => ?_)
      have := hheld hh
      rw [hl] at this
      cases this
    · intro c hc
      obtain ⟨hcne, hcheld⟩ := h c (List.mem_cons_of_mem _ hc)
      exact ⟨hcne, fun hh => sliceLine?_homePut_isSome s b.1 b.2 hheld _ (hcheld hh)⟩

/-! ## An element written to a team's scratchpad -/

/-- A little-endian number without its lowest bytes is that of the others. -/
theorem ofBytes_div (l : List Byte) (n : Nat) : ofBytes l / 256 ^ n = ofBytes (l.drop n) := by
  induction n generalizing l with
  | zero => simp
  | succ n ih =>
    cases l with
    | nil => simp [ofBytes]
    | cons b r =>
      have hb : b.toNat < 256 := b.isLt
      rw [Nat.pow_succ', ← Nat.div_div_eq_div_mul, List.drop_succ_cons, ← ih]
      congr 1
      simp only [ofBytes]
      omega

/-- Byte 13 of a barrier holds its INIT bit (R184). -/
theorem tbar_init (t : Team) (B : Nat) : (t.tbar B).init = ((tget 0 t.scratch (B + 13)).toNat / 16 % 2 == 1) := by
  have hv : ofBytes (readBytes t.scratch B 16) / 2 ^ 108 % 2 ^ 1 = (tget 0 t.scratch (B + 13)).toNat / 16 % 2 := by
    have hpow : (2 : Nat) ^ 108 = 256 ^ 13 * 16 := by decide
    rw [hpow, ← Nat.div_div_eq_div_mul, ofBytes_div]
    simp only [readBytes, ← List.map_drop]
    rw [show (List.range 16).drop 13 = [13, 14, 15] from rfl]
    simp only [List.map_cons, List.map_nil, ofBytes]
    omega
  exact congrArg (· == 1) hv

theorem setTbar_tid (t : Team) (off : Nat) (b : TBar) : (t.setTbar off b).tid = t.tid := by
  simp only [Team.setTbar]

theorem scratch_setTbar_other (t : Team) (off : Nat) (b : TBar) (a : Nat) (h : a < off ∨ off + 16 ≤ a) :
    tget 0 (t.setTbar off b).scratch a = tget 0 t.scratch a := by
  simp only [Team.setTbar, writeNat]
  exact writeBytes_other t.scratch off _ a (by rw [toBytes_length]; exact h)

/-- A word written at a count of a barrier leaves its INIT bit and what lies outside its bytes and the barrier. -/
theorem scratch_putWord_other (t : Team) (off : Nat) (bs : List Byte) (a : Nat) (hlen : bs.length ≤ 4) (hout : a < off ∨ off + bs.length ≤ a)
    (hbar : off % 16 < 8 → (t.tbar (off / 16 * 16)).init = false ∨ a < off / 16 * 16 ∨ off / 16 * 16 + 16 ≤ a) :
    tget 0 (t.putWord off bs).scratch a = tget 0 t.scratch a := by
  have hown := writeBytes_other t.scratch off bs a hout
  unfold Team.putWord
  dsimp only
  split
  · next hinit =>
    obtain ⟨hcount, hinit⟩ := hinit
    have hkeep : (t.tbar (off / 16 * 16)).init = true := by
      rw [tbar_init] at hinit ⊢
      rwa [writeBytes_other t.scratch off bs (off / 16 * 16 + 13) (by omega)] at hinit
    have hfar : a < off / 16 * 16 ∨ off / 16 * 16 + 16 ≤ a := by
      obtain hfalse | hfar := hbar hcount
      · rw [hkeep] at hfalse
        cases hfalse
      · exact hfar
    split
    · exact (scratch_setTbar_other _ _ _ a hfar).trans hown
    · exact hown
  · exact hown

/-- An element written to a scratchpad leaves what lies outside its bytes and the barriers whose counts it writes. -/
theorem scratch_putElem_other (t : Team) (off : Nat) (bs : List Byte) (a : Nat) (hlen : bs.length ≤ 8) (hout : a < off ∨ off + bs.length ≤ a)
    (hbar : ∀ c, c = off ∨ (c = off + 4 ∧ 4 < bs.length) → (t.tbar (c / 16 * 16)).init = false ∨ a < c / 16 * 16 ∨ c / 16 * 16 + 16 ≤ a) :
    tget 0 (t.putElem off bs).scratch a = tget 0 t.scratch a := by
  unfold Team.putElem
  split
  · next hshort => exact scratch_putWord_other t off bs a hshort hout (fun _ => hbar off (.inl rfl))
  · next hlong =>
    have htake : (bs.take 4).length = 4 := by rw [List.length_take]; omega
    have hdrop : (bs.drop 4).length = bs.length - 4 := List.length_drop
    have hfirst (x : Nat) (hx : x < off ∨ off + 4 ≤ x)
        (hb : off % 16 < 8 → (t.tbar (off / 16 * 16)).init = false ∨ x < off / 16 * 16 ∨ off / 16 * 16 + 16 ≤ x) :
        tget 0 (t.putWord off (bs.take 4)).scratch x = tget 0 t.scratch x :=
      scratch_putWord_other t off _ x (by omega) (by omega) hb
    have hbar₁ := hbar off (.inl rfl)
    have hbar₂ := hbar (off + 4) (.inr ⟨rfl, by omega⟩)
    rw [scratch_putWord_other _ (off + 4) _ a (by omega) (by omega), hfirst a (by omega) (fun _ => hbar₁)]
    intro hcount
    obtain hinit | hfar := hbar₂
    · by_cases hsame : off / 16 * 16 = (off + 4) / 16 * 16
      · rw [hsame] at hbar₁
        left
        rw [tbar_init] at hinit ⊢
        rw [hfirst _ (by omega) (fun _ => .inl (by rw [hsame, tbar_init]; exact hinit))]
        exact hinit
      · left
        rw [tbar_init] at hinit ⊢
        rw [hfirst _ (by omega) (fun h => .inr (by omega))]
        exact hinit
    · exact .inr hfar

theorem putWord_tid (t : Team) (off : Nat) (bs : List Byte) : (t.putWord off bs).tid = t.tid := by
  unfold Team.putWord
  dsimp only
  split
  · split
    · exact setTbar_tid _ _ _
    · rfl
  · rfl

theorem putElem_tid (t : Team) (off : Nat) (bs : List Byte) : (t.putElem off bs).tid = t.tid := by
  unfold Team.putElem
  split
  · exact putWord_tid t off bs
  · rw [putWord_tid, putWord_tid]

/-! ## The scratchpads under a store -/

/-- A byte of a team's scratchpad, where the state holds the team. -/
def State.teamByte (s : State) (tid a : Nat) : Option Byte := (s.team? tid).map (fun t => tget 0 t.scratch a)

theorem spotRead_team_one (s : State) (tid a : Nat) : s.spotRead (.team tid a) 1 = (s.teamByte tid a).toList := by
  unfold State.spotRead State.teamByte
  dsimp only
  cases s.team? tid <;> rfl

theorem spotRead_die_one (s : State) (d a : Nat) : s.spotRead (.die d a) 1 = [tget 0 (s.dieAt d).scratch a] := rfl

/-- What a near element of a store leaves: the homes, and of the scratchpads all but its cells, or its own bytes at a die. -/
structure NearFrame (near : List LaneOp) (size : Nat) (t s : State) : Prop where
  mem    : t.mem = s.mem
  slices : t.slices = s.slices
  team   : ∀ tid a, (∀ x ∈ near, ∀ off, x.spot = some (.team tid off) → a < off / 16 * 16 ∨ (off + size + 15) / 16 * 16 ≤ a) →
    t.teamByte tid a = s.teamByte tid a
  die    : ∀ d a, (∀ x ∈ near, ∀ off, x.spot = some (.die d off) → a < off ∨ off + size ≤ a) →
    tget 0 (t.dieAt d).scratch a = tget 0 (s.dieAt d).scratch a

theorem SameBytes.nearFrame {t s : State} (h : SameBytes t s) (near : List LaneOp) (size : Nat) : NearFrame near size t s := by
  refine ⟨h.mem, h.slices, fun tid a _ => ?_, fun d a _ => by simp only [State.dieAt, h.dies]⟩
  have hscratch := congrArg (Option.map (fun x => tget 0 x a)) (h.scratch tid)
  rw [Option.map_map, Option.map_map] at hscratch
  exact hscratch

theorem NearFrame.trans {near : List LaneOp} {size : Nat} {t u s : State} (h : NearFrame near size t u) (g : NearFrame near size u s) :
    NearFrame near size t s :=
  ⟨h.mem.trans g.mem, h.slices.trans g.slices, fun tid a hx => (h.team tid a hx).trans (g.team tid a hx),
    fun d a hx => (h.die d a hx).trans (g.die d a hx)⟩

theorem NearFrame.mono {near more : List LaneOp} {size : Nat} {t s : State} (h : NearFrame near size t s) (hsub : ∀ x ∈ near, x ∈ more) :
    NearFrame more size t s :=
  ⟨h.mem, h.slices, fun tid a hx => h.team tid a (fun x hm => hx x (hsub x hm)), fun d a hx => h.die d a (fun x hm => hx x (hsub x hm))⟩

/-- One lane's store (R257, R353). -/
theorem storeLane_nearFrame (s : State) (k : Iss) (op : MemOp) (x : LaneOp) (hpos : 0 < op.size) (hsize : op.size ≤ 8) :
    NearFrame [x] op.size (s.storeLane k op x) s := by
  unfold State.storeLane
  split
  · refine SameBytes.nearFrame ?_ _ _
    exact SameBytes.of_teams rfl rfl rfl rfl
  · next sp hphys hspot =>
    cases sp with
    | phys pas => exact absurd hspot (by simpa using hphys pas)
    | team tid off =>
      refine ⟨rfl, rfl, fun y a hx => ?_, fun _ _ _ => rfl⟩
      unfold State.spotWrite State.teamByte
      rw [team?_modTeam s tid y _ (fun t => putElem_tid t _ _), Option.map_map]
      cases hy : s.team? y with
      | none => rfl
      | some t =>
        have hyt := team?_tid hy
        simp only [Option.map_some, Function.comp_apply, Option.some.injEq]
        split
        · next htid =>
          have hfar := hx x List.mem_cons_self off (by rw [hspot, ← htid, hyt])
          refine scratch_putElem_other t off _ a (by rw [toBytes_length]; exact hsize) (by rw [toBytes_length]; omega) (fun c hc => .inr ?_)
          rw [toBytes_length] at hc
          omega
        · rfl
    | die d off =>
      unfold State.spotWrite
      dsimp only
      split
      · refine ⟨rfl, rfl, fun _ _ _ => rfl, fun y a _ => ?_⟩
        rw [dieAt_modDie]
        split
        · next h => rw [h]
        · rfl
      · refine ⟨rfl, rfl, fun _ _ _ => rfl, fun y a hx => ?_⟩
        rw [dieAt_modDie]
        split
        · next h =>
          have hfar := hx x List.mem_cons_self off (by rw [hspot, h])
          rw [h]
          exact writeBytes_other _ off _ a (by rw [toBytes_length]; exact hfar)
        · rfl
  · exact (SameBytes.refl s).nearFrame _ _

/-- The near elements of a store, in order. -/
theorem storeLanes_nearFrame (s : State) (k : Iss) (op : MemOp) (near : List LaneOp) (hpos : 0 < op.size) (hsize : op.size ≤ 8) :
    NearFrame near op.size (near.foldl (fun s x => s.storeLane k op x) s) s := by
  induction near generalizing s with
  | nil => exact (SameBytes.refl s).nearFrame _ _
  | cons x r ih =>
    rw [List.foldl_cons]
    refine ((ih (s.storeLane k op x)).mono (fun _ h => List.mem_cons_of_mem _ h)).trans ?_
    exact (storeLane_nearFrame s k op x hpos hsize).mono (fun y h => by rw [List.mem_singleton.1 h]; exact List.mem_cons_self)

theorem SameBytes.opDone (s : State) (tid role id : Nat) : SameBytes (s.opDone tid role id) s := by
  unfold State.opDone
  split
  · exact SameBytes.modSec s _ _ _
  · exact SameBytes.refl s

theorem SameBytes.partDone (s : State) (tid role id : Nat) : SameBytes (s.partDone tid role id) s := by
  unfold State.partDone
  split
  · exact SameBytes.opDone s _ _ _
  · exact SameBytes.refl s

/-- A store or a posted step that goes on leaves what its near elements leave. -/
theorem posted_nearFrame (k : Iss) (s : State) (steps : Bool) (op : MemOp) (rs : List (Elem × Ready)) (hpos : 0 < op.size) (hsize : op.size ≤ 8) :
    NearFrame ((Claims.openOps rs).filter (fun x => !(steps || addrClass x.addr.toNat == 2))) op.size (Claims.posted k s steps op rs) s := by
  unfold Claims.posted
  extract_lets far near part id s1 s2 s3 s4
  have hs : SameBytes { s with nextOp := s.nextOp + 1 } s := SameBytes.of_teams rfl rfl rfl rfl
  have h1 : NearFrame near op.size s1 s :=
    (storeLanes_nearFrame _ k op near hpos hsize).trans (SameBytes.nearFrame hs _ _)
  have h2 : SameBytes s2 s1 := by
    unfold s2
    split
    · exact SameBytes.refl s1
    · exact SameBytes.of_teams rfl rfl rfl rfl
  have h3 : SameBytes s3 s2 := by
    unfold s3
    split
    · exact SameBytes.refl s2
    · exact SameBytes.modOwn k s2 _
  have h4 : SameBytes s4 s3 := by
    unfold s4
    clear_value part
    split
    · exact (SameBytes.partDone _ _ _ _).trans (SameBytes.hostOver k s3)
    · exact SameBytes.refl s3
  have h5 := (SameBytes.retireWith k (Claims.loadsOver k s4) k.th.advance).trans (SameBytes.loadsOver k s4)
  exact ((h5.trans (h4.trans (h3.trans h2))).nearFrame _ _).trans h1

end Sys2Proof.Machine

namespace Sys2Proof.Claims
open Sys2Proof.Machine

/-- Settles O19: the homes byte by byte, with the line that a full slice evicts; the scratchpad, whose barriers keep INIT under a write of
their counts; and the frame of a store's near elements. -/
theorem writeFrames : Obligations.WriteFrames := by
  unfold Obligations.WriteFrames
  refine ⟨?_, ?_, ?_, ?_⟩
  · intro s pa b a hne hevict
    rw [homeRead_one, homeRead_one, homeByte_homePut s pa b a hne]
    intro hh hl l hmem
    unfold evicted at hmem
    split at hmem
    · next hfull => exact hevict hh hl hfull l hmem
    · cases hmem
  · intro s bs a h
    rw [homeRead_one, homeRead_one, homeByte_homeWrite s bs a h]
  · intro t off bs a hlen hout hbar
    exact congrArg (fun b => [b]) (scratch_putElem_other t off bs a hlen hout hbar)
  · intro k s steps op rs hpos hsize t near
    obtain ⟨hmem, hslices, hteam, hdie⟩ := posted_nearFrame k s steps op rs hpos hsize
    refine ⟨hmem, hslices, fun tid a hx => ?_, fun d a hx => ?_⟩
    · rw [spotRead_team_one, spotRead_team_one, hteam tid a hx]
    · rw [spotRead_die_one, spotRead_die_one, hdie d a hx]

end Sys2Proof.Claims
end

section
/-!
PROOFS. What reset leaves and what a launched section starts with; the fences and casts of the generic address space.
-/

namespace Sys2Proof.Machine

/-- The sections of a launch start with an empty stack, the reset GMODE, the whole path and no register but the launch's uniform ones
(R14, R57, R62). -/
theorem launchSecs_start (l : Launch) (c : Section) (hc : c ∈ launchSecs l) :
    c.th.gmode = gmodeReset ∧ c.th.fpflags = 0 ∧ c.th.path = fullMask c.th.groups ∧ c.hmode = false ∧ c.stack = [] ∧
      c.th.vregs = [] ∧ c.th.preds = [] := by
  obtain ⟨x, _, rfl⟩ := List.mem_map.1 hc
  exact ⟨rfl, rfl, rfl, rfl, rfl, rfl, rfl⟩

end Sys2Proof.Machine

namespace Sys2Proof.Claims
open Sys2Proof.Machine

/-- Settles O60: every table of the state at reset is empty, so that each reads its default. -/
theorem resetState : Obligations.ResetState := by
  unfold Obligations.ResetState
  intro s
  refine ⟨rfl, rfl, rfl, rfl, rfl, rfl, rfl, rfl, rfl, rfl, rfl, rfl, fun c => ⟨rfl, rfl, rfl, rfl, rfl⟩, fun q => ⟨rfl, rfl, rfl⟩, rfl, ?_⟩
  intro l tid idx core slot u p c hc
  obtain ⟨hgmode, hflags, hpath, hhmode, hstack, hvregs, hpreds⟩ := launchSecs_start l c hc
  refine ⟨hgmode, hflags, hpath, hhmode, hstack, fun lane n => ?_, fun lane n => ?_⟩
  · rw [Thread.vreg, hvregs, tget]
  · rw [Thread.pred, hpreds, tget]
    by_cases h : n = 7 <;> simp [h]

end Sys2Proof.Claims
end

section
/-!
PROOFS. The software trap.
-/

namespace Sys2Proof.Machine

/-- A section whose taps are written may take an exception (R302). -/
theorem mayTrap_section {s : State} {k : Iss} {c : Section} (hrec : k.rec? = none) (hc : s.sec? k.team.tid k.sec.role = some c) (htaps : c.taps = []) :
    mayTrap k s = true := by
  simp only [mayTrap, hc, hrec, htaps, List.isEmpty_nil]

/-- A section that has taken `x` at its PC: its record is written and it stands at the trap entry of its context (R77 to R79). -/
def entered (ctx : Context) (how : EntryHow) (skip : SkipHow) (x : Trap) (c : Section) : Section :=
  enterHandler (recordTrap c c.th.pc x) how x.code skip
    (if c.state = .waiting then .waiting else if c.state = .ejectedPending then .ejectedPending else .running) (trapEntry ctx) x.lanes

theorem entered_role (ctx : Context) (how : EntryHow) (skip : SkipHow) (x : Trap) (c : Section) : (entered ctx how skip x c).role = c.role := rfl

/-- Outside handler mode and with a trap entry, an exception enters the handler (R79, R81, R383). -/
theorem takeTrapAt_enters {s : State} {t : Team} {role : Nat} {c : Section} (how : EntryHow) (skip : SkipHow) (x : Trap)
    (hc : s.sec? t.tid role = some c) (hmode : c.hmode = false) (hent : (s.ctxAt t.ctx).trapent ≠ 0) :
    takeTrapAt s t role how skip x = s.modSec t.tid role (entered (s.ctxAt t.ctx) how skip x) := by
  obtain ⟨_, _, heq⟩ | ⟨hdouble, _⟩ := takeTrapAt_cases s t role how skip x c hc
  · exact heq
  · obtain h | h := hdouble
    · rw [hmode] at h
      cases h
    · exact absurd h hent

/-- A fault raised by a section outside handler mode enters the handler (R79). -/
theorem raiseWith_section {s : State} {k : Iss} {c : Section} (skip : SkipHow) (x : Trap) (hrec : k.rec? = none)
    (hc : s.sec? k.team.tid k.sec.role = some c) (htaps : c.taps = []) (hmode : c.hmode = false) (hent : (s.ctxAt k.team.ctx).trapent ≠ 0) :
    raiseWith k s skip x = s.modSec k.team.tid k.sec.role (entered (s.ctxAt k.team.ctx) .trap skip x) := by
  unfold raiseWith
  rw [mayTrap_section hrec hc htaps, hrec]
  exact takeTrapAt_enters .trap skip x hc hmode hent

end Sys2Proof.Machine

namespace Sys2Proof.Claims
open Sys2Proof.Machine

/-- Settles O35: the trap is raised at once, and the section's record and saved state are those of entry to the handler. -/
theorem softwareTraps : Obligations.SoftwareTraps := by
  unfold Obligations.SoftwareTraps
  intro n s k c hissue hrec hc htaps hmode hent
  have hraise := raiseWith_section .next ⟨cSOFTTRAP, k.act, 0, n.setWidth 32⟩ hrec hc htaps hmode hent
  have hsec := sec?_modSec_same s k.team.tid k.sec.role _ (entered_role (s.ctxAt k.team.ctx) .trap .next ⟨cSOFTTRAP, k.act, 0, n.setWidth 32⟩)
  rw [hc] at hsec
  refine ⟨_, _, ?_, hsec, rfl, rfl, rfl, rfl, rfl, rfl, rfl, rfl, rfl, rfl, ⟨_, rfl, rfl, rfl, rfl⟩, rfl, rfl, rfl, rfl, rfl, rfl, rfl, rfl⟩
  change execTrap n s = _
  exact (hissue.guardedForm_eq (u := fun _ => ⟨true, [], []⟩) _ _ _ rfl).trans (congrArg Host.Outcome.next hraise)

end Sys2Proof.Claims
end

section
/-!
PROOFS. Fences, the casts of generic addresses, and the flushes of the slices.
-/

namespace Sys2Proof.Claims
open Sys2Proof.Machine

variable {s : State} {k : Iss} {i : Instr}

/-- A cast none of whose lanes raises SPACE writes every lane's value (R269, R270). -/
theorem AtIssue.castForm_eq {d b : Sel} {wd wb : Bool} (h : AtIssue s k i ⟨false, [wsel wd d], [wsel wb b]⟩) (f : Iss → Nat → Nat × Bool × DWord)
    (hf : ∀ l ∈ k.th.lanes k.act, (f k l).2.1 = false) :
    castForm i d b wd wb f s = .next (retireWith k (loadsOver k s) (k.th.putResult false wd k.path k.act d (fun l => (f k l).2.2)).advance) := by
  refine (h.guardedForm_eq (u := fun _ => ⟨false, [wsel wd d], [wsel wb b]⟩) _ _ _ rfl).trans ?_
  have hopens : ∀ x ∈ (k.th.lanes k.act).map (fun l =>
      (({ lane := l, a := (f k l).1, bad := false, data := 0, data2 := 0 } : Elem),
        if (f k l).2.1 then Ready.fault cSPACE (BitVec.ofNat 64 (f k l).1) (memAux .load 1) else Ready.val 0)), opens x.2 = true := by
    intro x hx
    obtain ⟨l, hl, rfl⟩ := List.mem_map.1 hx
    simp only [hf l hl]
    rfl
  have hlanes := okLanes_all _ hopens
  rw [List.map_map, show (fun x : Elem × Ready => x.1.lane) ∘ (fun l =>
      (({ lane := l, a := (f k l).1, bad := false, data := 0, data2 := 0 } : Elem),
        if (f k l).2.1 then Ready.fault cSPACE (BitVec.ofNat 64 (f k l).1) (memAux .load 1) else Ready.val 0)) = id from rfl, List.map_id] at hlanes
  rw [accessEnd_none _ _ _ _ (trapOf_none _ hopens), hlanes, putSome_all k false wd d _ (iss_act h.issuer)]
  rfl

/-- A fence whose operations have performed goes on (R266). -/
theorem AtPath.execFence_eq {c : BitVec 3} (h : AtPath s k (.fence c) ⟨true, [], []⟩) (hperf : s.performed k c.toNat = true) :
    exec (.fence c) s = .next (noteRelease k (pass k (fenceDrop k s c.toNat))) := by
  change execFence c s = _
  refine (h.pathForm_eq (u := fun _ => ⟨true, [], []⟩) _ _ rfl).trans ?_
  rw [if_pos hperf]

/-- A flush or an invalidation of the slices posts one counted operation (R271). -/
theorem AtIssue.sysForm_eq {flush : Bool} {a b : Sel} (h : AtIssue s k i ⟨true, [], [(a, 2), (b, 1)]⟩)
    (hclass : addrClass (k.th.kpair (uniNo a)).toNat = 0) (hzeros : addrZeros (k.th.kpair (uniNo a)).toNat = true) (hroom : counter k.sec 4 < 63) :
    sysForm i flush a b s = .next (pass k (modOwn k { s with nextOp := s.nextOp + 1, sysOps := s.sysOps ++
      [⟨s.nextOp, k.team.tid, k.sec.role, k.team.ctx, flush, (k.th.kpair (uniNo a)).toNat, (k.th.kreg (uniNo b)).toNat⟩] } (outAdd 4 s.nextOp))) := by
  refine (h.guardedForm_eq (u := fun _ => ⟨true, [], [(a, 2), (b, 1)]⟩) _ _ _ rfl).trans ?_
  dsimp only
  rw [if_neg (by simp [hclass, hzeros]), if_neg (Nat.ne_of_lt hroom)]

/-- Settles O34: each form's effect once its issue rule applies. -/
theorem fencesAndCasts : Obligations.FencesAndCasts := by
  unfold Obligations.FencesAndCasts
  refine ⟨⟨fun c s k h hperf => h.execFence_eq hperf, ?_, ?_⟩, ?_, ?_, ?_⟩
  · intro c a s k p h ad hplace who n others lines promote done
    have hform (t : State) (ht : (if drained s k.team.ctx c.toNat n && s.performed k c.toNat then
        noteRelease k (pass k (modOwn k (fenceDrop k (lines.foldl (fun s l => s.dropLineAll l) s) c.toNat) (fun c => promote { c with drains := others })))
      else modOwn k s (fun c => promote { c with drains := (who, n) :: others })) = t) : exec (.fenceRp c a) s = .next t := by
      change execFenceRp c a s = _
      refine (h.pathForm_eq (u := fun _ => ⟨true, [], [(a, 2)]⟩) _ _ rfl).trans ?_
      dsimp only
      rw [hplace]
      exact congrArg _ ht
    refine ⟨fun hdone => hform _ ?_, fun hdone => hform _ ?_⟩
    · rw [if_pos (by simpa [done] using hdone)]
    · rw [if_neg (by simpa [done] using hdone)]
  · intro flush a b s k i ad h hclass hzeros hroom
    cases flush with
    | false => exact h.sysForm_eq hclass hzeros hroom
    | true => exact h.sysForm_eq hclass hzeros hroom
  · intro d b s k h
    change execSptest d b s = _
    exact AtIssue.laneForm_eq (w := fun _ => false) (srcs := fun _ => [(b, 2)]) h (fun _ => true)
      (fun th l => (BitVec.ofNat 64 (addrClass (th.src64 l b).toNat), 0)) rfl
  · intro c d b s k h hspace
    change execSpcast c d b s = _
    exact h.castForm_eq (wd := true) (wb := false) _ hspace
  · intro c d b s k h hspace
    change execSpcastOff c d b s = _
    refine h.castForm_eq (wd := false) (wb := true) _ (fun l hl => ?_)
    obtain ⟨hclass, hin, hzero⟩ := hspace l hl
    simp only [hclass, hin, ne_eq, not_true_eq_false, decide_false, Bool.false_or, Bool.and_eq_false_imp, beq_iff_eq, decide_eq_false_iff_not, Classical.not_not]
    exact hzero

end Sys2Proof.Claims
end

section
/-!
PROOFS. Transaction barriers, team and gang barriers, and the releases that they happen under.
-/

namespace Sys2Proof.Machine

/-! ## The issuing section -/

/-- An issuing section is the one that the state holds, in the team that the state holds. -/
theorem iss_section {s : State} {k : Iss} (h : s.iss? = some k) (hrec : k.rec? = none) :
    s.team? k.team.tid = some k.team ∧ s.sec? k.team.tid k.sec.role = some k.sec := by
  unfold State.iss? at h
  split at h
  · cases h
  · next tid role _ =>
    split at h
    · next t c ht hc =>
      cases h
      dsimp only
      rw [team?_tid ht, sec?_role hc]
      exact ⟨ht, hc⟩
    · cases h
  · split at h
    · cases h
    · split at h
      · cases h
        cases hrec
      · cases h

/-- A team after a change of one of its sections. -/
theorem team?_modSec (s : State) (tid role : Nat) (f : Section → Section) :
    (s.modSec tid role f).team? tid = (s.team? tid).map (fun t => { t with secs := t.secs.map (fun c => if c.role = role then f c else c) }) := by
  unfold State.modSec
  rw [team?_modTeam s tid tid (fun t => { t with secs := t.secs.map (fun c => if c.role = role then f c else c) }) (fun _ => rfl)]
  cases h : s.team? tid with
  | none => rfl
  | some t => simp only [Option.map_some, team?_tid h, if_true]

/-- A field of every section that a change of one section leaves. -/
theorem sec?_modSec_field {α : Type} (s : State) (tid role : Nat) (f : Section → Section) (hf : ∀ c, (f c).role = c.role) (g : Section → α)
    (hg : ∀ c, g (f c) = g c) (u r : Nat) : ((s.modSec tid role f).sec? u r).map g = (s.sec? u r).map g := by
  by_cases h : (u, r) = (tid, role)
  · obtain ⟨rfl, rfl⟩ := Prod.mk.injEq .. ▸ h
    rw [sec?_modSec_same s u r f hf, Option.map_map]
    exact congrArg (fun x => Option.map x (s.sec? u r)) (funext hg)
  · rw [sec?_modSec_other s f hf h]

/-- What a section has performed is read from the operations under way, the store buffers and lanterns of the cores, the side logs, and the
section's own log and comparator (R329). -/
theorem olderPerformed_congr {s s' : State} {t t' : Team} {c c' : Section} (hremote : s'.remote = s.remote) (hcores : s'.cores = s.cores)
    (hlogs : ∀ u r, (s'.sec? u r).map Section.log = (s.sec? u r).map Section.log)
    (ht : t'.tid = t.tid ∧ t'.die = t.die ∧ t'.core = t.core ∧ t'.recs = t.recs ∧ t'.twin = t.twin)
    (hc : c'.log = c.log ∧ c'.cmp = c.cmp ∧ c'.role = c.role) (own : Option Nat) (n scope : Nat) :
    s'.olderPerformed t' c' own n scope = s.olderPerformed t c own n scope := by
  obtain ⟨htid, hdie, hcore, hrecs, htwin⟩ := ht
  obtain ⟨hlog, hcmp, hrole⟩ := hc
  have hcoreAt : s'.coreAt = s.coreAt := by
    funext d x
    simp only [State.coreAt, hcores]
  unfold State.olderPerformed State.unjoined
  simp only [Option.map_bind, Function.comp_def, htid, hdie, hcore, hrecs, htwin, hlog, hcmp, hrole, hremote, hcoreAt, hlogs]

/-! ## Releases -/

/-- The oldest release of a section happens when what is older has performed (R329). -/
theorem tryRelease_first {s : State} {tid role : Nat} {t : Team} {c : Section} {r : Release} {l : List Release} (ht : s.team? tid = some t)
    (hc : s.sec? tid role = some c) (hbank : t.bank = .active) (hl : c.releases = r :: l) (hperf : s.olderPerformed t c none r.before r.scope = true) :
    s.tryRelease tid role = (s.modSec tid role (fun c => { c with releases := c.releases.filter (fun x => x != r) })).doRelease tid role r := by
  unfold State.tryRelease
  simp only [ht, hc, hl, List.find?_cons, hperf, hbank, if_true]

/-- The section of a release, with it noted. -/
def withRelease (th : Thread) (r : Release) (c : Section) : Section :=
  { c with
    th := th, retired := c.retired + 1, retry := none, noBkpt := false, delayed := false, granted := []
    stepDone := c.stepDone || c.stepping, stepping := false, waitOn := .none, waitFor := .again
    lastRel := r.before, releases := c.releases ++ [r] }

theorem map_role_update (l : List Section) (role : Nat) (f g : Section → Section) (hf : ∀ c, (f c).role = c.role) :
    (l.map (fun c => if c.role = role then f c else c)).map (fun c => if c.role = role then g c else c) =
      l.map (fun c => if c.role = role then g (f c) else c) := by
  rw [List.map_map]
  refine List.map_congr_left (fun c _ => ?_)
  simp only [Function.comp_apply]
  by_cases h : c.role = role
  · rw [if_pos h, if_pos ((hf c).trans h), if_pos h]
  · rw [if_neg h, if_neg h, if_neg h]

/-- Two changes of one section in turn. -/
theorem modSec_modSec (s : State) (tid role : Nat) (f g : Section → Section) (hf : ∀ c, (f c).role = c.role) :
    (s.modSec tid role f).modSec tid role g = s.modSec tid role (fun c => g (f c)) := by
  unfold State.modSec State.modTeam
  congr 1
  dsimp only
  rw [List.map_map]
  refine List.map_congr_left (fun t _ => ?_)
  simp only [Function.comp_apply]
  by_cases h : t.tid = tid
  · rw [if_pos h, if_pos h, if_pos (by exact h)]
    simp only [map_role_update t.secs role f g hf]
  · rw [if_neg h, if_neg h, if_neg h]

/-- A release that its section executes with none older waits in no queue where what is older has performed (R329). -/
theorem release_performed {s : State} {k : Iss} (hrec : k.rec? = none) (hrel : k.sec.releases = []) (ht : s.team? k.team.tid = some k.team)
    (hc : s.sec? k.team.tid k.sec.role = some k.sec) (hbank : k.team.bank = .active) {scope : Nat} (hperf : s.performed k scope = true) (step : RelStep) :
    ∃ t, SameBytes t s ∧ release k (pass k s) scope step = t.doRelease k.team.tid k.sec.role ⟨s.nextOp, scope, step, k.th.pc⟩ := by
  have hpass : pass k s = s.modSec k.team.tid k.sec.role (fun c => { c with
      th := k.th.advance, retired := c.retired + 1, retry := none, noBkpt := false, delayed := false, granted := []
      stepDone := c.stepDone || c.stepping, stepping := false, waitOn := .none, waitFor := .again }) := by
    unfold pass retireWith retire putTh
    rw [hrec]
    exact modSec_modSec s _ _ _ _ (fun _ => rfl)
  have hrelease : release k (pass k s) scope step = (({ s with nextOp := s.nextOp + 1 } : State).modSec k.team.tid k.sec.role
      (withRelease k.th.advance ⟨s.nextOp, scope, step, k.th.pc⟩)).tryRelease k.team.tid k.sec.role := by
    unfold release
    rw [hrel, hpass]
    refine congrArg (fun x : State => x.tryRelease k.team.tid k.sec.role) ?_
    exact modSec_modSec { s with nextOp := s.nextOp + 1 } _ _ _ _ (fun _ => rfl)
  have hteam := team?_modSec { s with nextOp := s.nextOp + 1 } k.team.tid k.sec.role (withRelease k.th.advance ⟨s.nextOp, scope, step, k.th.pc⟩)
  have hsec := sec?_modSec_same { s with nextOp := s.nextOp + 1 } k.team.tid k.sec.role (withRelease k.th.advance ⟨s.nextOp, scope, step, k.th.pc⟩)
    (fun _ => rfl)
  rw [show State.team? { s with nextOp := s.nextOp + 1 } k.team.tid = some k.team from ht] at hteam
  rw [show State.sec? { s with nextOp := s.nextOp + 1 } k.team.tid k.sec.role = some k.sec from hc] at hsec
  rw [hrelease, tryRelease_first hteam hsec hbank (r := ⟨s.nextOp, scope, step, k.th.pc⟩) (l := []) (by rw [withRelease, hrel]; rfl)]
  · have hnext : SameBytes { s with nextOp := s.nextOp + 1 } s := SameBytes.of_teams rfl rfl rfl rfl
    refine ⟨_, ?_, rfl⟩
    exact (SameBytes.modSec _ _ _ _).trans ((SameBytes.modSec _ _ _ _).trans hnext)
  · unfold State.performed at hperf
    rw [hrec, Option.map_none, Bool.and_eq_true] at hperf
    rw [olderPerformed_congr (s := s) (t := k.team) (c := k.sec)]
    · exact hperf.2
    · rfl
    · rfl
    · exact sec?_modSec_field { s with nextOp := s.nextOp + 1 } _ _ (withRelease _ _) (fun _ => rfl) Section.log (fun _ => rfl)
    · exact ⟨rfl, rfl, rfl, rfl, rfl⟩
    · exact ⟨rfl, rfl, rfl⟩

end Sys2Proof.Machine

namespace Sys2Proof.Claims
open Sys2Proof.Machine

variable {s : State} {k : Iss} {i : Instr}

theorem AtSection.atPath {u : Uses} (h : AtSection s k i u) : AtPath s k i (usesUnlatched k u) := ⟨h.issuer, h.formed, h.lanes, h.usable⟩

/-- A form of R328 that a section issues answers its effect. -/
theorem AtSection.form_eq {u : Iss → Uses} (h : AtSection s k i (u k)) (dyn : Iss → Bool) (eff : Iss → State) (hd : dyn k = true) :
    sectionForm i s dyn u eff = .next (eff k) :=
  h.atPath.sectionForm_eq dyn eff hd h.whole

/-! ## Transaction barriers -/

/-- A form that finds its barrier answers its effect (R187). -/
theorem tbForm_eq {a : Sel} {srcs dst : List (Sel × Nat)} (lantern : Bool) {ok : Iss → Bool} (eff : Iss → Nat → TBar → State) (hiss : s.iss? = some k)
    (hrec : k.rec? = none) (hpath : k.path ≠ 0) (hbar : BarrierAt s k (tbOff k a)) (hwf : i.wellFormed = true)
    (hreg : regFault k.th k.path ⟨dst.isEmpty, dst, (a, 1) :: srcs⟩ = none) (hok : ok k = true) :
    tbForm i s a srcs dst lantern ok eff = .next (eff k (tbOff k a) (k.team.tbar (tbOff k a))) := by
  obtain ⟨haligned, hinside, hown, hhere, hsound, hinit, hresv⟩ := hbar
  have hread (go : Unit → State) : whenRecord k s k.path (none : Option Trap) [(tbOff k a, 16)] go = go () := by
    unfold whenRecord
    split
    · rfl
    · exact whenRead_go hown (by simpa using hhere) hsound k.path go
  unfold tbForm
  rw [issued_some _ hiss]
  simp only [staticOk, hwf, hpath, hrec, hok, haligned, Team.inScratch, hinside, hreg, hread, hinit, hresv, Bool.not_true, Bool.false_eq_true, if_false,
    Option.isSome_none, Bool.false_and, ne_eq, not_true_eq_false, false_or, reduceCtorEq, decide_true, decide_false, Bool.or_self]

theorem setTbar_arrive_scratch {t u : Team} (h : u.scratch = t.scratch) (off : Nat) :
    (u.setTbar off (u.tbar off).arrive).scratch = (t.setTbar off (t.tbar off).arrive).scratch := by
  simp only [Team.setTbar, Team.tbar, h]

/-- An arrival's step changes the barrier in its team's scratchpad (R184). -/
theorem doRelease_tbarrive {s t : State} (h : SameBytes t s) {x : Team} (hx : s.team? x.tid = some x) (role before scope off : Nat) (pc : DWord) :
    ((t.doRelease x.tid role ⟨before, scope, .tbarrive off, pc⟩).team? x.tid).map Team.scratch = some (x.setTbar off (x.tbar off).arrive).scratch ∧
      (t.doRelease x.tid role ⟨before, scope, .tbarrive off, pc⟩).mem = s.mem := by
  have hscratch := h.scratch x.tid
  rw [hx] at hscratch
  obtain ⟨u, hu, hus⟩ := Option.map_eq_some_iff.1 hscratch
  unfold State.doRelease
  rw [hu]
  refine ⟨?_, h.mem⟩
  dsimp only
  rw [team?_modTeam t x.tid x.tid _ (fun y => by simp only [Team.setTbar]), hu]
  simp only [Option.map_some, team?_tid hu, if_true]
  rw [setTbar_arrive_scratch hus off]

/-- Settles O30: a barrier that stands answers each form its effect; an arrival with nothing older happens at once. -/
theorem transactionBarriers : Obligations.TransactionBarriers := by
  unfold Obligations.TransactionBarriers
  refine ⟨?_, ?_⟩
  · intro d a b s k h off haligned hinside ha0 ha hb hown hhere hbusy
    change execTbinit d a b s = _
    refine (h.form_eq (u := fun _ => ⟨true, [], [(d, 1), (a, 1), (b, 1)]⟩) _ _ ?_).trans ?_
    · simp only [Team.inScratch, off] at haligned hinside ⊢
      simp only [haligned, hinside, ha0, ha, hb, ne_eq, not_false_eq_true, decide_true, Bool.and_self, Bool.or_true]
    · simp only [off] at hhere hbusy
      rw [hbusy, whenPresent_go hown hhere]
      rfl
  · intro a b s k hiss hrec hpath hbar x
    refine ⟨?_, ?_, ?_, ?_⟩
    · intro hwf hreg hb hbusy
      change execTbexpect a b s = _
      refine (tbForm_eq false _ hiss hrec hpath hbar hwf hreg (by simpa using hb)).trans ?_
      rw [hbusy]
      rfl
    · intro hwf hreg hbusy
      have hexec : exec (.tbarrive a) s = .next (release k (pass k s) 1 (.tbarrive (tbOff k a))) := by
        change execTbarrive a s = _
        refine (tbForm_eq false _ hiss hrec hpath hbar hwf hreg rfl).trans ?_
        rw [hbusy]
        rfl
      refine ⟨hexec, fun hrel hperf ht hc hbank => ?_⟩
      obtain ⟨t, hsame, heq⟩ := release_performed hrec hrel ht hc hbank hperf (.tbarrive (tbOff k a))
      refine ⟨_, hexec, ?_⟩
      rw [heq]
      exact doRelease_tbarrive hsame ht _ _ _ _ _
    · intro hwf hreg hb
      change execTbwait a b s = _
      refine (tbForm_eq false _ hiss hrec hpath hbar hwf hreg (by simpa using hb)).trans ?_
      simp only [ne_eq, ite_not, x]
    · intro n d hwf hreg hb
      change execTbtest n d a b s = _
      refine (tbForm_eq true _ hiss hrec hpath hbar hwf hreg (by simpa using hb)).trans ?_
      simp only [ne_eq, ite_not, x]

/-! ## Counters and barriers of teams and gangs -/

/-- A section whose arrival has been released leaves its barrier (R189, R190). -/
theorem barGo_released {gang : Bool} (go : State → State) (h : (s.sec? k.team.tid k.sec.role).bind (fun x => arrivedAt x k.th.pc gang) = some true) :
    barGo k s gang go = go (leaveBar k s gang) := by
  unfold barGo
  rw [h]

/-- A section whose arrival has not been released waits for its phase. -/
theorem barGo_waits {gang : Bool} (go : State → State) (h : ¬ (s.sec? k.team.tid k.sec.role).bind (fun x => arrivedAt x k.th.pc gang) = some true) :
    barGo k s gang go = waitOn k s .bar (.phase k.th.pc) := by
  unfold barGo
  split
  · next h' => exact absurd h' h
  · rfl

/-- The mask of a bar that its section may execute is one that its team's launch has, with the section's own role in it (R189). -/
theorem AtSection.execBar_eq {c : BitVec 3} {m : BitVec 4} (h : AtSection s k (.bar c m) ⟨true, [], []⟩)
    (hd : (arrivedAt k.sec k.th.pc false).isSome = true ∨ (m ≠ 0 ∧ rolesOk k.team m = true ∧ m.getLsbD k.sec.role = true ∧
      ((tget bar0 k.team.bcs c.toNat).roles = 0 ∨ (tget bar0 k.team.bcs c.toNat).roles = m))) :
    exec (.bar c m) s = .next (match arrivedAt k.sec k.th.pc false with
      | some _ => barGo k s false id
      | none => barGo k (release k (modOwn k s (fun x => { x with arrived := x.arrived ++ [(k.th.pc, false, c.toNat, false)] })) 1 (.bar c.toNat m)) false id) := by
  change execBar c m s = _
  refine h.form_eq (u := fun _ => ⟨true, [], []⟩) _ _ ?_
  obtain hd | ⟨hm, hroles, hown, hopen⟩ := hd
  · simp only [hd, Bool.or_true, Bool.true_or]
  · have hm' : (m != 0) = true := bne_iff_ne.2 hm
    dsimp only
    rw [hm', hroles, hown]
    obtain hopen | hopen := hopen <;> simp [hopen]

/-- Settles O32: each form's branch for the section that the state holds; the steps of a bar's releases. -/
theorem waitsAndBarriers : Obligations.WaitsAndBarriers := by
  unfold Obligations.WaitsAndBarriers
  refine ⟨?_, ⟨?_, ?_, ?_⟩, ?_, ?_⟩
  · intro c n s k h
    have hexec : exec (.waitc c n) s = .next (if counter k.sec c.toNat ≤ n.toNat then pass k s else waitOn k s .waitc (.counter c.toNat n.toNat)) := by
      change execWaitc c n s = _
      exact h.form_eq (u := fun _ => ⟨true, [], []⟩) _ _ rfl
    refine ⟨fun hle => ?_, fun hlt => ?_⟩
    · rw [hexec, if_pos hle]
    · rw [hexec, if_neg (Nat.not_le.2 hlt)]
  · intro c m s k h
    obtain ⟨_, hc⟩ := iss_section h.issuer h.whole
    refine ⟨fun harr => ?_, fun harr => ?_, ?_⟩
    · rw [h.execBar_eq (.inl (by rw [harr]; rfl)), harr]
      exact congrArg _ (barGo_released id (by rw [hc]; exact harr))
    · rw [h.execBar_eq (.inl (by rw [harr]; rfl)), harr]
      exact congrArg _ (barGo_waits id (by rw [hc]; exact fun e => by cases harr.symm.trans e))
    · intro harr hm hroles hown hopen s1 released
      rw [h.execBar_eq (.inr ⟨hm, hroles, hown, hopen⟩), harr]
      exact ⟨fun hr => congrArg _ (barGo_released id hr), fun hr => congrArg _ (barGo_waits id hr)⟩
  · intro s k h go
    obtain ⟨_, hc⟩ := iss_section h.issuer h.whole
    have hexec : exec .gbar s = .next (match arrivedAt k.sec k.th.pc true with
        | some _ => barGo k s true (fun s => s.modCore k.team.die k.team.core (fun x => { x with dcache := [] }))
        | none => barGo k (release k (modOwn k s (fun x => { x with arrived := x.arrived ++ [(k.th.pc, true, 0, false)] })) 2 .gbar) true
          (fun s => s.modCore k.team.die k.team.core (fun x => { x with dcache := [] }))) := by
      change execGbar s = _
      exact h.form_eq (u := fun _ => ⟨true, [], []⟩) _ _ rfl
    refine ⟨fun harr => ?_, fun harr => ?_, ?_⟩
    · rw [hexec, harr]
      exact congrArg _ (barGo_released _ (by rw [hc]; exact harr))
    · rw [hexec, harr]
      exact congrArg _ (barGo_waits _ (by rw [hc]; exact fun e => by cases harr.symm.trans e))
    · intro harr s1 released
      rw [hexec, harr]
      exact ⟨fun hr => congrArg _ (barGo_released _ hr), fun hr => congrArg _ (barGo_waits _ hr)⟩
  · intro s k h
    change execBackoff s = _
    exact h.form_eq (u := fun _ => ⟨true, [], []⟩) _ _ rfl
  · intro s tid role t c r l ht hc hbank hl hperf
    exact tryRelease_first ht hc hbank hl hperf
  · intro s tid role n before scope m pc t ht b bit put live
    refine ⟨fun hroles => ?_, fun hroles hm => ?_⟩
    · unfold State.doRelease
      simp only [ht, b] at hroles ⊢
      rw [if_neg (by simp [hroles]), if_pos hroles]
    · unfold State.doRelease
      simp only [ht, b] at hroles ⊢
      rw [if_neg (by simp [hroles]), if_neg (by rw [hroles]; exact hm)]

end Sys2Proof.Claims
end

section
/-!
PROOFS. The copies that enter a core's queue, and the bound windows.
-/

namespace Sys2Proof.Claims
open Sys2Proof.Machine

variable {s : State} {k : Iss} {i : Instr}

/-- A section has an entry when a shared one is free or it uses fewer than two of its own (R134). -/
theorem copyRoom_iff : copyRoom k s ↔
    (!decide (sharedUsed (s.coreAt k.team.die k.team.core) < Config.sharedCopyEntries) && decide (2 ≤ ownUsed (s.coreAt k.team.die k.team.core) k.team.tid k.sec.role))
      = false := by
  unfold copyRoom
  rw [Bool.and_eq_false_iff, Bool.not_eq_false', decide_eq_true_iff, decide_eq_false_iff_not, Nat.not_le]

/-- No destination line is counted three times. -/
theorem lines_uncounted {x : Option Team} {lines : List Nat} (h : ∀ u, x = some u → ∀ l ∈ lines, (u.line l).count < 3) :
    x.any (fun u => lines.any (fun l => decide (3 ≤ (u.line l).count))) = false := by
  cases x with
  | none => rfl
  | some u =>
    rw [Option.any_some, List.any_eq_false]
    intro l hl
    rw [decide_eq_true_iff, Nat.not_le]
    exact h u rfl l hl

/-- A copy that meets none of its waits enters the queue (R330). -/
theorem AtSection.copyForm_eq {form : Nat} {a : Sel} (h : AtSection s k i ⟨true, [], [(a, 8)]⟩)
    (hty : form = 2 → reduceTy (gType k.th.gmode) = true) (hpre : (s.coreAt k.team.die k.team.core).preempt = false)
    (hcount : counter k.sec (copyEntry k s form a).cls < 63) (hroom : copyRoom k s) {s' : State}
    (hstart : startBoundLines s (copyEntry k s form a).ltid (copyEntry k s form a).lines = some s') (hroom' : copyRoom k s')
    (hlines : ∀ u, s'.team? (copyEntry k s form a).ltid = some u → ∀ l ∈ (copyEntry k s form a).lines, (u.line l).count < 3) :
    let c := copyEntry k s form a
    let b := Block.of (blockOf k a)
    let shape := if b.bytes = 0 then some (Shape.of c.srec) else none
    let s1 : State := { s' with nextOp := s'.nextOp + 1 }
    let s2 := s1.modTeam c.ltid (fun u => c.lines.foldl (fun v l => v.setLine l { (v.line l) with
      count := (v.line l).count + 1, poison := if (healed u form b shape c.lines).contains l then none else (v.line l).poison }) u)
    let s3 := s2.modTeam k.team.tid (fun u => if form = 2 then { u with treduces := u.treduces + 1 } else u)
    let s4 := s3.modCore k.team.die k.team.core (fun x => { x with copyq := x.copyq ++ [{ copyEntry k s' form a with ltid := c.ltid, lines := c.lines }] })
    copyForm i form a s = .next (modOwn k (pass k s4) (fun x => outAdd c.cls s'.nextOp { x with copies := x.copies + 1 })) := by
  intro c b shape s1 s2 s3 s4
  have hcls : copyClass form (Block.of (blockOf k a)).gaddr = c.cls := rfl
  refine (h.form_eq (u := fun _ => ⟨true, [], [(a, 8)]⟩) _ _ ?_).trans ?_
  · by_cases hf : form = 2
    · simp [hty hf]
    · simp [hf]
  · dsimp only
    rw [hpre, if_neg Bool.false_ne_true, hcls, if_neg (Nat.ne_of_lt hcount), copyRoom_iff.1 hroom, if_neg Bool.false_ne_true]
    have hstart' : startBoundLines s (destLines s k.team form (Block.of (blockOf k a))
        (if (Block.of (blockOf k a)).bytes = 0 then
          some (Shape.of (if (Block.of (blockOf k a)).bytes = 0 then readBytes k.team.scratch (Block.of (blockOf k a)).shape 128 else [])) else none)).1
        (destLines s k.team form (Block.of (blockOf k a))
        (if (Block.of (blockOf k a)).bytes = 0 then
          some (Shape.of (if (Block.of (blockOf k a)).bytes = 0 then readBytes k.team.scratch (Block.of (blockOf k a)).shape 128 else [])) else none)).2
          = some s' := hstart
    rw [hstart']
    dsimp only
    rw [copyRoom_iff.1 hroom', if_neg Bool.false_ne_true]
    have hlines' := lines_uncounted hlines
    exact congrArg Host.Outcome.next (if_neg (fun hx => Bool.false_ne_true (hlines'.symm.trans hx)))

/-- Ranges of lines that lie apart do not meet. -/
theorem linesMeet_apart {a n b m : Nat} (h : b + m ≤ a ∨ a + n ≤ b) : linesMeet a n b m = false := by
  unfold linesMeet
  rw [decide_eq_false_iff_not]
  omega

/-- Settles O33: a copy enters the queue; bind and unbind change the region entry and the lines that it names. -/
theorem copiesAndWindows : Obligations.CopiesAndWindows := by
  unfold Obligations.CopiesAndWindows
  refine ⟨?_, ?_, ?_⟩
  · intro i form a hrule s k h c hty hpre hcount hroom s' hstart hroom' hlines
    have heq := h.copyForm_eq hty hpre hcount hroom hstart hroom' hlines
    cases hrule with
    | tcopy => exact heq
    | tcopys => exact heq
    | treduce => exact heq
  · intro a s k i h hfits hfree soff lines
    obtain ⟨hclass, hzeros, hsrc, hsoff, hlo, hhi, hinside, hapart⟩ := hfits
    change execBind a s = _
    refine (h.form_eq (u := fun _ => ⟨true, [], [(a, 4)]⟩) _ _ ?_).trans ?_
    · dsimp only
      rw [hfree, hzeros]
      simp only [Team.inScratch, hclass, hsrc, hsoff, hlo, hhi, hinside, and_self, decide_true, Option.isSome_some, Bool.and_self, Bool.true_and,
        Bool.or_eq_true, List.all_eq_true, bne_iff_ne, ne_eq, Bool.not_eq_eq_eq_not, Bool.not_true]
      right
      intro e he
      by_cases htid : e.2.tid = k.team.tid
      · by_cases hdone : e.2.done = true
        · exact .inl (.inr hdone)
        · exact .inr (linesMeet_apart (hapart e he htid (by simpa using hdone)))
      · exact .inl (.inl htid)
    · dsimp only
      rw [hfree]
  · intro a s k i r h hfind hidle
    change execUnbind a s = _
    refine (h.form_eq (u := fun _ => ⟨true, [], [(a, 1)]⟩) _ _ ?_).trans ?_
    · dsimp only
      rw [hfind]
      exact Bool.or_true _
    · dsimp only
      rw [hfind]
      have hnone : (s.coreAt k.team.die k.team.core).copyq.any (fun c => c.form == 3 && c.tid == k.team.tid && c.region == some i) = false := by
        rw [List.any_eq_false]
        intro c hc
        have := hidle c hc
        simpa [and_assoc] using this
      exact congrArg Host.Outcome.next (if_neg (fun hx => Bool.false_ne_true (hnone.symm.trans hx)))

end Sys2Proof.Claims
end

section
/-!
PROOFS. Joins and the ends of paths, calls, indexed branches, exits.
-/

namespace Sys2Proof.Machine

/-! ## The end of a path -/

/-- A path that takes lanes again goes on (R244). -/
theorem pathEnded_pend {c : Section} {e : Entry} {r : List Entry} (hst : c.stack = e :: r) {m : Mask} {pc : DWord} (hkind : e.kind ≠ .recall)
    (hpend : e.pend = some (m, pc)) (hm : m ≠ 0) :
    pathEnded c = { c with stack := { e with pend := none } :: r, th := { c.th with path := m, pc := pc }, state := readyState c } := by
  unfold pathEnded endPath
  rw [hst]
  dsimp only
  rw [hpend]
  cases hk : e.kind with
  | branch => exact if_neg hm
  | call => exact if_neg hm
  | _ => exact absurd hk hkind

/-- An entry that holds nothing pending waits for its ejected lanes (R244). -/
theorem pathEnded_waits {c : Section} {e : Entry} {r : List Entry} (hst : c.stack = e :: r) (hkind : e.kind ≠ .recall) (hpend : e.pend = none)
    (hjc : 0 < e.jc) : pathEnded c = { c with state := .ejectedPending } := by
  unfold pathEnded endPath
  rw [hst]
  dsimp only
  rw [hpend]
  cases hk : e.kind with
  | branch => exact if_pos hjc
  | call => exact if_pos hjc
  | _ => exact absurd hk hkind

/-- An entry that waits for nothing is popped, and its own lanes go on at RESUME (R244). -/
theorem pathEnded_pops {c : Section} {e : Entry} {r : List Entry} (hst : c.stack = e :: r) (hkind : e.kind ≠ .recall) (hpend : e.pend = none)
    (hjc : e.jc = 0) (hfull : e.full ≠ 0) :
    pathEnded c = { c with stack := r, state := readyState c
                           th := { (if e.hadEjected then c.th.killLatches else c.th) with path := e.full, pc := e.resume } } := by
  have hnone : ¬ 0 < e.jc := by omega
  unfold pathEnded endPath
  rw [hst]
  dsimp only
  rw [hpend]
  cases hk : e.kind with
  | branch =>
    refine (if_neg hnone).trans ?_
    cases e.hadEjected <;> exact if_neg hfull
  | call =>
    refine (if_neg hnone).trans ?_
    cases e.hadEjected <;> exact if_neg hfull
  | _ => exact absurd hk hkind

/-- A recall entry gives back the path that it interrupted (R244). -/
theorem pathEnded_recall {c : Section} {e : Entry} {r : List Entry} (hst : c.stack = e :: r) {m : Mask} {pc : DWord} (hkind : e.kind = .recall)
    (hpend : e.pend = some (m, pc)) (hm : m ≠ 0) :
    pathEnded c = { c with stack := decJc r (e.owner.getD 0), th := { c.th with path := m, pc := pc }, retry := e.retry, state := readyState c } := by
  unfold pathEnded endPath
  rw [hst]
  dsimp only
  rw [hpend, hkind]
  exact if_neg hm

/-! ## The stack's spill area -/

/-- A pop whose access translates goes on (R23). -/
theorem spilled_pop {s : State} {k : Iss} (h : Claims.poppable k s) (m : Mask) (go : Unit → State) :
    spilled k s .load k.sec.stack.length m go = go () := by
  unfold spilled
  obtain h | ⟨pa, b, h⟩ := h
  · rw [if_pos h]
  · split
    · rfl
    · dsimp only
      rw [h]
      exact if_neg (by decide)

/-- A push whose access translates goes on, its entry's bytes in the spill area (R23, R98). -/
theorem spilled_push {s t : State} {k : Iss} {n : Nat} {go : Unit → State} (h : Claims.pushed k s n (go ()) = some t) (m : Mask) :
    spilled k s .store n m go = t := by
  unfold Claims.pushed at h
  unfold spilled
  split at h
  · next hn => rw [if_pos hn, Option.some.inj h]
  · next hn =>
    rw [if_neg hn]
    dsimp only
    split at h
    · next hx =>
      rw [hx]
      exact (if_pos rfl).trans (Option.some.inj h)
    · cases h

/-! ## Targets -/

theorem targetFault_none {t : DWord} {m : Mask} (hin : t.toNat < 2 ^ 49) (hal : t.toNat % 4 = 0) : targetFault t m = none := by
  unfold targetFault
  rw [if_neg (by rw [Nat.div_eq_of_lt hin]; exact fun h => h rfl), if_neg (fun h => h hal)]

theorem targetFault_space {t : DWord} {m : Mask} (hout : 2 ^ 49 ≤ t.toNat) : targetFault t m = some ⟨cSPACE, m, t, fetchAux⟩ := by
  unfold targetFault
  rw [if_pos (Nat.pos_iff_ne_zero.1 (Nat.div_pos hout (by decide)))]

theorem targetFault_align {t : DWord} {m : Mask} (hin : t.toNat < 2 ^ 49) (hal : t.toNat % 4 ≠ 0) :
    targetFault t m = some ⟨cALIGN, m, t, fetchAux⟩ := by
  unfold targetFault
  rw [if_neg (by rw [Nat.div_eq_of_lt hin]; exact fun h => h rfl), if_pos hal]

end Sys2Proof.Machine

namespace Sys2Proof.Claims
open Sys2Proof.Machine

variable {s : State} {k : Iss} {i : Instr}

/-- A form that its state does not allow is OPND (R206). -/
theorem AtIssue.guardedForm_opnd {u : Iss → Uses} {v : Uses} (h : AtIssue s k i v) (dyn : Iss → Bool) (idle : Iss → Thread) (eff : Iss → State)
    (hd : dyn k = false) : guardedForm i s dyn u idle eff = .next (raise k s ⟨cOPND, k.act, 0, wordOf i⟩) := by
  unfold guardedForm
  rw [issued_some _ h.issuer]
  simp only [issueFault, staticOk, h.formed, hd, h.active, Bool.not_true, Bool.false_eq_true, if_false, Bool.not_false, if_true]

/-- Settles O13: join's branches by the innermost entry; one round of the end of a path for each kind of entry. -/
theorem joinsAndPathEnds : Obligations.JoinsAndPathEnds := by
  unfold Obligations.JoinsAndPathEnds
  refine ⟨fun s k hiss => ?_, fun c e r hst => ⟨fun m pc hkind hpend hm => pathEnded_pend hst hkind hpend hm,
    fun hkind hpend hjc => pathEnded_waits hst hkind hpend hjc, fun hkind hpend hjc hfull => pathEnded_pops hst hkind hpend hjc hfull,
    fun m pc hkind hpend hm => pathEnded_recall hst hkind hpend hm⟩⟩
  have hexec (t : State) (ht : (match k.rec? with
      | some (_, _, r) => if r.joinPc = some k.th.pc then lanternDone k s true else pass k s
      | none => match k.sec.stack with
        | e :: _ => if e.kind ≠ .call ∧ e.joinPc = some k.th.pc then
            spilled k s .load k.sec.stack.length k.path (fun _ => (retire k s).endPathOf k.team.tid k.sec.role)
          else pass k s
        | [] => pass k s) = t) : exec .join s = .next t := by
    change execJoin s = _
    exact (issued_some _ hiss).trans (congrArg Host.Outcome.next ht)
  refine ⟨fun e r hrec hst hkind hjoin hpop => hexec _ ?_, fun hrec hst => hexec _ ?_, fun d c r hrec => hexec _ ?_⟩
  · rw [hrec, hst]
    refine (if_pos ⟨hkind, hjoin⟩).trans ?_
    rw [← hst]
    exact spilled_pop hpop _ _
  · rw [hrec]
    cases hstack : k.sec.stack with
    | nil => rfl
    | cons e r =>
      refine if_neg (fun ⟨hkind, hjoin⟩ => ?_)
      obtain hcall | hother := hst e r hstack
      · exact hkind hcall
      · exact hother hjoin
  · rw [hrec]

/-- Settles O15: exit's branches by its issuer, its mode and the lanes that are left. -/
theorem exits : Obligations.Exits := by
  unfold Obligations.Exits
  intro s k h th s'
  have hexec (hd : (!k.sec.hmode || k.rec?.isSome) = true) (t : State) (ht : (match k.rec? with
      | some _ => lanternDone k s false
      | none => if th.path = 0 then (retireWith k s' th).endPathOf k.team.tid k.sec.role
        else freeGroups (retireWith k s' th.advance) k.team.tid) = t) : exec .exit s = .next t := by
    change execExit s = _
    exact (h.guardedForm_eq (u := fun _ => ⟨true, [], []⟩) _ _ _ hd).trans (congrArg Host.Outcome.next ht)
  refine ⟨fun hrec hmode hpath => hexec (by rw [hmode]; rfl) _ ?_, fun hrec hmode hpath => hexec (by rw [hmode]; rfl) _ ?_, fun hrec hmode => ?_,
    fun r hrec => hexec (by rw [hrec]; exact Bool.or_true _) _ ?_⟩
  · rw [hrec]
    exact if_pos hpath
  · rw [hrec]
    exact if_neg hpath
  · change execExit s = _
    exact h.guardedForm_opnd _ _ _ (by rw [hmode, hrec]; rfl)
  · rw [hrec]

/-! ## Calls -/

/-- call by a section pushes its entry and goes to the routine (R249). -/
theorem AtIssue.execCall_section {o : BitVec 25} (h : AtIssue s k (.call o) ⟨true, [], []⟩) (hrec : k.rec? = none) (hroom : stackFull k.sec = false)
    {t : State} (ht : pushed k s (k.sec.stack.length + 1) (retireWith k
      (modOwn k s (fun c => { c with stack := callEntry k.th.pc k.th.path none false :: c.stack }))
        { k.th with path := k.act, pc := k.th.pc + 4 * o.signExtend 64 }) = some t) : exec (.call o) s = .next t := by
  change execCall o s = _
  refine (h.guardedForm_eq (u := fun _ => ⟨true, [], []⟩) _ _ _ ?_).trans ?_
  · rw [hrec, hroom]
    rfl
  · dsimp only
    rw [hrec]
    exact congrArg Host.Outcome.next (spilled_push ht k.act)

/-- call by an ejected lane keeps the return address in its record (R254). -/
theorem AtIssue.execCall_lane {o : BitVec 25} (h : AtIssue s k (.call o) ⟨true, [], []⟩) {d c : Nat} {r : LanternRec} (hrec : k.rec? = some (d, c, r))
    (hroom : r.calls.length < 8) : exec (.call o) s = .next (retireWith k
      (modRec k s (fun x => { x with calls := (k.th.pc + 4, false) :: x.calls })) { k.th with pc := k.th.pc + 4 * o.signExtend 64 }) := by
  change execCall o s = _
  refine (h.guardedForm_eq (u := fun _ => ⟨true, [], []⟩) _ _ _ ?_).trans ?_
  · rw [hrec]
    exact decide_eq_true hroom
  · dsimp only
    rw [hrec]
    rfl

/-- calli reads the budget word of its lowest target first (R250). -/
theorem AtIssue.execCalli_eq {a : Sel} (h : AtIssue s k (.calli a) ⟨true, [], [(a, 2)]⟩)
    (hd : (match k.rec? with
      | some (_, _, r) => decide (r.calls.length < 8)
      | none => reuses k .call || !stackFull k.sec) = true) {t : State}
    (ht : (match budgetWord k s (lowTarget k a).1 (lowTarget k a).2 with
      | .error (none, s) => waitOn k s .heldLoad .again
      | .error (some f, s) => match k.rec? with
        | some _ => raiseSet k s .ret f
        | none => if reuses k .call then
            raiseSet k (setAside k s (callEntry k.th.pc k.th.path none false) (k.act &&& ~~~(lowTarget k a).2) (lowTarget k a).2 true) .ret f
          else spilled k s .store (k.sec.stack.length + 1) k.act (fun _ =>
            raiseSet k (setAside k s (callEntry k.th.pc k.th.path none false) (k.act &&& ~~~(lowTarget k a).2) (lowTarget k a).2 true) .ret f)
      | .ok s => match k.rec? with
        | some _ => jump k (modRec k s (fun r => { r with calls := (k.th.pc + 4, false) :: r.calls })) (lowTarget k a).1
        | none => if reuses k .call then
            retireWith k (setAside k s (callEntry k.th.pc k.th.path none false) (k.act &&& ~~~(lowTarget k a).2) (lowTarget k a).2 false)
              { k.th with path := (lowTarget k a).2, pc := (lowTarget k a).1 }
          else spilled k s .store (k.sec.stack.length + 1) k.act (fun _ =>
            retireWith k (setAside k s (callEntry k.th.pc k.th.path none false) (k.act &&& ~~~(lowTarget k a).2) (lowTarget k a).2 false)
              { k.th with path := (lowTarget k a).2, pc := (lowTarget k a).1 })) = t) : exec (.calli a) s = .next t := by
  change execCalli a s = _
  exact (h.guardedForm_eq (u := fun _ => ⟨true, [], [(a, 2)]⟩) _ _ _ hd).trans (congrArg Host.Outcome.next ht)

/-- A push into a new entry, or the change of the one that is reused. -/
theorem reuse_or_push {s t : State} {b : Bool} {n : Nat} {go : Unit → State} (m : Mask) (h : (if b then some (go ()) else pushed k s n (go ())) = some t) :
    (if b then go () else spilled k s .store n m go) = t := by
  cases b with
  | true => exact Option.some.inj h
  | false => exact spilled_push h m

/-- ret by a section takes lanes out, and ends the path with the last (R252). -/
theorem AtIssue.execRet_section (h : AtIssue s k .ret ⟨true, [], []⟩) (hrec : k.rec? = none) (hcall : k.sec.stack.any (fun e => e.kind == .call) = true) :
    exec .ret s = .next (
      if k.th.path &&& ~~~k.act = 0 then (retireWith k (modOwn k s (fun c => { c with stack := leaveBranches k.act c.stack }))
        { k.th with path := k.th.path &&& ~~~k.act }).endPathOf k.team.tid k.sec.role
      else retireWith k (modOwn k s (fun c => { c with stack := leaveBranches k.act c.stack })) { k.th with path := k.th.path &&& ~~~k.act }.advance) := by
  change execRet s = _
  refine (h.guardedForm_eq (u := fun _ => ⟨true, [], []⟩) _ _ _ ?_).trans ?_
  · rw [hcall, Bool.or_true]
  · dsimp only
    rw [hrec]

/-- ret by an ejected lane goes back to its last call, or is recalled where it has none (R254). -/
theorem AtIssue.execRet_lane (h : AtIssue s k .ret ⟨true, [], []⟩) {d c : Nat} {r : LanternRec} (hrec : k.rec? = some (d, c, r)) :
    exec .ret s = .next (match r.calls with
      | [] => recallQuiet k s
      | c :: rest => jump k (modRec k s (fun r => { r with calls := rest })) c.1) := by
  change execRet s = _
  refine (h.guardedForm_eq (u := fun _ => ⟨true, [], []⟩) _ _ _ ?_).trans ?_
  · rw [hrec]
    rfl
  · dsimp only
    rw [hrec] <;> dsimp only <;> cases r.calls <;> rfl

/-! ## Indexed branches -/

/-- The entries that a brx pushes: its own, unless one target takes the whole path or an entry is reused, and one for the lanes that a handler
took out (R248, R80). -/
def brxPushes (k : Iss) (x : Sel) (j : BitVec 16) : Nat :=
  (if k.th.path = (lowTarget k x).2 ∨ reuses k .branch then 0 else 1) + (if cleared k = 0 ∨ j ≠ 0 then 0 else 1)

/-- The end of a brx: the transfer of the lanes of the lowest target, or the fault that it meets (R248, R251). -/
def brxGo (k : Iss) (x : Sel) (join : Option DWord) (again : Bool → State) : State :=
  match targetFault (lowTarget k x).1 (lowTarget k x).2 with
  | some f => raiseSet k (again true) (.to (join.getD (k.th.pc + 4))) f
  | none => retireWith k (again false) { k.th with path := (lowTarget k x).2, pc := (lowTarget k x).1 }

/-- The others of a brx set aside in their entries (R248). -/
def brxAside (k : Iss) (s : State) (x : Sel) (j : BitVec 16) (again : Bool) : State :=
  leaveCleared k (setAside k s (branchEntry k.th.pc (joinAt k.th.pc j.toNat) k.th.path none)
    (k.th.path &&& ~~~cleared k &&& ~~~(lowTarget k x).2) (lowTarget k x).2 again) (joinAt k.th.pc j.toNat) (lowTarget k x).2

/-- brx transfers at once, or sets the others aside first (R248). -/
theorem AtIssue.execBrx_eq {x : Sel} {j : BitVec 16} (h : AtIssue s k (.brx x j) ⟨true, [], [(x, 2)]⟩)
    (hd : k.rec?.isSome = true ∨ brxPushes k x j = 0 ∨ stackLacks k.sec (brxPushes k x j) = false) :
    (k.rec?.isSome = true ∨ (k.th.path = (lowTarget k x).2 ∧ reuses k .branch = false) →
      exec (.brx x j) s = .next (brxGo k x (joinAt k.th.pc j.toNat) (fun _ => s))) ∧
    (¬ (k.rec?.isSome = true ∨ (k.th.path = (lowTarget k x).2 ∧ reuses k .branch = false)) →
      ∀ t, (if brxPushes k x j = 0 then some (brxGo k x (joinAt k.th.pc j.toNat) (brxAside k s x j))
          else pushed k s (k.sec.stack.length + brxPushes k x j) (brxGo k x (joinAt k.th.pc j.toNat) (brxAside k s x j))) = some t →
        exec (.brx x j) s = .next t) := by
  have hpush : (if (k.th.path == (lowTarget k x).2) || reuses k .branch then 0 else 1) + (if cleared k = 0 ∨ j ≠ 0 then 0 else 1) = brxPushes k x j := by
    unfold brxPushes
    simp only [Bool.or_eq_true, beq_iff_eq]
  have halone : (k.rec?.isSome || ((k.th.path == (lowTarget k x).2) && !reuses k .branch)) = true ↔
      (k.rec?.isSome = true ∨ (k.th.path = (lowTarget k x).2 ∧ reuses k .branch = false)) := by simp
  have hexec (t : State) (ht : (if k.rec?.isSome || ((k.th.path == (lowTarget k x).2) && !reuses k .branch) then
        brxGo k x (joinAt k.th.pc j.toNat) (fun _ => s)
      else if brxPushes k x j = 0 then brxGo k x (joinAt k.th.pc j.toNat) (brxAside k s x j)
      else spilled k s .store (k.sec.stack.length + brxPushes k x j) k.act (fun _ => brxGo k x (joinAt k.th.pc j.toNat) (brxAside k s x j))) = t) :
      exec (.brx x j) s = .next t := by
    change execBrx x j s = _
    refine (h.guardedForm_eq (u := fun _ => ⟨true, [], [(x, 2)]⟩) _ _ _ ?_).trans ?_
    · dsimp only
      rw [hpush]
      obtain hd | hd | hd := hd <;> simp [hd]
    · dsimp only
      simp only [hpush]
      exact congrArg Host.Outcome.next ht
  refine ⟨fun ha => hexec _ (if_pos (halone.2 ha)), fun ha t ht => hexec _ ((if_neg (fun hx => ha (halone.1 hx))).trans ?_)⟩
  split at ht
  · next h0 => rw [if_pos h0, Option.some.inj ht]
  · next h0 => rw [if_neg h0, spilled_push ht]

/-- Settles O14: the calls and returns of sections and of ejected lanes, and brx by what its lowest target meets. -/
theorem callsAndIndexedBranches : Obligations.CallsAndIndexedBranches := by
  unfold Obligations.CallsAndIndexedBranches
  refine ⟨⟨?_, ?_, ?_⟩, ?_⟩
  · intro o s k h target
    exact ⟨fun hrec hroom t ht => h.execCall_section hrec hroom ht, fun d c r hrec hroom => h.execCall_lane hrec hroom⟩
  · intro a s k h tg aside put
    have hd (hrec : k.rec? = none) (hroom : reuses k .call = true ∨ stackFull k.sec = false) : (match k.rec? with
        | some (_, _, r) => decide (r.calls.length < 8)
        | none => reuses k .call || !stackFull k.sec) = true := by
      rw [hrec]
      obtain h | h := hroom <;> simp [h]
    refine ⟨fun s' t hrec hroom hword ht => h.execCalli_eq (hd hrec hroom) ?_, fun x s' t hrec hroom hword ht => h.execCalli_eq (hd hrec hroom) ?_,
      fun d c r s' hrec hroom hword => h.execCalli_eq (by rw [hrec]; exact decide_eq_true hroom) ?_⟩
    · rw [hword, hrec]
      exact reuse_or_push k.act ht
    · rw [hword, hrec]
      exact reuse_or_push k.act ht
    · rw [hword, hrec]
      rfl
  · intro s k h left s'
    refine ⟨fun hrec hcall hleft => ?_, fun hrec hcall hleft => ?_, fun d c r hrec hcalls => ?_, fun d c r x l hrec hcalls => ?_⟩
    · rw [h.execRet_section hrec hcall]
      exact congrArg Host.Outcome.next (if_pos hleft)
    · rw [h.execRet_section hrec hcall]
      exact congrArg Host.Outcome.next (if_neg hleft)
    · rw [h.execRet_lane hrec, hcalls]
    · rw [h.execRet_lane hrec, hcalls]
      rfl
  · intro x j s k h tg join alone n aside put go trap hd
    obtain ⟨hone, hmany⟩ := h.execBrx_eq hd
    have hgo (f : Bool → State) (hin : tg.1.toNat < 2 ^ 49) (hal : tg.1.toNat % 4 = 0) : brxGo k x join f = go (f false) := by
      unfold brxGo
      rw [targetFault_none hin hal]
    have hspace (f : Bool → State) (hout : 2 ^ 49 ≤ tg.1.toNat) : brxGo k x join f = trap (f true) cSPACE := by
      unfold brxGo
      rw [targetFault_space hout]
      rfl
    have halign (f : Bool → State) (hin : tg.1.toNat < 2 ^ 49) (hal : tg.1.toNat % 4 ≠ 0) : brxGo k x join f = trap (f true) cALIGN := by
      unfold brxGo
      rw [targetFault_align hin hal]
      rfl
    refine ⟨fun hin hal => ⟨fun ha => ?_, fun ha t ht => ?_⟩, fun hout => ⟨fun ha => ?_, fun ha t ht => ?_⟩, fun hin hal => ⟨fun ha => ?_, fun ha t ht => ?_⟩⟩
    · rw [hone ha, hgo _ hin hal]
    · exact hmany ha t (by rw [hgo _ hin hal]; exact ht)
    · rw [hone ha, hspace _ hout]
    · exact hmany ha t (by rw [hspace _ hout]; exact ht)
    · rw [hone ha, halign _ hin hal]
    · exact hmany ha t (by rw [halign _ hin hal]; exact ht)

end Sys2Proof.Claims
end

section
/-!
PROOFS. Holds and assertions, the handler's returns, services and sends.
-/

namespace Sys2Proof.Machine

/-! ## Little-endian fields -/

theorem ofBytes_append (a b : List Byte) : ofBytes (a ++ b) = ofBytes a + 256 ^ a.length * ofBytes b := by
  induction a with
  | nil => simp [ofBytes]
  | cons x r ih =>
    rw [List.cons_append, ofBytes, ofBytes, ih, List.length_cons, Nat.pow_succ, Nat.mul_add, Nat.add_assoc, Nat.mul_left_comm,
      Nat.mul_assoc]

/-- What stands behind `n` bytes of a little-endian number. -/
theorem ofBytes_append_div (a b : List Byte) (n : Nat) (hn : a.length = n) : ofBytes (a ++ b) / 256 ^ n = ofBytes b := by
  have hlt : ofBytes a < 256 ^ n := by
    subst hn
    induction a with
    | nil => simp [ofBytes]
    | cons x r ih =>
      have hx : x.toNat < 256 := x.isLt
      rw [ofBytes, List.length_cons, Nat.pow_succ]
      omega
  rw [ofBytes_append, hn, Nat.add_mul_div_left _ _ (Nat.pow_pos (by decide)), Nat.div_eq_of_lt hlt, Nat.zero_add]

/-- What the first `n` bytes of a little-endian number hold. -/
theorem ofBytes_append_mod (v : Nat) (b : List Byte) (n : Nat) : ofBytes (toBytes n v ++ b) % 256 ^ n = v % 256 ^ n := by
  rw [ofBytes_append, toBytes_length, Nat.add_mul_mod_self_left, ofBytes_toBytes, Nat.mod_mod]

/-! ## The header of a request -/

/-- A field of a little-endian number that stands behind `a`. -/
theorem bits_field (a b : List Byte) (m n v : Nat) (ha : a.length = m) :
    bits (ofBytes (a ++ (toBytes n v ++ b))) (8 * m) (8 * n) = v % 256 ^ n := by
  unfold bits
  rw [Nat.pow_mul, Nat.pow_mul, show (2 : Nat) ^ 8 = 256 from rfl, ofBytes_append_div a _ m ha, ofBytes_append_mod]

/-- What a request's header says (R137): its number, its service, whether it goes on, and its reply word. -/
theorem reqHeader_fields (id num lanes : Nat) (t : Team) (role : Nat) (nw : Bool) (rw : DWord) (hid : id < 2 ^ 64) (hnum : num < 2 ^ 32) :
    bits (ofBytes (reqHeader id num lanes t role nw rw.toNat)) 0 64 = id ∧ bits (ofBytes (reqHeader id num lanes t role nw rw.toNat)) 64 32 = num ∧
      (bits (ofBytes (reqHeader id num lanes t role nw rw.toNat)) 168 1 == 1) = nw ∧
      BitVec.ofNat 64 (bits (ofBytes (reqHeader id num lanes t role nw rw.toNat)) 192 64) = rw := by
  have hseq := bits_field [] (toBytes 4 num ++ toBytes 2 lanes ++ toBytes 1 t.die ++ toBytes 1 t.core ++ toBytes 4 t.index ++ toBytes 1 role
    ++ toBytes 1 (b2n nw) ++ toBytes 2 0 ++ toBytes 8 rw.toNat) 0 8 id rfl
  have hserv := bits_field (toBytes 8 id) (toBytes 2 lanes ++ toBytes 1 t.die ++ toBytes 1 t.core ++ toBytes 4 t.index ++ toBytes 1 role
    ++ toBytes 1 (b2n nw) ++ toBytes 2 0 ++ toBytes 8 rw.toNat) 8 4 num (by simp)
  have hflag := bits_field (toBytes 8 id ++ toBytes 4 num ++ toBytes 2 lanes ++ toBytes 1 t.die ++ toBytes 1 t.core ++ toBytes 4 t.index ++ toBytes 1 role)
    (toBytes 2 0 ++ toBytes 8 rw.toNat) 21 1 (b2n nw) (by simp)
  have hword := bits_field (toBytes 8 id ++ toBytes 4 num ++ toBytes 2 lanes ++ toBytes 1 t.die ++ toBytes 1 t.core ++ toBytes 4 t.index ++ toBytes 1 role
    ++ toBytes 1 (b2n nw) ++ toBytes 2 0) [] 24 8 rw.toNat (by simp)
  simp only [List.nil_append, List.append_nil, ← List.append_assoc] at hseq hserv hflag hword
  unfold reqHeader
  refine ⟨hseq.trans (Nat.mod_eq_of_lt (by simpa using hid)), hserv.trans (Nat.mod_eq_of_lt (by simpa using hnum)), ?_, ?_⟩
  · have hbit (v : Nat) : bits v 168 1 = bits v (8 * 21) (8 * 1) % 2 := by
      unfold bits
      exact (Nat.mod_mod_of_dvd _ (by decide : 2 ∣ 2 ^ (8 * 1))).symm
    rw [hbit, hflag]
    cases nw <;> rfl
  · exact (congrArg (BitVec.ofNat 64) (hword.trans (Nat.mod_eq_of_lt rw.isLt))).trans (by simp)

end Sys2Proof.Machine

namespace Sys2Proof.Claims
open Sys2Proof.Machine

variable {s : State} {k : Iss} {i : Instr}

/-- Settles O37: each form's effect once its issue rule applies. -/
theorem holdsAndAsserts : Obligations.HoldsAndAsserts := by
  unfold Obligations.HoldsAndAsserts
  refine ⟨fun s k h hrec => ?_, fun s k h hrec hmay => ?_, fun a s k h => ?_, fun s k h => ?_⟩
  · change execBrkpt s = _
    refine (h.pathForm_eq (u := fun _ => ⟨true, [], []⟩) _ _ rfl).trans ?_
    dsimp only
    rw [hrec]
  · obtain ⟨r, hr⟩ := Option.isSome_iff_exists.1 hrec
    change execBrkpt s = _
    refine (h.pathForm_eq (u := fun _ => ⟨true, [], []⟩) _ _ rfl).trans ?_
    dsimp only
    rw [hr, hmay]
    rfl
  · change execAssert a s = _
    exact h.guardedForm_eq (u := fun k => usesUnlatched k ⟨true, [], [(a, 2)]⟩) _ _ _ rfl
  · change execHold s = _
    exact h.form_eq (u := fun _ => ⟨true, [], []⟩) _ _ rfl

/-! ## The handler's returns -/

/-- A handler that a fault entered whose SKIP is a return (R251). -/
def returningHandler : HandlerState := ⟨1, 0, .running, 0x27, .trap, 0x400000, 0x41, .ret, none, false⟩

/-- A section in that handler. -/
def returningSection : Section :=
  { newSection 0 0 1 192 0x400000 [] false false false with hmode := true, state := .handler, hs := some returningHandler }

/-- A team that holds that section and, under the same role, another whose TRAPPC is 8. -/
def twiceInRole : State :=
  { bootProgram State.reset with teams := [{ bootTeam with secs := [returningSection, { returningSection with trapPc := 8 }] }], sel := some (.sect 0 0) }

/-- The issuer of that state. -/
def returningIssuer : Iss :=
  ⟨{ bootTeam with secs := [returningSection, { returningSection with trapPc := 8 }] }, returningSection, none, returningSection.th, returningSection.th.path,
    returningSection.th.guarded returningSection.th.path⟩

/-- The PCs of the sections of a state's teams. -/
def sectionPcs (s : State) : List (List DWord) := s.teams.map (fun t => t.secs.map (fun c => c.th.pc))

/-- Refutes O38: of a skip that ends as a return, the model writes into every section of the issuer's role that section's own TRAPPC, where the
statement writes the issuer's; they differ where a team holds two sections of one role, which the statement does not exclude. -/
theorem not_handlerReturns : ¬ Obligations.HandlerReturns := by
  unfold Obligations.HandlerReturns
  intro ⟨hreturns, _, _⟩
  obtain ⟨_, _, _, _, _, _, hret, _⟩ := hreturns twiceInRole returningIssuer returningHandler rfl rfl rfl rfl
  have hskip := hret (by decide) rfl rfl
  have hpcs : (match exec .skip twiceInRole with
    | .next t => sectionPcs t
    | _ => []) = [[0, 8]] := by decide +kernel
  rw [hskip] at hpcs
  exact absurd hpcs (by decide +kernel)

/-! ## Services and sends -/

/-- A request that may be posted is posted as its header says (R138). -/
theorem tryPost_posts {s : State} {tid role id num : Nat} {t : Team} {c : Section} {w : SvcWait} {r : List SvcWait} {nw : Bool} {rw : DWord}
    {blocks : List (List Byte)} (ht : s.team? tid = some t) (hc : s.sec? tid role = some c) (hp : c.svcPending = w :: r)
    (hw : w.req = waitingReq num t role nw rw blocks id) (hnum : num < 2 ^ 32) (hid : id < 2 ^ 64) (hperf : s.olderPerformed t c none w.before 4 = true)
    (hfits : reqFits (s.sliceAt t.die (svcSlice t)) blocks.length = true) :
    s.tryPost tid role =
      if nw then (postReq (s.modSec tid role (fun c => { c with svcPending := r })) t role num nw rw blocks id).opDone t.tid role id
      else postReq (s.modSec tid role (fun c => { c with svcPending := r })) t role num nw rw blocks id := by
  obtain ⟨hseq, hserv, hflag, hword⟩ := reqHeader_fields id num blocks.length t role nw rw hid hnum
  unfold State.tryPost
  simp only [ht, hc, hp, hw, hperf, waitingReq, List.length_cons, Nat.add_sub_cancel, hfits, Bool.and_self, if_true]
  unfold postWaiting
  dsimp only
  rw [hseq, hserv, hflag, hword]

/-- A send to a context of a peer device, under its release (R376): the status is 2 for one that no route or no link reaches. -/
def sendPeer (k : Iss) (s : State) (d : Sel) (ctx vec : Nat) (pay : DWord) : State :=
  match s.route? k.team.ctx (ctx % 0x8000) with
  | none => sendStatus k s d k.act 2
  | some (pctx, dev) =>
    if !s.peers.contains dev then sendStatus k s d k.act 2
    else modOwn k { s with nextOp := s.nextOp + 1 } (fun c => { c with
      peerSend := some ⟨s.nextOp, pctx, dev, vec, pay, k.rec?.map (fun r => r.2.2.id), d, k.act⟩ })

theorem sendPeer_unknown {d : Sel} {ctx vec : Nat} {pay : DWord} (h : s.route? k.team.ctx (ctx % 0x8000) = none ∨
    ∃ x, s.route? k.team.ctx (ctx % 0x8000) = some x ∧ s.peers.contains x.2 = false) :
    sendPeer k (noteRelease k s) d ctx vec pay = sendStatus k (noteRelease k s) d k.act 2 := by
  have hsame : (noteRelease k s).route? k.team.ctx (ctx % 0x8000) = s.route? k.team.ctx (ctx % 0x8000) := rfl
  unfold sendPeer
  rw [hsame]
  obtain h | ⟨x, h, hdev⟩ := h
  · rw [h]
  · rw [h]
    refine if_pos ?_
    rw [show (noteRelease k s).peers = s.peers from rfl, hdev]
    rfl

theorem sendPeer_known {d : Sel} {ctx vec p dev : Nat} {pay : DWord} (h : s.route? k.team.ctx (ctx % 0x8000) = some (p, dev))
    (hdev : s.peers.contains dev = true) :
    sendPeer k (noteRelease k s) d ctx vec pay = modOwn k { noteRelease k s with nextOp := s.nextOp + 1 } (fun c => { c with
      peerSend := some ⟨s.nextOp, p, dev, vec, pay, k.rec?.map (fun r => r.2.2.id), d, k.act⟩ }) := by
  have hsame : (noteRelease k s).route? k.team.ctx (ctx % 0x8000) = s.route? k.team.ctx (ctx % 0x8000) := rfl
  unfold sendPeer
  rw [hsame, h]
  refine if_neg ?_
  rw [show (noteRelease k s).peers = s.peers from rfl, hdev]
  exact Bool.false_ne_true

/-- A send whose older operations have performed goes to a belfry of the device, or to a peer (R345). -/
theorem AtIssue.execUisend_eq {d b : Sel} (h : AtIssue s k (.uisend d b) ⟨false, [(d, 1)], [(b, 4)]⟩) (hperf : s.performed k 3 = true)
    (hfree : k.sec.peerSend = none) (hctx : (k.th.kreg (uniNo b)).toNat < 2 ^ 16) (hvec : (k.th.kreg (uniNo b + 1)).toNat < 64) :
    exec (.uisend d b) s = .next (
      let ctx := (k.th.kreg (uniNo b)).toNat
      let vec := (k.th.kreg (uniNo b + 1)).toNat
      let pay := k.th.kpair (uniNo b + 2)
      let s1 := noteRelease k s
      if 0x8000 ≤ ctx then sendPeer k s1 d ctx vec pay
      else sendStatus k (s1.accept ctx vec pay (s1.permits ctx 3 vec (some k.team.ctx))).2 d k.act
        (s1.accept ctx vec pay (s1.permits ctx 3 vec (some k.team.ctx))).1) := by
  have hhigh {w : Word} {n : Nat} (hw : w.toNat < 2 ^ n) (m : Nat) : (w.extractLsb' n m == 0) = true := by
    rw [beq_iff_eq]
    refine BitVec.eq_of_toNat_eq ?_
    rw [BitVec.extractLsb'_toNat, Nat.shiftRight_eq_div_pow, Nat.div_eq_of_lt hw]
    rfl
  change execUisend d b s = _
  refine (h.guardedForm_eq (u := fun _ => ⟨false, [(d, 1)], [(b, 4)]⟩) _ _ _ ?_).trans ?_
  · dsimp only
    rw [Nat.add_zero, hhigh hctx, hhigh (n := 6) (by simpa using hvec)]
    rfl
  · dsimp only
    rw [hperf, hfree]
    simp only [Bool.not_true, Option.isSome_none, Bool.or_self, Bool.false_eq_true, if_false, Nat.add_zero]
    rfl

/-- Settles O39: a service by its W bit and its issuer; a send by its target; the idempotent region. -/
theorem services : Obligations.Services := by
  unfold Obligations.Services
  refine ⟨?_, ?_, ?_, ?_, ?_⟩
  · intro h l s k num ls blocks queued
    refine ⟨fun hissue hrec hroom => ?_, fun hissue hrec => ?_, fun w hissue hrec => ?_⟩
    · change execSvc true h l s = _
      refine (hissue.guardedForm_eq (u := fun k => usesUnlatched k ⟨true, [], []⟩) _ _ _ rfl).trans ?_
      dsimp only
      rw [hrec]
      exact congrArg Host.Outcome.next (if_neg (by simpa using Nat.ne_of_lt hroom))
    · change execSvc false h l s = _
      refine (hissue.guardedForm_eq (u := fun k => usesUnlatched k ⟨true, [], []⟩) _ _ _ rfl).trans ?_
      dsimp only
      rw [hrec]
      rfl
    · obtain ⟨r, hr⟩ := Option.isSome_iff_exists.1 hrec
      change execSvc w h l s = _
      refine (hissue.guardedForm_eq (u := fun k => usesUnlatched k ⟨true, [], []⟩) _ _ _ rfl).trans ?_
      dsimp only
      rw [hr]
  · intro s tid role id num t c w r nw rw blocks ht hc hp hw hnum hid hperf hfits s1
    exact tryPost_posts ht hc hp hw hnum hid hperf hfits
  · intro d b s k hissue hperf hfree ctx vec pay s1 hctx hvec
    have hexec := hissue.execUisend_eq hperf hfree hctx hvec
    refine ⟨fun hown => ?_, fun hpeer hnone => ?_, fun p dev hpeer hroute hdev => ?_⟩
    · rw [hexec]
      exact congrArg Host.Outcome.next (if_neg (Nat.not_le.2 hown))
    · rw [hexec]
      refine congrArg Host.Outcome.next ((if_pos hpeer).trans ?_)
      cases hroute : s.route? k.team.ctx (ctx % 0x8000) with
      | none => exact sendPeer_unknown (.inl hroute)
      | some x => exact sendPeer_unknown (.inr ⟨x, hroute, hnone x.1 x.2 hroute⟩)
    · rw [hexec]
      exact congrArg Host.Outcome.next ((if_pos hpeer).trans (sendPeer_known hroute hdev))
  · intro s k h hidem hstack hmode
    change execIdemEnter s = _
    refine h.form_eq (u := fun _ => ⟨true, [], []⟩) _ _ ?_
    simp only [hidem, hstack, hmode, List.isEmpty_nil, Bool.not_false, Bool.and_self, Bool.or_true]
  · intro s k h hidem
    change execIdemLeave s = _
    refine h.form_eq (u := fun _ => ⟨true, [], []⟩) _ _ ?_
    simp only [hidem, Bool.or_true]

end Sys2Proof.Claims
end

section
/-!
PROOFS. What schedulers and timers do to a section, and what it meets at its boundary.
-/

namespace Sys2Proof.Machine

theorem killOn_role (c : Section) (ports : List Nat) : (killOn c ports).role = c.role := rfl

/-- A section that waits for what has come is made ready (R75). -/
theorem endWait_over {s : State} {tid role : Nat} {t : Team} {c : Section} (ht : s.team? tid = some t) (hc : s.sec? tid role = some c)
    (hwait : c.state = .waiting) (hover : waitOver t c c.waitFor s = true) : s.endWait tid role = s.modSec tid role wakeUp := by
  unfold State.endWait
  rw [ht, hc]
  exact if_pos ⟨hwait, hover⟩

/-- With no release to come nothing is released. -/
theorem tryRelease_nil {s : State} {tid role : Nat} {c : Section} (hc : s.sec? tid role = some c) (hnil : c.releases = []) :
    s.tryRelease tid role = s := by
  unfold State.tryRelease
  cases ht : s.team? tid with
  | none => rfl
  | some t => simp only [hc, hnil, List.find?_nil]

/-- A parked section is held at its restore (R75). -/
theorem requestHold_parked {c : Section} (hparked : c.state = .parked) : requestHold c = { c with holdReq := true } := by
  unfold requestHold
  split
  · next h => cases hparked.symm.trans h
  · next h => cases hparked.symm.trans h
  · rfl
  · next h => exact absurd hparked h

/-- At a boundary the step's section is held at once (R93). -/
theorem requestHold_recordStep_held {c : Section} (hover : underWay c = false) (hheld : c.state ≠ .held) (hexited : c.state ≠ .exited)
    (hparked : c.state ≠ .parked) (hstep : c.stepping = false ∨ c.state = .waiting) : requestHold (recordStep c) = holdNow (recordStep c) := by
  have hnow : (underWay (recordStep c) || (recordStep c).stepDone || ((recordStep c).stepping && (recordStep c).state != .waiting)) = false := by
    rw [show underWay (recordStep c) = underWay c from rfl, hover, show (recordStep c).stepDone = false from rfl,
      show (recordStep c).stepping = c.stepping from rfl, show (recordStep c).state = c.state from rfl]
    obtain h | h := hstep <;> simp [h]
  unfold requestHold
  rw [hnow]
  simp only [Bool.false_eq_true, if_false]
  rw [show (recordStep c).state = c.state from rfl]
  cases h : c.state with
  | exited => exact absurd h hexited
  | held => exact absurd h hheld
  | parked => exact absurd h hparked
  | running => rfl
  | waiting => rfl
  | ejectedPending => rfl
  | handler => rfl

end Sys2Proof.Machine

namespace Sys2Proof.Claims
open Sys2Proof.Machine

variable {s : State} {tid role : Nat} {c : Section}

/-- An act that changes one section makes it what the change makes of it. -/
theorem becomes_of_modSec {i : Instr} (hc : s.sec? tid role = some c) (f : Section → Section) (hexec : exec i s = .next (s.modSec tid role f))
    (hrole : ∀ c, (f c).role = c.role) : Becomes i s tid role (f c) := by
  refine ⟨_, hexec, ?_, rfl, rfl, rfl⟩
  rw [sec?_modSec_same s tid role f hrole, hc]
  rfl

/-- An act that changes a section only where a condition holds, which does. -/
theorem becomes_of_modSec_if {i : Instr} (hc : s.sec? tid role = some c) {p : Section → Prop} [DecidablePred p] (f : Section → Section)
    (hexec : exec i s = .next (s.modSec tid role (fun c => if p c then f c else c))) (hp : p c) (hrole : ∀ c, (f c).role = c.role) :
    Becomes i s tid role (f c) := by
  have hbec := becomes_of_modSec hc (fun c => if p c then f c else c) hexec (fun c => by
    by_cases h : p c
    · rw [if_pos h, hrole]
    · rw [if_neg h])
  rwa [if_pos hp] at hbec

/-- Settles O40: each act changes its section, the conditions of its rule met. -/
theorem schedulingEvents : Obligations.SchedulingEvents := by
  unfold Obligations.SchedulingEvents
  intro s tid role t c ht hc
  refine ⟨?_, ?_, ?_, ?_, ?_, ?_, ?_, ?_, ?_, ?_, ?_⟩
  · intro hnil hwait hover
    refine becomes_of_modSec hc wakeUp ?_ (fun _ => rfl)
    change Host.Outcome.next ((s.tryRelease tid role).endWait tid role) = _
    rw [tryRelease_nil hc hnil, endWait_over ht hc hwait hover]
  · intro r q hrel hbank hperf s1
    change Host.Outcome.next ((s.tryRelease tid role).endWait tid role) = _
    rw [tryRelease_first ht hc hbank hrel hperf]
  · intro hwait hon hfor hserved
    have hbec := becomes_of_modSec (i := .heldLoadComplete tid role) hc wakeUp ?_ (fun _ => rfl)
    · unfold wakeUp at hbec
      rwa [hon, if_pos rfl] at hbec
    · have hnone : s.homes.any (fun h => h.ctx == t.ctx && !h.failed && h.who.contains (tid, role)) = false := by
        rw [List.any_eq_false]
        intro h hh
        have := hserved h hh
        simp only [Bool.and_eq_true, beq_iff_eq, Bool.not_eq_true', List.contains_iff_mem, not_and]
        exact fun hx => this hx.1 hx.2
      change execHeldLoadComplete tid role s = _
      unfold execHeldLoadComplete
      rw [ht, hc]
      exact congrArg Host.Outcome.next (if_pos ⟨hwait, hon, hfor, hnone⟩)
  · intro hexited hen hpast
    refine becomes_of_modSec_if hc (p := fun c => c.state ≠ .exited ∧ alarmPassed s c = true) (fun c => { c with alarmDue := true }) rfl
      ⟨hexited, ?_⟩ (fun _ => rfl)
    unfold alarmPassed
    rw [hen]
    exact decide_eq_true hpast
  · intro hready hstalled
    refine becomes_of_modSec_if hc (p := fun c => readyPass t c = true ∧ (!s.stalled.contains (tid, role)) = true) (fun c => { c with aged := true }) ?_
      ⟨hready, by simpa using hstalled⟩ (fun _ => rfl)
    change execAging tid role s = _
    unfold execAging
    rw [ht]
  · intro hexited hdelayed
    exact becomes_of_modSec_if hc (p := fun c => c.state ≠ .exited ∧ (!c.delayed) = true) (fun c => { c with bkLevel := 0, parkElig := none }) rfl
      ⟨hexited, by rw [hdelayed]; rfl⟩ (fun _ => rfl)
  · exact becomes_of_modSec hc (fun c => { c with delayed := false }) rfl (fun _ => rfl)
  · exact becomes_of_modSec hc (fun c => { c with resumed := false }) rfl (fun _ => rfl)
  · intro hlevel hexited helig
    exact becomes_of_modSec_if hc (p := fun c => c.bkLevel = 7 ∧ c.state ≠ .exited ∧ c.parkElig = none) (fun c => { c with parkElig := some s.stepNo }) rfl
      ⟨hlevel, hexited, helig⟩ (fun _ => rfl)
  · intro die core idx r hr htid hrole hrun
    change execLanternExec die core idx s = _
    unfold execLanternExec
    rw [hr]
    dsimp only
    rw [htid, hrole, ht, hc]
    exact congrArg Host.Outcome.next (if_pos hrun)
  · intro die core port hlast
    refine becomes_of_modSec hc (fun c => killOn c [port]) ?_ (fun c => killOn_role c [port])
    change execLatchIdleInvalidate die core port s = _
    unfold execLatchIdleInvalidate
    rw [hlast]

/-- Settles O41: each act at the boundary, the conditions of its rule met. -/
theorem boundaryEvents : Obligations.BoundaryEvents := by
  unfold Obligations.BoundaryEvents
  refine ⟨fun s tid role t c ht hc => ⟨?_, ?_, ?_, ?_⟩, ?_⟩
  · intro hdue hbound hbkpt
    change execAlarmTrap tid role s = _
    unfold execAlarmTrap
    rw [ht, hc]
    exact congrArg Host.Outcome.next (if_pos ⟨hdue, hbound, by rw [hbkpt]; rfl⟩)
  · intro hdone hover lane c'
    have hexec (hheld : c.state ≠ .held) (hexited : c.state ≠ .exited) :
        exec (.stepHold tid role) s = .next (s.modSec tid role (fun c => requestHold (recordStep c))) := by
      change execStepHold tid role s = _
      unfold execStepHold
      rw [hc]
      exact congrArg Host.Outcome.next (if_pos ⟨hdone, by rw [hover]; rfl, hheld, hexited⟩)
    have hrole (c : Section) : (requestHold (recordStep c)).role = c.role := by
      unfold requestHold
      split
      · rfl
      · rfl
      · rfl
      · split <;> rfl
    refine ⟨fun hparked => ?_, fun hheld hexited hparked hstep => ?_⟩
    · have hbec := becomes_of_modSec hc _ (hexec (by rw [hparked]; decide) (by rw [hparked]; decide)) hrole
      rw [requestHold_parked (c := recordStep c) hparked] at hbec
      exact hbec
    · have hbec := becomes_of_modSec hc _ (hexec hheld hexited) hrole
      rw [requestHold_recordStep_held hover hheld hexited hparked hstep] at hbec
      exact hbec
  · intro i act hiss hstate hno hover hbank hdone hstepping hhold hbk x
    have hdue : bkptDue s t c = true := by
      unfold bkptDue
      rw [hno, hbk]
      obtain h | h := hstate <;> simp [h]
    change execBreakpointMatch tid role s = _
    unfold execBreakpointMatch
    rw [ht, hc, hiss]
    refine congrArg Host.Outcome.next ((if_pos ⟨hdue, by rw [hover]; rfl, by rw [hdone]; rfl, by rw [hstepping]; rfl, by rw [hhold]; rfl, hbank⟩).trans ?_)
    rw [hbk]
    dsimp only
    unfold takeBreak
    rw [sec?_role hc]
  · intro k d n i r act c' hiss hrec htid hrole hmay hbk hc'
    change execBreakpointMatch tid role s = _
    unfold execBreakpointMatch
    rw [ht, hc, hiss]
    simp only [Option.bind_some, hrec, Option.map_some, htid, hrole, hmay, and_self, if_true, hbk, hc']
  · intro s s1 ctx n t c hturn s2 s3
    change execUiDelivery ctx s = _
    unfold execUiDelivery
    rw [hturn]
    rfl

end Sys2Proof.Claims
end

section
/-!
PROOFS. The matrix majors, their tiles, curves and maps.
-/

namespace Sys2Proof.Machine

/-! ## Reading records in a scratchpad -/

/-- With no uncorrected error in some ranges there is none in fewer. -/
theorem failedIn_subset {s : State} {tid : Nat} {rs rs' : List (Nat × Nat)} (h : s.failedIn tid rs = none) (hsub : ∀ r ∈ rs', r ∈ rs) :
    s.failedIn tid rs' = none := by
  unfold State.failedIn at h ⊢
  split at h
  · next he => rw [if_pos he]
  · next he =>
    rw [if_neg he, List.findSome?_eq_none_iff]
    rw [List.findSome?_eq_none_iff] at h
    exact fun r hr => h r (hsub r hr)

/-- A record whose lines are present and whose bytes are good is read at once, whatever fault would come before a reading that waits. -/
theorem whenRecord_go {s : State} {k : Iss} {rs : List (Nat × Nat)} (hown : s.ownRemote k (.team k.team.tid 0) 1 = false)
    (hhere : touch s k.team.tid (rs.flatMap (fun r => rangeLines r.1 r.2)) = .ok) (hsound : s.failedIn k.team.tid rs = none) (m : Mask)
    (reg : Option Trap) (go : Unit → State) : whenRecord k s m reg rs go = go () := by
  unfold whenRecord State.readsNow
  rw [hown, hhere, hsound]
  rfl

/-- Fewer sources meet no fault that more do not meet. -/
theorem regFault_filter_src {th : Thread} {act : Mask} {n : Bool} {dst src : List (Sel × Nat)} (p : Sel × Nat → Bool)
    (h : regFault th act ⟨n, dst, src⟩ = none) : regFault th act ⟨n, dst, src.filter p⟩ = none := by
  have hleast {l : List Nat} : least l = none → l = [] := by
    cases l with
    | nil => exact fun _ => rfl
    | cons x r =>
      intro hl
      simp only [least] at hl
      revert hl
      generalize hr : least r = o
      cases o <;> simp
  unfold regFault at h ⊢
  dsimp only at h ⊢
  split at h
  · cases h
  · next hbudget =>
    have hnone : (dst ++ src).filterMap (overBudget th.budget) = [] := hleast hbudget
    have hnone' : (dst ++ src.filter p).filterMap (overBudget th.budget) = [] := by
      rw [List.filterMap_eq_nil_iff] at hnone ⊢
      intro x hx
      refine hnone x ?_
      rcases List.mem_append.1 hx with hx | hx
      · exact List.mem_append_left _ hx
      · exact List.mem_append_right _ (List.mem_filter.1 hx).1
    rw [hnone']
    simp only [least]
    split at h
    · cases h
    · next huni =>
      rw [huni]
      dsimp only
      split at h
      · cases h
      · next hlatch =>
        rw [List.find?_eq_none] at hlatch
        have : (src.filter p).find? (fun x => decide (0xF0 ≤ x.1.toNat ∧ x.1.toNat < 0xF4) &&
            (groupsOf act th.groups).any (fun g => !th.latchReadable g (x.1.toNat - 0xF0))) = none := by
          rw [List.find?_eq_none]
          exact fun x hx => hlatch x (List.mem_filter.1 hx).1
        rw [this]

theorem regFault_usesUnlatched {th : Thread} {act : Mask} {k : Iss} {u : Uses} (h : regFault th act u = none) :
    regFault th act (usesUnlatched k u) = none := by
  unfold usesUnlatched
  split
  · exact regFault_filter_src _ h
  · exact h

end Sys2Proof.Machine

namespace Sys2Proof.Claims
open Sys2Proof.Machine

variable {s : State} {k : Iss} {i : Instr}

/-! ## The majors -/

/-- Every record of a ready major lies where one may lie. -/
theorem MatReady.placed {m : MatKind} {d a b : Sel} (h : MatReady m i s k d a b) {g : Nat} (hg : g ∈ groupsOf k.act k.th.groups) :
    recPlaced k.team (recAt k b g) = true := by
  have hlegal := h.legal g hg
  unfold recIn at hlegal
  by_cases hp : recPlaced k.team (recAt k b g) = true
  · exact hp
  · rw [if_neg hp] at hlegal
    cases hlegal

/-- Every group of a ready major has its pass. -/
theorem MatReady.pass_mem {m : MatKind} {d a b : Sel} (h : MatReady m i s k d a b) {g : Nat} (hg : g ∈ groupsOf k.act k.th.groups) :
    ∃ r, (⟨g, groupLanes k g, recAt k b g, r⟩ : MatPass) ∈ matPasses k b := by
  have hlegal := h.legal g hg
  cases hr : recIn k b g with
  | none =>
    rw [hr] at hlegal
    cases hlegal
  | some r => exact ⟨r, List.mem_filterMap.2 ⟨g, hg, by rw [hr]; rfl⟩⟩

/-- The records of a ready major are read at once. -/
theorem MatReady.recordsRead {m : MatKind} {d a b : Sel} (h : MatReady m i s k d a b) (reg : Option Trap) (go : Unit → State) :
    whenRecord k s k.act reg (((groupsOf k.act k.th.groups).filter (fun g => recPlaced k.team (recAt k b g))).map (fun g => (recAt k b g, 16))) go
      = go () := by
  have hall : (groupsOf k.act k.th.groups).filter (fun g => recPlaced k.team (recAt k b g)) = groupsOf k.act k.th.groups :=
    List.filter_eq_self.2 (fun g hg => h.placed hg)
  rw [hall]
  refine whenRecord_go h.records.own h.records.here (failedIn_subset h.sound (fun r hr => ?_)) k.act reg go
  obtain ⟨g, hg, rfl⟩ := List.mem_map.1 hr
  obtain ⟨r, hp⟩ := h.pass_mem hg
  exact List.mem_flatMap.2 ⟨_, hp, List.mem_cons_self⟩

theorem bmapFault_none {m : MatKind} (h : m ≠ .mma → ∀ i < 64, (tget 0 k.sec.bmap i).toNat < 8) : bmapFault m k = none := by
  unfold bmapFault
  refine if_neg (fun ⟨hm, hbad⟩ => ?_)
  obtain ⟨x, hx, hx8⟩ := List.any_eq_true.1 hbad
  have hlt := h hm x (List.mem_range.1 hx)
  have hge := of_decide_eq_true hx8
  omega

/-- The end of a ready major (R292 to R301): its registers, latches and flags with the taps that it holds back, its emulation, or, on the lantern,
all of it at once. -/
def matEnd (m : MatKind) (k : Iss) (n : Bool) (d a b : Sel) (s : State) : State :=
  let r := matRes m k n d a (matPasses k b)
  match k.rec? with
  | none =>
    if emulated k b then waitOn k (modOwn k s (fun c => { c with emu := some r, th := c.th.killLatches })) .fmtEmu .event
    else modOwn k (retireWith k s (k.th.putMat k.path k.act r).advance) (fun c => { c with taps := r.taps })
  | some _ =>
    retireWith k (s.modTeam k.team.tid (fun t => { t with scratch := tsets 0 t.scratch r.taps }))
      (if emulated k b then (k.th.putMat k.path k.act r).killLatches else k.th.putMat k.path k.act r).advance

/-- A ready major meets none of its faults and waits. -/
theorem MatReady.matForm_eq {m : MatKind} {d a b : Sel} (h : MatReady m i s k d a b) (n : Bool) :
    matForm m i n d a b s = .next (matEnd m k n d a b s) := by
  have hlegal : (groupsOf k.act k.th.groups).findSome? (fun g => matOpnd m k d.toNat a.toNat g (recAt k b g) (recIn k b g)) = none :=
    List.findSome?_eq_none_iff.2 h.legal
  have hcurves : (if m = .mma then none else (matPasses k b).findSome? (badSlot k.sec)) = none := by
    split
    · rfl
    · next hm => exact List.findSome?_eq_none_iff.2 (h.curves hm)
  have hcopies : (decide (m = .mmad) && (matPasses k b).any (fun p => s.copyReads k p.r.tap (1024 * (topBranch k.sec (matK p.r.afmt) + 1)))) = false := by
    rw [Bool.and_eq_false_iff, decide_eq_false_iff_not, List.any_eq_false]
    by_cases hm : m = .mmad
    · exact .inr (fun p hp => by rw [h.copies hm p hp]; exact Bool.false_ne_true)
    · exact .inl hm
  unfold matForm
  rw [issued_some _ h.issuer]
  refine congrArg Host.Outcome.next ?_
  rw [staticOk, h.formed]
  simp only [Bool.not_true, Bool.false_eq_true, if_false, if_neg h.active]
  refine (h.recordsRead _ _).trans ?_
  have husable := h.usable
  have hread (go : Unit → State) : matTouch k s ((matPasses k b).flatMap (fun p => m.scales p.r ++ m.tapsUsed k.sec p.r)) go = go () :=
    whenPresent_go h.regions.own h.regions.here k.act go
  have hgood (go : Unit → State) : unlessFailed k s k.act (m.reads k.sec (matPasses k b)) go = go () := unlessFailed_go h.sound k.act go
  unfold matEnd emulated
  unfold matPasses recIn recAt groupLanes at hlegal husable hcurves hcopies hread hgood ⊢
  simp only [hlegal, husable, bmapFault_none h.map, hcurves, hread, hgood, hcopies, Bool.false_eq_true, if_false] <;> rfl

/-- Settles O24: a ready major ends as its issuer and the formats of its passes say. -/
theorem matrixMajors : Obligations.MatrixMajors := by
  unfold Obligations.MatrixMajors
  intro m i n d a b hrule s k h r th
  have hexec : exec i s = .next (matEnd m k n d a b s) := by
    have heq := h.matForm_eq n
    cases hrule with
    | mma => exact heq
    | mmad => exact heq
    | mmadg => exact heq
    | mmadw => exact heq
  rw [hexec]
  refine ⟨fun hrec hemu => ?_, fun hrec hemu => ?_, fun hrec => ?_⟩
  · unfold matEnd
    rw [hrec, hemu]
    rfl
  · unfold matEnd
    rw [hrec, hemu]
    rfl
  · obtain ⟨x, hx⟩ := Option.ne_none_iff_exists'.1 hrec
    unfold matEnd
    rw [hx]

/-! ## Tiles, curves and maps -/

/-- mldn and mldw load the tiles of the path's ports (R291). -/
theorem mldForm_eq {a b : Sel} {edge : BitVec 2} {r : MatRec}
    (h : AtIssue s k i ⟨true, [], [(a, if r.bfmt = 9 then 4 else 8), (b, 1)]⟩) (hrec : k.rec? = none)
    (hplaced : recPlaced k.team (k.th.kreg (uniNo b)).toNat = true) (hpres : Present s k (rangeLines (k.th.kreg (uniNo b)).toNat 16))
    (hsound : s.failedIn k.team.tid [((k.th.kreg (uniNo b)).toNat, 16)] = none)
    (hr : MatRec.of (readNat k.team.scratch (k.th.kreg (uniNo b)).toNat 16) = some r) (hfit : a.toNat + (if r.bfmt = 9 then 4 else 8) ≤ 192) :
    mldForm i edge a b s = .next (modOwn k (pass k s) (fun c => { c with tiles := (groupsOf k.path k.th.groups).foldl (fun ts g =>
      let t := (groupLanes k g).foldl (fun t l => loadCol k.th a.toNat (if r.bfmt = 9 then 4 else 8) l t) (tget tile0 ts (portOf k.sec g))
      tset tile0 ts (portOf k.sec g) { t with edge := edge, tfmt := BitVec.ofNat 4 r.bfmt }) c.tiles })) := by
  have hfault : sectionFault k ⟨true, [], [(a, if r.bfmt = 9 then 4 else 8), (b, 1)]⟩ = none := by
    unfold sectionFault
    rw [regFault_usesUnlatched h.usable, hrec]
    rfl
  unfold mldForm
  rw [issued_some _ h.issuer]
  refine congrArg Host.Outcome.next ?_
  dsimp only
  rw [staticOk, h.formed, hplaced]
  simp only [Bool.not_true, Bool.false_eq_true, if_false, if_neg h.active]
  refine (whenRecord_go hpres.own (by simpa using hpres.here) hsound _ _ _).trans ?_
  rw [hr]
  dsimp only
  rw [if_neg (Nat.not_lt.2 hfit), hfault]
  rfl

/-- A table that the section reads whole is read once, whatever the guard (R300). -/
theorem tableForm_eq {n al : Nat} {b : Sel} (put : Section → Nat → List Byte → Section) (hiss : s.iss? = some k) (hwf : i.wellFormed = true)
    (hpath : k.path ≠ 0) (hrec : k.rec? = none) (hal : (k.th.kreg (uniNo b)).toNat % al = 0)
    (hin : (k.th.kreg (uniNo b)).toNat + n ≤ k.team.scratchSize) (hpres : Present s k (rangeLines (k.th.kreg (uniNo b)).toNat n))
    (hsound : s.failedIn k.team.tid [((k.th.kreg (uniNo b)).toNat, n)] = none) :
    tableForm i n al b s put = .next (modOwn k (pass k s) (fun c =>
      put c (k.th.kreg (uniNo b)).toNat (readBytes k.team.scratch (k.th.kreg (uniNo b)).toNat n))) := by
  unfold tableForm
  rw [issued_some _ hiss]
  refine congrArg Host.Outcome.next ?_
  dsimp only
  rw [staticOk, hwf, hrec]
  simp only [Bool.not_true, Bool.false_eq_true, if_false, if_neg hpath, hal, Team.inScratch, hin, decide_true, ne_eq, not_true_eq_false, or_self,
    reduceCtorEq]
  exact whenRead_go hpres.own (by simpa using hpres.here) hsound _ _

/-- Settles O26: the tiles, the curve slot and the branch map, their tables read at once. -/
theorem matrixTables : Obligations.MatrixTables := by
  unfold Obligations.MatrixTables
  refine ⟨?_, ?_, ?_⟩
  · intro s k a b i edge r off n hi h hrec hplaced hpres hsound hr hfit
    have heq := mldForm_eq (edge := edge) h hrec hplaced hpres hsound hr hfit
    obtain ⟨rfl, rfl⟩ | ⟨rfl, rfl⟩ := hi
    · exact heq
    · exact heq
  · intro s k i b hiss hwf hpath hrec off hal hin hpres hsound
    change execCurve i b s = _
    exact tableForm_eq (fun c off bs => { c with slots := tset none c.slots i.toNat (some ⟨off, bs⟩) }) hiss hwf hpath hrec hal hin hpres hsound
  · intro s k b hiss hwf hpath hrec off hal hin hpres hsound
    change execBmap b s = _
    exact tableForm_eq (fun c off bs => { c with bmap := writeBytes [] 0 bs, bmapOff := off }) hiss hwf hpath hrec hal hin hpres hsound

end Sys2Proof.Claims
end

section
/-!
PROOFS. Rasterising, the steps of a tile's pixels, the event rings.
-/

namespace Sys2Proof.Claims
open Sys2Proof.Machine

variable {s : State} {k : Iss} {i : Instr}

/-! ## Pixels -/

theorem placed_opens {r : Ready} (h : placed r = true) : opens r = true := by
  cases r with
  | spot => rfl
  | _ => cases h

/-- A pixel's lane is one of the active ones. -/
theorem pixelsOf_lane {t : RTile} {a : Sel} {layer : Option Nat} {p : Pixel} (hp : p ∈ pixelsOf k t a layer) : p.lane ∈ k.th.lanes k.act := by
  obtain ⟨l, hl, hx⟩ := List.mem_filterMap.1 hp
  dsimp only at hx
  split at hx
  · cases hx
  · cases hx
    exact hl

/-- The pixels of a form all of whose places can be used are those that its step touches. -/
theorem pixels_used {t : RTile} {a : Sel} {layer : Option Nat} {touches : Pixel → Bool} (h : ∀ p ∈ pixelsOf k t a layer, p.bad = none) :
    (pixelsOf k t a layer).filter (fun p => p.bad.isNone && touches p) = (pixelsOf k t a layer).filter touches :=
  List.filter_congr (fun p hp => by rw [h p hp]; rfl)

/-- None of the elements that can be used faults. -/
theorem any_opens_false {rs : List (Elem × Ready)} (h : ∀ x ∈ rs, opens x.2 = true) {f : Elem × Ready → Bool} (hf : ∀ x, opens x.2 = true → f x = false) :
    rs.any f = false :=
  List.any_eq_false.2 (fun x hx => by rw [hf x (h x hx)]; exact Bool.false_ne_true)

/-- A form of R310 whose pixels lie inside the tile, at places that can be used, carries out each lane's step in order. -/
theorem AtIssue.tileForm_eq {a b : Sel} {run size : Nat} {layer : Option Nat} {touches : Pixel → Bool} {reads : Bool} {off : RTile → Pixel → Nat} {t : RTile}
    (h : AtIssue s k i ⟨true, [], [(a, run), (b, 1)]⟩) (ht : RTile.of k.team (k.th.kreg (uniNo b)).toNat = some t)
    (hin : pixelsIn k t a layer s touches size reads (off t)) (step : Iss → RTile → PixStep)
    (fin : Iss → List Nat → State → State → Thread → Thread) :
    tileForm i s a b run layer touches size reads off step fin = .next (
      let r := ((pixelsOf k t a layer).filter touches).foldl (fun (acc : State × Word) p => ((step k t acc.1 p).1, acc.2 ||| (step k t acc.1 p).2)) (s, 0)
      retireWith k (loadsOver k r.1) ((fin k (k.th.lanes k.act) s r.1 k.th).orFlags r.2).advance) := by
  obtain ⟨hbad, hplaced⟩ := hin
  have hnobad : (pixelsOf k t a layer).filterMap (fun p => p.bad.map (fun d =>
      (({ lane := p.lane, a := (coreAddr k.team t.base).toNat, bad := false, data := 0, data2 := 0 } : Elem),
        Ready.fault cSHAPE (coreAddr k.team t.base) (BitVec.ofNat 32 d)))) = [] :=
    List.filterMap_eq_nil_iff.2 (fun p hp => by rw [hbad p hp]; rfl)
  have hopens : ∀ x ∈ ((pixelsOf k t a layer).filter touches).map (fun p =>
      (({ lane := p.lane, a := (coreAddr k.team (off t p)).toNat, bad := false, data := 0, data2 := 0 } : Elem),
        s.eccOf reads size { lane := p.lane, a := (coreAddr k.team (off t p)).toNat, bad := false, data := 0, data2 := 0 }
          (s.readyAt k .atom none size { lane := p.lane, a := (coreAddr k.team (off t p)).toNat, bad := false, data := 0, data2 := 0 }))),
      opens x.2 = true := by
    intro x hx
    obtain ⟨p, hp, rfl⟩ := List.mem_map.1 hx
    obtain ⟨hp, htouch⟩ := List.mem_filter.1 hp
    exact placed_opens (hplaced p hp htouch)
  unfold tileForm
  refine (h.guardedForm_eq (u := fun _ => ⟨true, [], [(a, run), (b, 1)]⟩) _ _ _ ?_).trans ?_
  · dsimp only
    rw [ht]
    rfl
  · dsimp only
    rw [ht]
    dsimp only
    rw [hnobad, pixels_used hbad, List.append_nil, waitsFor_none _ _ _ _ _ hopens]
    dsimp only
    have hclear (f : Elem × Ready → Bool) (hf : ∀ x, opens x.2 = true → f x = false) := any_opens_false hopens hf
    rw [(List.filter_eq_self (l := (pixelsOf k t a layer).filter touches)).2 ?used, (List.filter_eq_self (l := k.th.lanes k.act)).2 ?lanes,
      accessEnd_none _ _ _ _ (trapOf_none _ hopens)]
    · rfl
    case used =>
      intro p _
      rw [hclear]
      · rfl
      · intro x hx
        cases hr : x.2 with
        | fault => rw [hr] at hx; cases hx
        | _ => exact Bool.and_false _
    case lanes =>
      intro p _
      rw [hclear]
      · rfl
      · intro x hx
        cases hr : x.2 with
        | fault => rw [hr] at hx; cases hx
        | _ => exact Bool.and_false _

/-- A step that sets no flag leaves none. -/
theorem foldl_step_noflag {step : PixStep} {g : State → Pixel → State} (hstep : ∀ s x, step s x = (g s x, 0)) (ps : List Pixel) (s : State) :
    ps.foldl (fun (acc : State × Word) p => ((step acc.1 p).1, acc.2 ||| (step acc.1 p).2)) (s, 0) = (ps.foldl g s, 0) := by
  induction ps generalizing s with
  | nil => rfl
  | cons p r ih =>
    rw [List.foldl_cons, List.foldl_cons, ← ih]
    simp only [hstep, BitVec.or_self]

/-- A form of R310 whose step sets no flag. -/
theorem AtIssue.tileForm_noflag {a b : Sel} {run size : Nat} {layer : Option Nat} {reads : Bool} {off : RTile → Pixel → Nat} {t : RTile}
    (h : AtIssue s k i ⟨true, [], [(a, run), (b, 1)]⟩) (ht : RTile.of k.team (k.th.kreg (uniNo b)).toNat = some t)
    (hin : pixelsIn k t a layer s (fun _ => true) size reads (off t)) {step : Iss → RTile → PixStep} {g : State → Pixel → State}
    (hstep : ∀ s x, step k t s x = (g s x, 0)) (fin : Iss → List Nat → State → State → Thread → Thread) :
    tileForm i s a b run layer (fun _ => true) size reads off step fin = .next (retireWith k (loadsOver k ((pixelsOf k t a layer).foldl g s))
      ((fin k (k.th.lanes k.act) s ((pixelsOf k t a layer).foldl g s) k.th).orFlags 0).advance) := by
  rw [h.tileForm_eq ht hin step fin, foldl_step_noflag hstep, List.filter_eq_self.2 (fun _ _ => rfl)]

/-- The tile after dtest is that after its steps, whatever they note. -/
theorem dtestRun_fst (t : RTile) (a : Sel) (s : State) (l : List (Nat × Bool)) (ps : List Pixel) :
    (ps.foldl (fun acc x => (dtestStep k t a acc.1 x, acc.2 ++ [(x.lane, nearer (laneDepth k a x) (depthOf k acc.1 t x))])) (s, l)).1
      = ps.foldl (dtestStep k t a) s := by
  induction ps generalizing s l with
  | nil => rfl
  | cons p r ih => rw [List.foldl_cons, List.foldl_cons, ih]

/-- Settles O27: rast hands out its samples; the forms of a tile carry out their steps in order, and set only blend's flags. -/
theorem rendering : Obligations.Rendering := by
  unfold Obligations.Rendering
  refine ⟨?_, fun a b s k t ht => ⟨?_, ?_, ?_⟩⟩
  · intro n d a b s k h hrec hformed r val th
    obtain ⟨h9, h10, h11, htok⟩ := hformed
    change execRast n d a b s = _
    refine (h.guardedForm_eq (u := fun _ => ⟨n, [(d, 7)], [(a, 12), (b, 1)]⟩) _ _ _ ?_).trans ?_
    · have h9' : (rastBlock k a).getD 9 0 / 2 ^ 30 = 0 := Nat.div_eq_of_lt h9
      have h10' : (rastBlock k a).getD 10 0 / 8 = 0 := Nat.div_eq_of_lt h10
      simp only [rastBlock] at h9' h10' h11 htok
      simp only [h9', h10', h11, htok, decide_true, Bool.and_self]
    · dsimp only
      rw [hrec]
      rfl
  · intro p h hin r
    have hstep (s : State) (x : Pixel) : (if x.cov && nearer (laneDepth k a x) (depthOf k s t x) then
        (tilePut k s (t.depth x.layer x.i) (toBytes 4 (laneDepth k a x)), 0) else (s, 0) : State × Word) = (dtestStep k t a s x, 0) := by
      unfold dtestStep
      split <;> rfl
    have hall : (pixelsOf k t a none).filter (fun x => x.bad.isNone && (k.th.lanes k.act).contains x.lane) = pixelsOf k t a none := by
      rw [List.filter_eq_self]
      intro x hx
      rw [hin.1 x hx, List.contains_iff_mem.2 (pixelsOf_lane hx)]
      rfl
    change execDtest p a b s = _
    unfold execDtest
    refine (AtIssue.tileForm_noflag (off := fun t x => t.depth x.layer x.i) h ht hin hstep _).trans ?_
    dsimp only
    rw [ht, ← dtestRun_fst t a s []]
    have hfst (s : State) (x : Pixel) : (if x.cov && nearer (k.th.vreg x.lane (a.toNat + 3)).toNat (depthOf k s t x) then
        (tilePut k s (t.depth x.layer x.i) (toBytes 4 (k.th.vreg x.lane (a.toNat + 3)).toNat), 0) else (s, 0) : State × Word).1 = dtestStep k t a s x :=
      congrArg Prod.fst (hstep s x)
    simp only [hall, hfst]
    rfl
  · intro o h hin r
    change execBlend o a b s = _
    unfold execBlend
    exact AtIssue.tileForm_eq (off := fun t x => t.colour x.layer x.i) h ht hin _ _
  · intro l h hin
    change execPstore l a b s = _
    unfold execPstore
    exact AtIssue.tileForm_noflag (off := fun t x => t.prov x.layer x.i) (g := pstoreStep k t a) h ht hin (fun _ _ => rfl) _

/-! ## Event rings -/

/-- Settles O28: resid is queued at the oculus; evpop reads its ring's header and records at once. -/
theorem eventRings : Obligations.EventRings := by
  unfold Obligations.EventRings
  refine ⟨?_, ?_⟩
  · intro a s k o h hrec hops ha hcopies hpres
    have hwait : o.lines.any (fun l => s.copyReads k (128 * l) 128) = false :=
      List.any_eq_false.2 (fun l hl => by rw [hcopies l hl]; exact Bool.false_ne_true)
    have hsec : AtPath s k (.resid a) (usesUnlatched k ⟨true, [], [(a, 4)]⟩) := ⟨h.issuer, h.formed, h.lanes, regFault_usesUnlatched h.usable⟩
    change execResid a s = _
    refine (AtPath.sectionForm_eq (u := fun _ => ⟨true, [], [(a, 4)]⟩) hsec _ _ ?_ hrec).trans ?_
    · rw [hops]
      rfl
    · rw [hops]
      dsimp only
      rw [hwait]
      exact congrArg Host.Outcome.next ((if_neg Bool.false_ne_true).trans (whenPresent_go hpres.own hpres.here k.path _))
  · intro d b s k base cap h hring sc head ls got slots hcopies hhead hslots hgood hgoods val s'
    change execEvpop d b s = _
    refine (h.guardedForm_eq (u := fun _ => ⟨false, [(d, 4)], [(b, 1)]⟩) _ _ _ ?_).trans ?_
    · dsimp only
      rw [hring]
      rfl
    · dsimp only
      rw [hring]
      dsimp only
      rw [hcopies]
      refine congrArg Host.Outcome.next ((whenRead_go hhead.own (by simpa using hhead.here) hgood k.act _).trans ?_)
      exact whenRead_go hslots.own hslots.here hgoods k.act _

end Sys2Proof.Claims
end

section
/-!
PROOFS. Sampling textures and tracing rays.
-/

namespace Sys2Proof.Claims
open Sys2Proof.Machine

variable {s s' : State} {k : Iss} {i : Instr}

/-- A run of registers that every lane has completed. -/
theorem runEnd_all (n : Bool) (d : Sel) (c : Nat) (oks : List (Nat × List Nat)) :
    runEnd k s n d c oks [] = retireWith k (loadsOver k s) (k.th.putRun n k.path k.act d c (laneWord oks)).advance :=
  accessEnd_none k s _ [] rfl

/-- A mask of lanes none of which meets a test is empty. -/
theorem lanesWhere_none {f : Nat → Bool} (h : ∀ l ∈ k.th.lanes k.act, f l = false) : lanesWhere k f = 0 := by
  unfold lanesWhere
  rw [List.filter_eq_nil_iff.2 (fun l hl => by rw [h l hl]; exact Bool.false_ne_true)]
  rfl

/-- What tex and texg share, the texels of every lane answered (R314 to R316). -/
theorem AtIssue.texForm_eq {n : Bool} {d a b : Sel} {c : Nat} {t : Texture} {oks : List (Nat × List Nat)} {lane : Iss → Texture → Nat → State → Walk (List Nat)}
    (h : AtIssue s k i ⟨n, [(d, 4)], [(a, c), (b, 1)]⟩) (hal : (k.th.kreg (uniNo b)).toNat % 16 = 0)
    (hin : (k.th.kreg (uniNo b)).toNat + 16 ≤ k.team.scratchSize) (hpres : Present s k (rangeLines (k.th.kreg (uniNo b)).toNat 16))
    (hsound : s.failedIn k.team.tid [((k.th.kreg (uniNo b)).toNat, 16)] = none)
    (ht : Texture.of (readNat k.team.scratch (k.th.kreg (uniNo b)).toNat 16) = some t) (hw : walks k s (lane k t) oks s') :
    texForm i n d a b c s lane = .next (retireWith k (loadsOver k s') (k.th.putRun n k.path k.act d 4 (laneWord oks)).advance) := by
  unfold texForm
  rw [issued_some _ h.issuer]
  refine congrArg Host.Outcome.next ?_
  dsimp only
  rw [staticOk, h.formed]
  simp only [Bool.not_true, Bool.false_eq_true, if_false, if_neg h.active, hal, Team.inScratch, hin, decide_true, ne_eq, not_true_eq_false, or_self,
    reduceCtorEq]
  refine (whenRecord_go hpres.own (by simpa using hpres.here) hsound _ _ _).trans ?_
  rw [ht]
  dsimp only
  rw [h.usable]
  dsimp only
  rw [show walkLanes _ (lane k t) s = _ from hw, settleWalk_ok, runEnd_all]

/-- rayq, whose loads are all answered (R317). -/
theorem AtIssue.execRayq_eq {n : Bool} {d a b : Sel} {oks : List (Nat × Option Win)} (h : AtIssue s k (.rayq n d a b) ⟨n, [(d, 4)], [(a, 8), (b, 2)]⟩)
    (hw : walks k s (rayLane k (.rayq n d a b) a (k.th.kpair (uniNo b)).toNat false) oks s') :
    execRayq n d a b s = .next (retireWith k (loadsOver k s')
      (k.th.putRun n k.path k.act d 4 (laneWord (oks.map (fun x => (x.1, winWords x.2))))).advance) := by
  unfold execRayq
  refine (h.guardedForm_eq (u := fun _ => ⟨n, [(d, 4)], [(a, 8), (b, 2)]⟩) _ _ _ rfl).trans (congrArg Host.Outcome.next ?_)
  dsimp only
  rw [show walkLanes _ _ s = _ from hw, settleWalk_ok, runEnd_all]

theorem trapOf_nil : trapOf [] = none := rfl

theorem maskOf_nil : maskOf [] = 0 := rfl

/-- The lane that reads the header of a routine table. -/
theorem walkLanes_one {α : Type} {f : Nat → State → Walk α} {l : Nat} {v : α} (h : f l s = .ok (v, s')) :
    walkLanes [l] f s = ([(l, v)].map (fun x => (x.1, Except.ok x.2)), s') := by
  simp only [walkLanes, List.foldl_cons, List.foldl_nil, h, List.nil_append, List.map_cons, List.map_nil]

/-- A call entry can be pushed, or the lane's record holds one more return address (R318). -/
def traceRoom (k : Iss) : Bool :=
  match k.rec? with
  | some (_, _, r) => decide (r.calls.length < 8)
  | none => reuses k .call || !stackFull k.sec

/-- The address of a lane's routine, read from the table (R318). -/
def routineEntry (k : Iss) (table : Nat) (wins : List (Nat × Option Win)) (l : Nat) (s : State) : Walk Nat :=
  match wins.find? (fun y => y.1 == l) with
  | some y => readEl k l 8 (table + 8 + 8 * routineOf y.2) none s
  | none => .ok (0, s)

/-- trace comes to its call, its header and routine entries read and its rays traced, when no lane goes too deep or asks for too much (R318). -/
theorem AtIssue.execTrace_eq {n : Bool} {d a b : Sel} {s1 s2 s3 : State} {hv root table : Nat} {x : TraceHead} {la : Launch}
    {wins : List (Nat × Option Win)} {targets : List (Nat × Nat)} (hroom : traceRoom k = true)
    (h : AtIssue s k (.trace n d a b) ⟨n, [(a, 4)], [(a, 9), (b, 4)] ++ (if x.preg = 0 then [] else [(d, x.preg)])⟩)
    (hroot : root = (k.th.kpair (uniNo b)).toNat) (htable : table = (k.th.kpair (uniNo b + 2)).toNat)
    (hcl : addrClass table = 0) (hz : addrZeros table = true) (hal : table % 8 = 0)
    (hhead : readEl k ((k.th.lowest k.act).getD 0) 8 table none s = .ok (hv, s1)) (hx : TraceHead.of hv = some x) (hd : d.toNat + x.preg ≤ 192)
    (hla : s1.launch? k.team.lid = some la)
    (hlanes : ∀ l ∈ k.th.lanes k.act, traceDepth k l < la.pkt.trdepth ∧ (k.th.vreg l (a.toNat + 8)).toNat ≤ 4 * x.preg + x.pstk ∧
      (traceDepth k l + 1) * x.pstk ≤ k.team.privSize)
    (hwins : walks k s1 (rayLane k (.trace n d a b) a root true) wins s2) (hcount : ∀ y ∈ wins, routineOf y.2 < x.count)
    (htargets : walks k s2 (routineEntry k table wins) targets s3) :
    execTrace n d a b s = .next (traceCall k s3 n a wins targets) := by
  have hfits : ∀ l ∈ k.th.lanes k.act, (decide (4 * x.preg + x.pstk < (k.th.vreg l (a.toNat + 8)).toNat) ||
      decide (k.team.privSize < (traceDepth k l + 1) * x.pstk)) = false := by
    intro l hl
    obtain ⟨_, hasked, hdepth⟩ := hlanes l hl
    rw [decide_eq_false (Nat.not_lt.2 hasked), decide_eq_false (Nat.not_lt.2 hdepth), Bool.or_false]
  have hlost : wins.filter (fun y => decide (x.count ≤ routineOf y.2)) = [] :=
    List.filter_eq_nil_iff.2 (fun y hy => by rw [decide_eq_true_iff]; exact Nat.not_le.2 (hcount y hy))
  unfold execTrace
  rw [issued_some _ h.issuer]
  refine congrArg Host.Outcome.next ?_
  dsimp only
  rw [← htable, ← hroot]
  simp only [staticOk, h.formed, Bool.not_true, Bool.false_eq_true, if_false, if_neg h.active]
  refine (if_neg (c := (!traceRoom k) = true) (by rw [hroom]; exact Bool.false_ne_true)).trans ?_
  rw [if_neg (by simp [hcl, hz, hal]), walkLanes_one hhead]
  simp only [List.map_cons, List.map_nil, List.any_cons, List.any_nil, Bool.or_false, Bool.false_eq_true, if_false]
  refine (settleWalk_ok k s s1 8 [((k.th.lowest k.act).getD 0, hv)] _).trans ?_
  simp only [trapOf_nil, List.head?_cons, Option.bind_some, hx, if_neg (Nat.not_lt.2 hd), h.usable, hla]
  rw [lanesWhere_none (fun l hl => decide_eq_false (Nat.not_le.2 (hlanes l hl).1)), lanesWhere_none hfits]
  simp only [ne_eq, not_true_eq_false, if_false]
  rw [show walkLanes _ _ s1 = _ from hwins, settleWalk_ok]
  simp only [trapOf_nil, hlost, List.map_nil]
  rw [if_neg (Classical.not_not.2 maskOf_nil)]
  refine (congrArg (fun w => settleWalk k s2 8 w _) htargets).trans ?_
  rw [settleWalk_ok, trapOf_nil]

/-- The call of trace by a section, its entry pushed or the one at this trace used again (R318, R250). -/
theorem traceCall_section {n : Bool} {a : Sel} {s4 t' : State} {wins : List (Nat × Option Win)} {targets : List (Nat × Nat)} {t : Nat} {set : Mask}
    {th : Thread} (hrec : k.rec? = none) (ht : t = (least (targets.map Prod.snd)).getD 0)
    (hset : set = maskOf ((targets.filter (fun x => x.2 == t)).map Prod.fst)) (hword : budgetWord k s (BitVec.ofNat 64 t) set = .ok s4)
    (hth : th = { k.th.putRun n k.path set a 4 (fun l i =>
      BitVec.ofNat 32 ((winWords (((wins.find? (fun x => x.1 == l)).map Prod.snd).getD none)).getD i 0)) with pc := BitVec.ofNat 64 t })
    (hpush : (if reuses k .call then some (retireWith k (setAside k (loadsOver k s4) (callEntry k.th.pc k.th.path none true) (k.act &&& ~~~set) set false)
        { th with path := set })
      else pushed k (loadsOver k s4) (k.sec.stack.length + 1) (retireWith k (setAside k (loadsOver k s4) (callEntry k.th.pc k.th.path none true)
        (k.act &&& ~~~set) set false) { th with path := set })) = some t') :
    traceCall k s n a wins targets = t' := by
  subst hset ht hth
  unfold traceCall
  dsimp only
  rw [hword, hrec]
  exact reuse_or_push k.act hpush

/-- The call of trace by an ejected lane: its record takes the return address (R318, R254). -/
theorem traceCall_lane {n : Bool} {a : Sel} {s4 : State} {wins : List (Nat × Option Win)} {targets : List (Nat × Nat)} {t : Nat} {set : Mask}
    {th : Thread} {d c : Nat} {r : LanternRec} (hrec : k.rec? = some (d, c, r)) (ht : t = (least (targets.map Prod.snd)).getD 0)
    (hset : set = maskOf ((targets.filter (fun x => x.2 == t)).map Prod.fst)) (hword : budgetWord k s (BitVec.ofNat 64 t) set = .ok s4)
    (hth : th = { k.th.putRun n k.path set a 4 (fun l i =>
      BitVec.ofNat 32 ((winWords (((wins.find? (fun x => x.1 == l)).map Prod.snd).getD none)).getD i 0)) with pc := BitVec.ofNat 64 t }) :
    traceCall k s n a wins targets =
      retireWith k (modRec k (loadsOver k s4) (fun x => { x with calls := (k.th.pc + 4, true) :: x.calls })) th := by
  subst hset ht hth
  unfold traceCall
  dsimp only
  rw [hword, hrec]
  rfl

/-- Settles O29: each instruction's walk stands on answered loads; the call of trace is that of a transfer. -/
theorem samplingAndTracing : Obligations.SamplingAndTracing := by
  unfold Obligations.SamplingAndTracing
  refine ⟨⟨?_, ?_⟩, ?_⟩
  · intro n tx d a b s s' k t oks i off h hal hin hpres hsound ht hw
    cases tx with
    | true => exact h.texForm_eq hal hin hpres hsound ht hw
    | false => exact h.texForm_eq hal hin hpres hsound ht hw
  · exact fun n d a b s s' k oks h hw => h.execRayq_eq hw
  · intro n d a b s s1 s2 s3 s4 k hv x la wins targets i root table h hcl hz hal hhead hx hd hla hlanes hwins hcount htargets t set hword s5 th called
    have hcall (hroom : traceRoom k = true) : exec i s = .next (traceCall k s3 n a wins targets) :=
      h.execTrace_eq hroom rfl rfl hcl hz hal hhead hx hd hla hlanes hwins hcount htargets
    refine ⟨fun hrec hre => ?_, fun hrec hre hfull t' ht' => ?_, fun d' c' r hrec hcalls => ?_⟩
    · rw [hcall (by simp [traceRoom, hrec, hre])]
      exact congrArg Host.Outcome.next (traceCall_section hrec rfl rfl hword rfl (if_pos hre))
    · rw [hcall (by simp [traceRoom, hrec, hfull])]
      exact congrArg Host.Outcome.next (traceCall_section hrec rfl rfl hword rfl ((if_neg (by rw [hre]; exact Bool.false_ne_true)).trans ht'))
    · rw [hcall (by simp [traceRoom, hrec, hcalls])]
      exact congrArg Host.Outcome.next (traceCall_lane hrec rfl rfl hword rfl)

end Sys2Proof.Claims
end

section
/-!
PROOFS. Operations perform at their places.
-/

namespace Sys2Proof.Machine

/-! ## Placing contributions again -/

theorem mapM_cons_ok {ε α β : Type} {f : α → Except ε β} {x : α} {xs : List α} {ys : List β} (h : (x :: xs).mapM f = .ok ys) :
    ∃ y r, f x = .ok y ∧ xs.mapM f = .ok r ∧ ys = y :: r := by
  rw [List.mapM_cons] at h
  cases hx : f x with
  | error e => rw [hx] at h; cases h
  | ok y =>
    cases hr : xs.mapM f with
    | error e => rw [hx, hr] at h; cases h
    | ok r => rw [hx, hr] at h; cases h; exact ⟨y, r, rfl, rfl, rfl⟩

/-- Results that are all there have no failure. -/
theorem mapM_ok_findSome {ε α β : Type} {f : α → Except ε β} {fail : Except ε β → Option ε} (hok : ∀ y, fail (.ok y) = none) {xs : List α} {ys : List β}
    (h : xs.mapM f = .ok ys) : (xs.map f).findSome? fail = none := by
  induction xs generalizing ys with
  | nil => rfl
  | cons x xs ih =>
    obtain ⟨y, r, hx, hr, rfl⟩ := mapM_cons_ok h
    rw [List.map_cons, List.findSome?_cons, hx, hok, ih hr]

/-- Results that are all there are what they give. -/
theorem mapM_ok_map {ε α β : Type} {f : α → Except ε β} {get : α → β} (hget : ∀ x y, f x = .ok y → get x = y) {xs : List α} {ys : List β}
    (h : xs.mapM f = .ok ys) : xs.map get = ys := by
  induction xs generalizing ys with
  | nil => cases h; rfl
  | cons x xs ih =>
    obtain ⟨y, r, hx, hr, rfl⟩ := mapM_cons_ok h
    rw [List.map_cons, hget x y hx, ih hr]

/-- A failure of a list of results is its first. -/
theorem mapM_error_findSome {ε α β : Type} {f : α → Except ε β} {fail : Except ε β → Option ε} (hok : ∀ y, fail (.ok y) = none)
    (herr : ∀ e, fail (.error e) = some e) {xs : List α} {e : ε} (h : xs.mapM f = .error e) : (xs.map f).findSome? fail = some e := by
  induction xs with
  | nil => cases h
  | cons x xs ih =>
    rw [List.mapM_cons] at h
    rw [List.map_cons, List.findSome?_cons]
    cases hx : f x with
    | error e' => rw [hx] at h; cases h; rw [herr]
    | ok y =>
      rw [hok]
      cases hr : xs.mapM f with
      | error e' => rw [hx, hr] at h; cases h; exact ih hr
      | ok r => rw [hx, hr] at h; cases h

end Sys2Proof.Machine

namespace Sys2Proof.Claims
open Sys2Proof.Machine

/-- Every write of a launch has performed, and all its teams have gone (R363). -/
theorem epoch_ready {s : State} {lid : Nat} {l : Launch} (hdet : l.pkt.det = true) (hopen : l.epochClosed = false) (hplaced : l.placed = l.pkt.grid)
    (hteams : ∀ t ∈ s.teams, t.lid = lid → t.bank = .gone ∧ (∀ c ∈ t.secs, c.log = [] ∧ c.cmp = []) ∧
      (∀ r ∈ s.remote, r.tid ≠ t.tid) ∧ (∀ o ∈ s.orphans, o.tid ≠ t.tid) ∧ (∀ x ∈ s.cores, ∀ b ∈ x.2.storeBuf, b.tid ≠ t.tid)) :
    (l.pkt.det && !l.epochClosed && l.placed == l.pkt.grid && s.teams.all (fun t => t.lid != lid || t.bank == .gone)
      && s.remote.all (fun r => !s.teams.any (fun t => t.tid == r.tid && t.lid == lid))
      && s.orphans.all (fun o => !s.teams.any (fun t => t.tid == o.tid && t.lid == lid))
      && s.cores.all (fun x => x.2.storeBuf.all (fun b => !s.teams.any (fun t => t.tid == b.tid && t.lid == lid)))
      && s.teams.all (fun t => t.lid != lid || t.secs.all (fun c => c.log.isEmpty && c.cmp.isEmpty))) = true := by
  have hmine {tid : Nat} (h : ∀ t ∈ s.teams, t.lid = lid → tid ≠ t.tid) : (!s.teams.any (fun t => t.tid == tid && t.lid == lid)) = true := by
    rw [Bool.not_eq_true', List.any_eq_false]
    intro t ht hand
    rw [Bool.and_eq_true, beq_iff_eq, beq_iff_eq] at hand
    exact h t ht hand.2 hand.1.symm
  have hgone : s.teams.all (fun t => t.lid != lid || t.bank == .gone) = true := List.all_eq_true.2 (fun t ht => by
    by_cases hl : t.lid = lid
    · rw [(hteams t ht hl).1]; simp
    · simp [hl])
  have hlogs : s.teams.all (fun t => t.lid != lid || t.secs.all (fun c => c.log.isEmpty && c.cmp.isEmpty)) = true := List.all_eq_true.2 (fun t ht => by
    by_cases hl : t.lid = lid
    · rw [Bool.or_eq_true]
      refine Or.inr (List.all_eq_true.2 (fun c hc => ?_))
      obtain ⟨hlog, hcmp⟩ := (hteams t ht hl).2.1 c hc
      rw [hlog, hcmp]
      rfl
    · simp [hl])
  have hremote : s.remote.all (fun r => !s.teams.any (fun t => t.tid == r.tid && t.lid == lid)) = true :=
    List.all_eq_true.2 (fun r hr => hmine (fun t ht hl => (hteams t ht hl).2.2.1 r hr))
  have horphans : s.orphans.all (fun o => !s.teams.any (fun t => t.tid == o.tid && t.lid == lid)) = true :=
    List.all_eq_true.2 (fun o ho => hmine (fun t ht hl => (hteams t ht hl).2.2.2.1 o ho))
  have hstores : s.cores.all (fun x => x.2.storeBuf.all (fun b => !s.teams.any (fun t => t.tid == b.tid && t.lid == lid))) = true :=
    List.all_eq_true.2 (fun x hx => List.all_eq_true.2 (fun b hb => hmine (fun t ht hl => (hteams t ht hl).2.2.2.2 x hx b hb)))
  rw [hgone, hlogs, hremote, horphans, hstores, hdet, hopen, hplaced, beq_self_eq_true]
  rfl

/-- A buffered store that nothing older holds back performs at its home and leaves the buffer (R353, R355, R359). -/
theorem execStorePerform_performs {s : State} {die core idx : Nat} {b : BufStore} (hb : (s.coreAt die core).storeBuf[idx]? = some b)
    (holder : ∀ o ∈ (s.coreAt die core).storeBuf.take idx, sharesByte o.bytes b.bytes = false)
    (hsteps : ∀ r ∈ s.remote, r.tid = b.tid → r.role = b.role → r.id < b.id → ∀ l ∈ r.op.lanes, ∀ sp, l.spot = some sp → sp.hits b.bytes = false)
    (hpromo : s.promoWaits b.tid b.role b.rel (b.bytes.map (fun x => x.1 / 128 * 128)) = false) :
    execStorePerform die core idx s = .next (((s.homeWrite b.bytes).cachePut die core b.bytes).modCore die core
      (fun x => { x with storeBuf := x.storeBuf.filter (fun e => e.id != b.id) })) := by
  unfold execStorePerform
  refine congrArg Host.Outcome.next ?_
  dsimp only
  rw [hb]
  dsimp only
  rw [if_neg (Bool.eq_false_iff.1 (List.any_eq_false.2 (fun o ho => Bool.eq_false_iff.1 (holder o ho))))]
  rw [if_neg, if_neg (Bool.eq_false_iff.1 hpromo)]
  intro hany
  obtain ⟨r, hr, hmeets⟩ := List.any_eq_true.1 hany
  simp only [Bool.and_eq_true, beq_iff_eq, decide_eq_true_eq] at hmeets
  obtain ⟨⟨⟨htid, hrole⟩, hid⟩, hlane⟩ := hmeets
  obtain ⟨l, hl, hhit⟩ := List.any_eq_true.1 hlane
  cases hsp : l.spot with
  | none => rw [hsp] at hhit; cases hhit
  | some sp =>
    rw [hsp] at hhit
    exact Bool.eq_false_iff.1 (hsteps r hr htid hrole hid l hl sp hsp) hhit

/-- The next lane of a posted step performs when nothing older at its place is still to come (R262, R351, R353, R359). -/
theorem execRemotePerform_performs {s s1 : State} {tid role : Nat} {t : Team} {c : Section} {r : RemoteOp} {x : LaneOp} {rest : List LaneOp} {sp : Spot}
    (ht : s.team? tid = some t) (hc : s.sec? tid role = some c)
    (hr : s.remote.find? (fun o => o.id == r.id && o.tid == tid && o.role == role) = some r) (hl : r.op.lanes = x :: rest) (hsp : x.spot = some sp)
    (hstores : ∀ b ∈ (s.coreAt t.die t.core).storeBuf, b.id < r.id → sp.hits b.bytes = false) (hpromo : s.promoWaits tid role r.rel sp.linesOf = false)
    (holder : ∀ o ∈ s.remote, o.tid = tid → o.role = role → o.id < r.id → ∀ l ∈ o.op.lanes, ∀ y, l.spot = some y → sp.near y r.op.size o.op.size = false)
    (hopen : s.placeOpen sp r.op.size = .ok ()) (hgo : s.postLane t c r.op x = .go s1) :
    execRemotePerform tid role r.id s = .next (State.partDone { s1 with remote := s1.remote.filterMap (fun o =>
      if o.id = r.id then (if rest.isEmpty then none else some { o with op := { o.op with lanes := rest } }) else some o) } tid role r.id) := by
  have hbuf : (s.coreAt t.die t.core).olderStore r.id sp = false := by
    refine List.any_eq_false.2 (fun b hb hand => ?_)
    rw [Bool.and_eq_true, decide_eq_true_eq] at hand
    exact Bool.eq_false_iff.1 (hstores b hb hand.1) hand.2
  unfold execRemotePerform
  refine congrArg Host.Outcome.next ?_
  rw [ht, hc, hr]
  dsimp only
  rw [hl]
  dsimp only
  rw [hsp]
  dsimp only
  rw [hbuf, hpromo, if_neg (by simp), if_neg, hopen, hgo]
  intro hany
  obtain ⟨o, ho, hmeets⟩ := List.any_eq_true.1 hany
  simp only [Bool.and_eq_true, beq_iff_eq, decide_eq_true_eq] at hmeets
  obtain ⟨⟨⟨htid, hrole⟩, hid⟩, hlane⟩ := hmeets
  obtain ⟨l, hl, hnear⟩ := List.any_eq_true.1 hlane
  cases hy : l.spot with
  | none => rw [hy] at hnear; cases hnear
  | some y =>
    rw [hy] at hnear
    exact Bool.eq_false_iff.1 (holder o ho htid hrole hid l hl y hy) hnear

/-- Settles O42: what each event waits for has come, so it acts. -/
theorem performingEvents : Obligations.PerformingEvents := by
  unfold Obligations.PerformingEvents
  refine ⟨fun s die core idx b hb holder hsteps hpromo => execStorePerform_performs hb holder hsteps hpromo,
    fun s s1 tid role t c r x rest sp ht hc hr hl hsp hstores hpromo holder hopen hgo =>
      execRemotePerform_performs ht hc hr hl hsp hstores hpromo holder hopen hgo, ?_, ?_, fun s die unit line => ⟨rfl, rfl, rfl⟩⟩
  · intro s lid l hl hdet hopen hplaced hteams
    refine ⟨fun es hes => ?_, fun va hva => ?_⟩
    · change execEpochClose lid s = _
      unfold execEpochClose
      refine congrArg Host.Outcome.next ?_
      rw [hl]
      refine (if_pos (epoch_ready hdet hopen hplaced hteams)).trans ?_
      rw [mapM_ok_findSome (fun _ => rfl) hes]
      dsimp only
      rw [mapM_ok_map (fun x y hy => by rw [hy]) hes]
    · change execEpochClose lid s = _
      unfold execEpochClose
      refine congrArg Host.Outcome.next ?_
      rw [hl]
      refine (if_pos (epoch_ready hdet hopen hplaced hteams)).trans ?_
      rw [mapM_error_findSome (fun _ => rfl) (fun _ => rfl) hva]
  · intro s tid role op o t ho ht inside hstores lines gone
    have hbuf : (s.coreAt t.die t.core).storeBuf.any
        (fun b => b.tid == tid && b.role == role && decide (b.id < op) && b.bytes.any (fun y => inside y.1)) = false := by
      refine List.any_eq_false.2 (fun b hb hmeets => ?_)
      simp only [Bool.and_eq_true, beq_iff_eq, decide_eq_true_eq] at hmeets
      obtain ⟨⟨⟨htid, hrole⟩, hid⟩, hin⟩ := hmeets
      obtain ⟨y, hy, hy'⟩ := List.any_eq_true.1 hin
      exact Bool.eq_false_iff.1 (hstores b hb htid hrole hid y hy) hy'
    have hacts : exec (.sysCacheOpComplete tid role op) s = .next (gone (if o.flush then lines.foldl (fun s l => s.writeBack l) s
        else
          let s := lines.foldl (fun s l => s.dropSlice l) s
          let part := s.partCores (s.ctxAt o.ctx).part
          let clean (x : Core) : Core := { x with dcache := x.dcache.filter (fun l => !inside l.1), ibuf := x.ibuf.filter (fun w => !inside (4 * w.1)) }
          { s with cores := (s.cores.map (fun x => if part.contains x.1 then (x.1, clean x.2) else x)).filter (fun x => x.2 ≠ core0) })) := by
      change execSysCacheOpComplete tid role op s = _
      unfold execSysCacheOpComplete
      refine congrArg Host.Outcome.next ?_
      rw [ho, ht]
      exact if_neg (Bool.eq_false_iff.1 hbuf)
    refine ⟨fun hflush => ?_, fun hinv => ?_⟩
    · rw [hacts, if_pos hflush]
    · rw [hacts, if_neg (Bool.eq_false_iff.1 hinv)]

end Sys2Proof.Claims
end

section
/-!
PROOFS. The answers of the host link, a peer's status, the comparator of dual-run teams.
-/

namespace Sys2Proof.Machine

/-! ## Bytes that come over the link -/

/-- Bytes of lines that no slice holds are written to memory, and the slices stay as they are. -/
theorem foldl_hostBytes_slices (bs : List (Nat × Byte)) (s : State) :
    (bs.foldl (fun s b => s.hostBytes b.1 [b.2]) s).slices = s.slices := by
  induction bs generalizing s with
  | nil => rfl
  | cons b bs ih =>
    rw [List.foldl_cons, ih]
    unfold State.hostBytes
    split <;> rfl

theorem sliceLine?_congr {s s' : State} (h : s.slices = s'.slices) (line : Nat) : s.sliceLine? line = s'.sliceLine? line := by
  unfold State.sliceLine? State.sliceAt
  rw [h]

/-- The value of an element that no slice holds is that of its bytes as they came (R119, R257). -/
theorem loadReturn_value {s : State} {ps : List Nat} {bs : List (Nat × Byte)} (hps : ∀ b ∈ bs, b.1 ∈ ps)
    (h : ∀ p ∈ ps, s.sliceLine? (p / 128 * 128) = none) :
    bs.map (fun b => match (bs.foldl (fun s b => s.hostBytes b.1 [b.2]) s).sliceLine? (b.1 / 128 * 128) with
      | some l => l.data.getD (b.1 % 128) 0
      | none => b.2) = bs.map Prod.snd :=
  List.map_congr_left (fun b hb => by rw [sliceLine?_congr (foldl_hostBytes_slices bs s), h b.1 (hps b hb)])

/-! ## The comparator with no lane for a side log -/

theorem logFits_nil (used seq id : Nat) (op : MemOp) : logFits used seq id op [] = [] := rfl

theorem logEntries_nil (seq id : Nat) (op : MemOp) : logEntries seq id op [] = [] := rfl

/-! ## Combined AtomicOps -/

/-- The steps of one AtomicOp: the new value, and each lane's old one (R263). -/
theorem foldl_steps (op : MemOp) (ls : List LaneOp) (v : Nat) (acc : List (Nat × DWord)) :
    ls.foldl (fun acc y => ((op.new acc.1 y).getD acc.1, acc.2 ++ [(y.lane, BitVec.ofNat 64 acc.1)])) (v, acc) =
      (ls.foldl (fun v y => (op.new v y).getD v) v,
        acc ++ ls.mapIdx (fun i y => (y.lane, BitVec.ofNat 64 ((ls.take i).foldl (fun v y => (op.new v y).getD v) v)))) := by
  induction ls generalizing v acc with
  | nil => simp
  | cons y ls ih =>
    rw [List.foldl_cons, ih, List.mapIdx_cons]
    simp

end Sys2Proof.Machine

namespace Sys2Proof.Claims
open Sys2Proof.Machine

variable {s : State} {tid role : Nat} {t : Team} {c : Section} {h : HostReq} {x : LaneOp} {rest : List LaneOp}

/-- A failed or timed-out load element is noted with its code (R259). -/
theorem execLoadReturn_fails (ht : s.team? tid = some t) (hc : s.sec? tid role = some c) (hh : c.hostReq = some h) (hl : h.op.lanes = x :: rest)
    (hload : h.isLoad = true) (data : List DWord) :
    execLoadReturn tid role 1 data s = .next (hostStep s tid role { h with op := { h.op with lanes := rest }, bad := h.bad ++ [(x.lane, 0x15)] }) ∧
    execLoadReturn tid role 2 data s = .next (hostStep s tid role { h with op := { h.op with lanes := rest }, bad := h.bad ++ [(x.lane, 0x16)] }) ∧
    execCompletionTimeout tid role s = .next (hostStep s tid role { h with op := { h.op with lanes := rest }, bad := h.bad ++ [(x.lane, 0x17)] }) := by
  unfold execLoadReturn execCompletionTimeout
  rw [ht, hc]
  dsimp only [Option.bind_some]
  rw [hh]
  dsimp only
  rw [hload, hl]
  exact ⟨rfl, rfl, rfl⟩

/-- Good data of a load element goes to memory and to its lane (R257). -/
theorem execLoadReturn_data (ht : s.team? tid = some t) (hc : s.sec? tid role = some c) (hh : c.hostReq = some h) (hl : h.op.lanes = x :: rest)
    (hload : h.isLoad = true) {data : List DWord} {pas : List (Nat × Nat)} (hsp : x.spot = some (.phys pas))
    (hpart : data.length ≠ 16 ∨ pas.length ≠ 1) (hsize : h.op.size ≠ 128) (haway : ∀ p ∈ physBytes pas, s.sliceLine? (p / 128 * 128) = none)
    {bs : List (Nat × Byte)} (hbs : bs = (physBytes pas).zip (toBytes h.op.size ((data.headD 0).toNat % 2 ^ (8 * h.op.size)))) :
    execLoadReturn tid role 0 data s = .next (hostStep (bs.foldl (fun s b => s.hostBytes b.1 [b.2]) s) tid role
      { h with op := { h.op with lanes := rest }, got := h.got ++ [(x.lane, BitVec.ofNat 64 (ofBytes (bs.map Prod.snd)))] }) := by
  have hv := loadReturn_value (bs := bs) (fun b hb => by rw [hbs] at hb; exact (List.of_mem_zip hb).1) haway
  unfold execLoadReturn
  rw [ht, hc]
  dsimp only [Option.bind_some]
  rw [hh]
  dsimp only
  rw [hload, hl]
  dsimp only
  rw [if_neg (by decide), if_neg (by decide), hsp]
  dsimp only
  rw [if_neg (by omega), if_neg hsize, ← hbs]
  rw [← hv] <;> rfl

/-- A whole line that comes is kept by its slice and by the core (R119). -/
theorem execLoadReturn_line (ht : s.team? tid = some t) (hc : s.sec? tid role = some c) (hh : c.hostReq = some h) (hl : h.op.lanes = x :: rest)
    (hload : h.isLoad = true) {data : List DWord} {pas : List (Nat × Nat)} {pa line : Nat} {s1 : State} {bs : List Byte} (hsp : x.spot = some (.phys pas))
    (hone : pas.length = 1) (hpa : (pas.head?.getD (0, 0)).1 = pa) (hdata : data.length = 16) (hline : line = pa / 128 * 128) (haway : s.sliceLine? line = none)
    (hs1 : s1 = s.physWrite line (data.flatMap (fun w => toBytes 8 w.toNat))) (hbs : bs = (s1.homeLine? line).getD (data.flatMap (fun w => toBytes 8 w.toNat)))
    (haway1 : s1.sliceLine? line = none) :
    execLoadReturn tid role 0 data s = .next (hostStep ((s1.takeSlice line bs).modCore t.die t.core (fun c => c.keepLine line bs)) tid role
      { h with op := { h.op with lanes := rest }, got := h.got ++ [(x.lane, BitVec.ofNat 64 (ofBytes ((bs.drop (pa - line)).take h.op.size)))] }) := by
  have hbytes : s.hostBytes line (data.flatMap (fun w => toBytes 8 w.toNat)) = s1 := by
    rw [hs1]
    unfold State.hostBytes
    rw [show line / 128 * 128 = line by omega, haway]
    rfl
  unfold execLoadReturn
  rw [ht, hc]
  dsimp only [Option.bind_some]
  rw [hh]
  dsimp only
  rw [hload, hl]
  dsimp only
  rw [if_neg (by decide), if_neg (by decide), hsp]
  dsimp only
  rw [if_pos ⟨hdata, hone⟩, hpa, ← hline, hbytes, haway1, ← hbs]
  rfl

/-- An AtomicOp that failed or was not answered fails its lanes with its code (R263). -/
theorem execAtomicop_fails (ht : s.team? tid = some t) (hc : s.sec? tid role = some c) (hh : c.hostReq = some h) (hl : h.op.lanes = x :: rest)
    (hload : h.isLoad = false) :
    (∀ old, execAtomicopCompletion tid role 1 old s = .next (hostFail s tid role h x 0x15)) ∧
    (∀ old, execAtomicopCompletion tid role 2 old s = .next (hostFail s tid role h x 0x16)) ∧
    execCompletionTimeout tid role s = .next (hostFail s tid role h x 0x17) := by
  unfold execAtomicopCompletion execCompletionTimeout
  rw [ht, hc]
  dsimp only [Option.bind_some]
  rw [hh]
  dsimp only
  rw [hload, hl]
  exact ⟨fun _ => rfl, fun _ => rfl, rfl⟩

/-- An AtomicOp that the host has carried out: the lanes that it stands for take their steps in order (R263). -/
theorem execAtomicop_done (ht : s.team? tid = some t) (hc : s.sec? tid role = some c) (hh : c.hostReq = some h) (hl : h.op.lanes = x :: rest)
    (hload : h.isLoad = false) {old : DWord} {pas : List (Nat × Nat)} {s0 : State} (hturn : hostTurn s t c h x = .go s0) (hsp : x.spot = some (.phys pas))
    {ls : List LaneOp} (hls : combinedLanes h x = ls) {before : Nat → Nat}
    (hbefore : ∀ n, before n = (ls.take n).foldl (fun v y => (h.op.new v y).getD v) (old.toNat % 2 ^ (8 * h.op.size)))
    {h' : HostReq} (hh' : h' = { h.without ls with got := h.got ++ ls.mapIdx (fun i y => (y.lane, BitVec.ofNat 64 (before i))) }) :
    execAtomicopCompletion tid role 0 old s = .next (hostTwin (hostStep
      (((physBytes pas).zip (toBytes h.op.size (before ls.length))).foldl (fun s b => s.physWrite b.1 [b.2]) s0) tid role h') tid role h') := by
  have hsteps := foldl_steps h.op ls (old.toNat % 2 ^ (8 * h.op.size)) []
  simp only [← hbefore, List.nil_append] at hsteps
  unfold execAtomicopCompletion
  rw [ht, hc]
  dsimp only [Option.bind_some]
  rw [hh]
  dsimp only
  rw [hload, hl]
  dsimp only
  rw [if_neg (by decide), if_neg (by decide), hturn]
  dsimp only
  rw [hls, hsp, hsteps, hh', hbefore ls.length, List.take_length]

/-- Who issued a send: its section, or the lantern for an ejected lane (R345). -/
def sendIssuer (t : Team) (tid role : Nat) (p : PeerSend) : Issuer :=
  match p.who with
  | none => .sect tid role
  | some id => .lantern t.die t.core id

/-- A peer's status is written to the destination of its uisend, after the older sends (R376). -/
theorem execSendStatusReturn_writes (ht : s.team? tid = some t) (hc : s.sec? tid role = some c) {p : PeerSend} (hp : c.peerSend = some p)
    (holder : s.olderSend t p = false) {k : Iss} {s1 : State} (hs1 : s.modSec tid role (fun c => { c with peerSend := none }) = s1)
    (hk : State.iss? { s1 with sel := some (sendIssuer t tid role p) } = some k) (status : BitVec 2) :
    execSendStatusReturn tid role status s = .next (retireWith k s1
      (k.th.putResult false false k.path p.lanes p.dest (fun _ => BitVec.ofNat 64 status.toNat)).advance) := by
  unfold execSendStatusReturn
  refine congrArg Host.Outcome.next ?_
  rw [ht, hc]
  dsimp only [Option.bind_some]
  rw [hp]
  dsimp only
  rw [if_neg (Bool.eq_false_iff.1 holder), hs1]
  exact congrArg (fun o : Option Iss => match o with
    | some k => sendStatus k s1 p.dest p.lanes status.toNat
    | none => s1) hk

/-- Two operations that differ end the context with the DMR record (R9, R195). -/
theorem execDmrCompare_differs {u : Nat} {d : Section} {a b : DmrOp} (ht : s.team? tid = some t) (hc : s.sec? tid role = some c)
    (hprimary : t.primary = true) (htwin : t.twin = some u) (hd : s.sec? u role = some d) (hpair : dmrPair c d = some (a, b)) (hdiff : a.same b = false) :
    execDmrCompare tid role s = .next (endContext s t.ctx cDMR 0 { recBy 0x30 t role with detail := dmrDetail a b }) := by
  unfold execDmrCompare
  refine congrArg Host.Outcome.next ?_
  rw [ht, hc]
  dsimp only
  rw [hprimary, htwin]
  dsimp only [Option.bind_some]
  rw [hd]
  dsimp only [Option.map_some]
  rw [hpair]
  dsimp only
  rw [hdiff]
  rfl

/-- Two stores that agree, none of whose lanes belongs in the side log, perform once, are counted and leave the comparator (R195). -/
theorem execDmrCompare_store {u : Nat} {d : Section} {a b : DmrOp} {s1 : State} (ht : s.team? tid = some t) (hc : s.sec? tid role = some c)
    (hprimary : t.primary = true) (htwin : t.twin = some u) (hd : s.sec? u role = some d) (hpair : dmrPair c d = some (a, b)) (hsame : a.same b = true)
    (hstore : a.op.kind = .store) (hdest : a.dest = none) (hca : a.counted = none) (hcb : b.counted = none)
    (hnear : ∀ x ∈ a.op.lanes, x.spot ≠ none ∧ ∀ v ∈ x.vas, s.logsPage t.ctx c.log v.1 = false) (hgo : (s.dmrPerform t c a a.op.lanes).2 = .go s1) :
    execDmrCompare tid role s = .next (((s1.modSec tid role (cmpTake a.id [])).modSec u role (cmpTake b.id [])).modCtx t.ctx
      (fun x => { x with dmrCount := x.dmrCount + 1 })) := by
  have hfar {x : LaneOp} (hx : x ∈ a.op.lanes) : (x.spot.isNone || x.vas.any (fun v => s.logsPage t.ctx c.log v.1)) = false := by
    obtain ⟨hsp, hlog⟩ := hnear x hx
    rw [Bool.or_eq_false_iff, Option.isNone_eq_false_iff, Option.isSome_iff_ne_none]
    exact ⟨hsp, List.any_eq_false.2 (fun v hv => Bool.eq_false_iff.1 (hlog v hv))⟩
  have hnone : a.op.lanes.filter (fun x => x.spot.isNone || x.vas.any (fun v => s.logsPage t.ctx c.log v.1)) = [] :=
    List.filter_eq_nil_iff.2 (fun x hx => Bool.eq_false_iff.1 (hfar hx))
  have hall : a.op.lanes.filter (fun x => !(x.spot.isNone || x.vas.any (fun v => s.logsPage t.ctx c.log v.1))) = a.op.lanes :=
    List.filter_eq_self.2 (fun x hx => by rw [hfar hx]; rfl)
  unfold execDmrCompare
  refine congrArg Host.Outcome.next ?_
  rw [ht, hc]
  dsimp only
  rw [hprimary, htwin]
  dsimp only [Option.bind_some]
  rw [hd]
  dsimp only [Option.map_some]
  rw [hpair]
  dsimp only
  rw [hsame, hdest, hstore]
  simp only [Option.isNone_none, Bool.true_and, hnone, hall]
  simp only [bne_self_eq_false, Bool.and_false, Bool.false_and, Option.isSome_none, Bool.or_self, Bool.not_true, Bool.false_eq_true, if_false, if_true,
    List.map_nil, logFits_nil, logEntries_nil, List.isEmpty_nil, hgo, List.foldl_nil, List.filter_nil, hca, hcb]

/-- Settles O43: each answer of the link, of a peer and of the comparator. -/
theorem linkAnswers : Obligations.LinkAnswers := by
  unfold Obligations.LinkAnswers
  refine ⟨?_, fun s tid role status t c p k ht hc hp holder hk => execSendStatusReturn_writes ht hc hp holder rfl hk status,
    fun s tid role u t c d a b ht hc hprimary htwin hd hpair => ⟨execDmrCompare_differs ht hc hprimary htwin hd hpair,
      fun s1 hsame hstore hdest hca hcb hnear hgo => execDmrCompare_store ht hc hprimary htwin hd hpair hsame hstore hdest hca hcb hnear hgo⟩⟩
  intro s tid role t c h x rest data ht hc hh hl left
  refine ⟨fun hload => ?_, fun hload => ?_⟩
  · obtain ⟨hur, hca, hout⟩ := execLoadReturn_fails ht hc hh hl hload data
    exact ⟨hur, hca, hout, fun pas hsp hpart hsize haway => execLoadReturn_data ht hc hh hl hload hsp hpart hsize haway rfl,
      fun pa n hsp hdata haway haway1 => execLoadReturn_line ht hc hh hl hload hsp rfl rfl hdata rfl haway rfl rfl haway1⟩
  · obtain ⟨hur, hca, hout⟩ := execAtomicop_fails ht hc hh hl hload
    refine ⟨hur, hca, hout, fun old pas s0 hturn hkind hsp => ?_, fun old pas s0 hturn hkind hsp => ?_⟩
    · exact execAtomicop_done ht hc hh hl hload hturn hsp (if_neg hkind)
        (before := fun n => ([x].take n).foldl (fun v y => (h.op.new v y).getD v) (old.toNat % 2 ^ (8 * h.op.size))) (fun _ => rfl) rfl
    · exact execAtomicop_done ht hc hh hl hload hturn hsp (if_pos hkind) (fun _ => rfl) rfl

end Sys2Proof.Claims
end

section
/-!
PROOFS. Walks, page answers, migrations, side logs.
-/

namespace Sys2Proof.Machine

/-- A change of a slice is what it makes of the slice as it stands. -/
theorem modSlice_congr {s : State} {die slice : Nat} {f g : Slice → Slice} (h : f (s.sliceAt die slice) = g (s.sliceAt die slice)) :
    s.modSlice die slice f = s.modSlice die slice g := by
  unfold State.modSlice
  rw [h]

/-- The first element that meets a test, after a run of those that do not. -/
theorem findIdx?_append_cons {α : Type} {p : α → Bool} {q r : List α} {x : α} (hq : ∀ y ∈ q, p y = false) (hx : p x = true) :
    (q ++ x :: r).findIdx? p = some q.length := by
  rw [List.findIdx?_append, List.findIdx?_eq_none_iff.2 hq, List.findIdx?_cons, hx]
  simp

/-- Only the element at one place is changed. -/
theorem mapIdx_append_cons {α : Type} {q r : List α} {x : α} (f : α → α) :
    (q ++ x :: r).mapIdx (fun j y => if j = q.length then f y else y) = q ++ f x :: r := by
  rw [List.mapIdx_append, List.mapIdx_cons]
  have hq : q.mapIdx (fun j y => if j = q.length then f y else y) = q := by
    refine List.ext_getElem (List.length_mapIdx) (fun i h1 h2 => ?_)
    rw [List.getElem_mapIdx, if_neg (Nat.ne_of_lt h2)]
  have hr : r.mapIdx (fun i y => if i + 1 + q.length = q.length then f y else y) = r := by
    refine List.ext_getElem (List.length_mapIdx) (fun i h1 h2 => ?_)
    rw [List.getElem_mapIdx, if_neg (by omega)]
  rw [hq, hr, Nat.zero_add, if_pos rfl]

end Sys2Proof.Machine

namespace Sys2Proof.Claims
open Sys2Proof.Machine

variable {s : State}

/-- The driver's answer goes to the oldest request that has none (R392). -/
theorem execFrameGrant_answers {die slice : Nat} {frames : List (Option Nat)} {f : FrameReq} {q r : List FrameReq}
    (hf : (s.sliceAt die slice).frames = q ++ f :: r) (hq : ∀ g ∈ q, g.answer ≠ none) (hnone : f.answer = none) :
    execFrameGrant die slice frames s = .next (s.modSlice die slice (fun x => { x with frames := q ++ { f with answer := some frames } :: r })) := by
  unfold execFrameGrant
  refine congrArg Host.Outcome.next (modSlice_congr ?_)
  rw [hf, findIdx?_append_cons (fun g hg => by rw [Option.isNone_eq_false_iff]; exact Option.isSome_iff_ne_none.2 (hq g hg)) (by rw [hnone]; rfl)]
  dsimp only
  rw [mapIdx_append_cons]

/-- The one entry that can be replayed, its page mapped and nothing older before it, performs and leaves its log (R158). -/
theorem execSideLogReplay_performs {s1 : State} {ctx : Nat} {va : DWord} {l : Leaf} {base : Nat} {o : Orphan} {gone : Bool} {t : Team} {c : Section}
    {x : LaneOp} {pas : List (Nat × Nat)} (hbase : s.pageBase ctx va.toNat = some (l, base)) (hone : s.replayable ctx base l.lg = [(o, gone)])
    (ht : s.team? o.tid = some t) (hc : s.sec? o.tid o.role = some c) (hl : o.entry.op.lanes = [x])
    (hspot : s.respot ctx (if o.entry.op.kind = .store then .store else if o.entry.op.atomic then .atomic else .red) x.vas = .ok pas)
    (hway : s.sysWay o.entry.op = some false → ∀ p ∈ pas, isHost p.1 = false) (holder : gone = true ∨ olderEntry c.log o.entry = false)
    (hstores : ∀ b ∈ (s.coreAt t.die t.core).storeBuf, b.id < o.entry.id → (Spot.phys pas).hits b.bytes = false ∧ s.promoted (Spot.phys pas).linesOf = false)
    (hgo : s.replayLane t c o.entry.op x pas = .go s1) :
    execSideLogReplay ctx va s = .next ((s1.unlog o gone).partDone o.tid o.role o.entry.id) := by
  have hplace : ¬ (s.sysWay o.entry.op = some false ∧ pas.any (fun p => isHost p.1) = true) := by
    rintro ⟨hno, hany⟩
    obtain ⟨p, hp, hhost⟩ := List.any_eq_true.1 hany
    exact Bool.eq_false_iff.1 (hway hno p hp) hhost
  have hlog : (!gone && olderEntry c.log o.entry) = false := by
    rcases holder with h | h
    · rw [h]; rfl
    · rw [h, Bool.and_false]
  have hbuf : (s.coreAt t.die t.core).olderStore o.entry.id (.phys pas) = false := by
    refine List.any_eq_false.2 (fun b hb hand => ?_)
    rw [Bool.and_eq_true, decide_eq_true_eq] at hand
    exact Bool.eq_false_iff.1 (hstores b hb hand.1).1 hand.2
  have hpromo : (s.promoted (Spot.phys pas).linesOf && (s.coreAt t.die t.core).storeBuf.any (fun b => decide (b.id < o.entry.id))) = false := by
    rw [Bool.and_eq_false_iff, Decidable.or_iff_not_imp_right]
    intro hany
    obtain ⟨b, hb, hid⟩ := List.any_eq_true.1 (eq_true_of_ne_false hany)
    exact (hstores b hb (of_decide_eq_true hid)).2
  unfold execSideLogReplay
  refine congrArg Host.Outcome.next ?_
  rw [hbase]
  dsimp only
  rw [hone, List.length_singleton, Nat.mod_one]
  dsimp only [List.getElem?_cons_zero]
  rw [ht, hc]
  dsimp only
  rw [hl]
  simp only [List.map_cons, List.map_nil, hspot]
  rw [if_neg hplace]
  dsimp only [List.findSome?_cons, List.findSome?_nil]
  simp only [List.filterMap_cons, List.filterMap_nil, List.flatMap_cons, List.flatMap_nil, List.any_cons, List.any_nil, List.append_nil, hlog, hbuf, hpromo,
    Bool.or_false, Bool.false_eq_true, if_false, List.foldl_cons, List.foldl_nil, hgo]

/-- The frame granted for a page makes it valid, its bytes 0 (R154). -/
theorem execDemandMapComplete_maps {ctx pa base : Nat} {va : DWord} {l : Leaf} {f : FrameReq} {h : Nat × Nat} {mine : FrameReq → Bool} {s1 s2 s3 : State}
    (hbase : s.pageBase ctx va.toNat = some (l, base)) (hh : s.pageHome ctx base = h)
    (hmine : (fun f => f.ctx == ctx && f.demand && f.pages == [(BitVec.ofNat 64 base, l.lg)] && f.answer.isSome) = mine)
    (hf : (s.sliceAt h.1 h.2).frames.find? mine = some f) (hanswer : f.answer = some [some pa])
    (hok : pa % 2 ^ l.lg = 0 ∧ pa / 2 ^ 48 = h.1 ∧ paOk s.cxlBytes pa = true)
    (hs1 : s.modSlice h.1 h.2 (fun x => { x with frames := x.frames.filter (fun g => !mine g) }) = s1)
    (hs2 : { s1 with mem := s1.mem.filter (fun c => !decide (pa ≤ c.1 ∧ c.1 < pa + 2 ^ l.lg)) } = s2)
    (hs3 : (s2.dropRange pa (2 ^ l.lg)).setLeaf ctx l base (leafWith l.e pa 0) = s3) :
    execDemandMapComplete ctx va s = .next { s3 with
      homes := s3.homes.filter (fun h => !(h.ctx == ctx && h.va == BitVec.ofNat 64 base && !h.failed && !h.toHost)) } := by
  subst hs1 hs2 hs3 hmine hh
  unfold execDemandMapComplete
  refine congrArg Host.Outcome.next ?_
  rw [hbase]
  dsimp only
  rw [hf]
  dsimp only
  rw [hanswer]
  exact if_pos hok

/-- A page that the host asks for, and that may move, becomes host-owned (R160). -/
theorem execHostMigrationRequest_eq {ctx base : Nat} {va : DWord} {l : Leaf} {now : Bool} (hbase : s.pageBase ctx va.toNat = some (l, base))
    (hv : leafV l.e = true) (hown : leafOWN l.e ≠ 2) (hsys : leafSYS l.e = false)
    (hnow : decide (leafOWN l.e = 0 ∧ thrashes s ctx base = false ∧ s.homes.all (fun h => !h.asks ctx base) = true) = now) :
    execHostMigrationRequest ctx va s = .next (if now then
      ({ s with homes := s.homes ++ [⟨ctx, BitVec.ofNat 64 base, true, now, [], false⟩] } : State).setLeaf ctx l base (leafWith l.e (leafPA l.e) 1)
      else { s with homes := s.homes ++ [⟨ctx, BitVec.ofNat 64 base, true, now, [], false⟩] }) := by
  subst hnow
  unfold execHostMigrationRequest
  refine congrArg Host.Outcome.next ?_
  rw [hbase]
  dsimp only
  rw [hv, hsys, if_neg (by simpa using hown)]
  simp only [decide_eq_true_eq]

theorem asks_iff {h : HomeReq} {ctx base : Nat} : h.asks ctx base = true ↔ h.ctx = ctx ∧ h.va = BitVec.ofNat 64 base ∧ h.failed = false := by
  unfold HomeReq.asks
  rw [Bool.and_eq_true, Bool.and_eq_true, beq_iff_eq, beq_iff_eq, Bool.not_eq_true', and_assoc]

/-- Settles O44: each event finds what it waits for and acts on the page's entry, its requests or its log. -/
theorem pageEvents : Obligations.PageEvents := by
  unfold Obligations.PageEvents
  refine ⟨?_, fun s die slice frames f q r hf hq hnone => execFrameGrant_answers hf hq hnone,
    fun s ctx pa va l base f hbase hf hanswer hal hdie hok => execDemandMapComplete_maps hbase rfl rfl hf hanswer ⟨hal, hdie, hok⟩ rfl rfl rfl,
    ?_, ?_, ?_, ?_, fun s s1 ctx va l base o gone t c x pas hbase hone ht hc hl hspot hway holder hstores hgo =>
      execSideLogReplay_performs hbase hone ht hc hl hspot hway holder hstores hgo⟩
  · intro s die core ctx va hctx hva hmiss l read
    change execWalkComplete die core ctx va s = _
    unfold execWalkComplete
    refine congrArg Host.Outcome.next (if_neg ?_)
    rw [hctx, hmiss]
    simpa using hva
  · intro s ctx va l base hbase hv hsys asked
    refine ⟨fun hown hreqs hcalm => ?_, fun hown ⟨h, hh, hctx, hpage, hopen⟩ => ?_⟩
    · have hnone : s.homes.all (fun h => !h.asks ctx base) = true := by
        refine List.all_eq_true.2 (fun h hh => Bool.not_eq_true' _ ▸ Bool.eq_false_iff.2 (fun hasks => ?_))
        obtain ⟨hctx, hpage, hopen⟩ := asks_iff.1 hasks
        rw [hreqs h hh hctx hpage] at hopen
        cases hopen
      exact execHostMigrationRequest_eq hbase hv (by omega) hsys (decide_eq_true ⟨hown, hcalm, hnone⟩)
    · refine execHostMigrationRequest_eq hbase hv hown hsys (decide_eq_false (fun hnow => ?_))
      have hno := List.all_eq_true.1 hnow.2.2 h hh
      rw [asks_iff.2 ⟨hctx, hpage, hopen⟩] at hno
      cases hno
  · intro s ctx va data l base h hbase hreq hv hown hto hbegun hquiet s1
    change execMigrationComplete ctx va data s = _
    unfold execMigrationComplete
    refine congrArg Host.Outcome.next ?_
    rw [hbase]
    dsimp only
    rw [hreq]
    dsimp only
    rw [hv, hown, hto, hbegun, hquiet, if_neg (by decide), if_neg (by simp)]
    rfl
  · intro s ctx va data l base h hbase hreq hv hown hto hcalm pa s2 s3
    change execMigrationComplete ctx va data s = _
    unfold execMigrationComplete
    refine congrArg Host.Outcome.next ?_
    rw [hbase]
    dsimp only
    rw [hreq]
    dsimp only
    rw [hv, hown, hto, hcalm]
    rfl
  · intro s ctx va l base frame at_ hbase hpin hown hsys hover hquiet s1
    change execThrottleExpiry ctx va s = _
    unfold execThrottleExpiry
    refine congrArg Host.Outcome.next ?_
    rw [hbase]
    dsimp only
    rw [hpin]
    refine if_neg ?_
    rw [hown, hsys, hquiet]
    simpa using hover

end Sys2Proof.Claims
end

section
/-!
PROOFS. The units of a core: taps, emulation, oculus, gangs, cupola.
-/

namespace Sys2Proof.Machine

theorem failedIn_congr {s s' : State} (h : s.failed = s'.failed) (tid : Nat) (rs : List (Nat × Nat)) : s.failedIn tid rs = s'.failedIn tid rs := by
  unfold State.failedIn State.eccAt
  rw [h]

end Sys2Proof.Machine

namespace Sys2Proof.Claims
open Sys2Proof.Machine

variable {s : State}

/-- A RESID operation at the head of its core's oculus, its lines present and their data good, retires with its results (R319). -/
theorem execOculusCompare_retires {die core tid role : Nat} {r : List (Nat × Nat)} {k : Iss} {o : ResidOps} {q : Sel}
    (hq : (s.coreAt die core).oculus = (tid, role) :: r) (hk : State.iss? { s with sel := some (.sect tid role) } = some k)
    (hres : k.sec.oculus = some q) (ho : residOps k q = some o) (hsound : s.failedIn k.team.tid o.reads = none)
    (hhere : touch s tid (o.lines ++ o.added k.team (residAll o k.team).1) = .ok) :
    execOculusCompare die core s = .next (modOwn k ((retireWith k (((s.modTeam tid (fun t => { t with scratch := (residAll o k.team).1.scratch })).pmAdd
        die core 7 (o.added k.team (residAll o k.team).1).length).pmAdd die core 8 ((residAll o k.team).2.2 - (o.added k.team (residAll o k.team).1).length))
        (k.th.orFlags (residAll o k.team).2.1).advance).modCore die core (fun x => { x with oculus := r })) (fun c => { c with oculus := none })) := by
  unfold execOculusCompare
  refine congrArg Host.Outcome.next ?_
  rw [hq]
  dsimp only
  rw [hk]
  dsimp only
  rw [hres]
  dsimp only [Option.bind_some]
  rw [ho]
  dsimp only
  rw [hhere]
  dsimp only
  refine unlessFailed_go ?_ _ _
  rw [failedIn_congr (s' := s) (by rw [modOwn_failed]; rfl), hsound]

/-- Settles O45: each unit finds its operation ready and carries it out. -/
theorem unitEvents : Obligations.UnitEvents := by
  unfold Obligations.UnitEvents
  refine ⟨?_, ?_, fun s die core tid role r k o q hq hk hres ho hsound hhere => execOculusCompare_retires hq hk hres ho hsound hhere, ?_, ?_, ?_⟩
  · intro s tid role c hc
    change execMatrixWriteback tid role s = _
    unfold execMatrixWriteback
    rw [hc]
  · intro s tid role k r hk hemu hwait
    change execFmtEmuComplete tid role s = _
    unfold execFmtEmuComplete
    refine congrArg Host.Outcome.next ?_
    rw [hk]
    dsimp only
    rw [hemu]
    exact if_pos hwait
  · intro s lid gang die hopen hdue g s1
    exact congrArg Host.Outcome.next (if_pos ⟨hopen, List.contains_iff_mem.2 hdue⟩)
  · intro s die ctx v r c hbell hgoing s1 a hodd hlive hal hin hrec
    change execCupolaDoorbell die s = _
    unfold execCupolaDoorbell
    refine congrArg Host.Outcome.next ?_
    rw [hbell, hgoing]
    dsimp only
    rw [if_neg (by rw [not_or]; exact ⟨by omega, Bool.eq_false_iff.1 hlive⟩), if_neg (by rw [not_or, Classical.not_not, Bool.not_eq_false]; exact ⟨hal, hin⟩), hrec]
  · intro s die idx peer c hc
    have hround : exec (.cupolaRound die idx peer) s = .next (if c.log2n ≤ c.round then compEnd s die idx c (tsets 0 [] peer)
        else if (c.parts.getD (Nat.xor c.rank (2 ^ c.round)) (0, 0)).1 ≠ 0xFFFF then s.setComp die idx (some (c.merged (tsets 0 [] peer)))
        else match s.rankComp c (Nat.xor c.rank (2 ^ c.round)) with
        | none => s
        | some (d, j, x) =>
          if !c.agrees x then cupolaSplit s die idx c d j x
          else if x.round ≠ c.round then s
          else (s.setComp die idx (some (c.merged x.image))).setComp d j (some (x.merged c.image))) := by
      change execCupolaRound die idx peer s = _
      unfold execCupolaRound
      rw [hc] <;> rfl
    refine ⟨fun hend => ?_, fun hmid haway => ?_, fun d j x hmid hhere hx hsame => ⟨fun hagree => ?_, fun hsplit => ?_⟩⟩
    · rw [hround, if_pos hend]
    · rw [hround, if_neg (Nat.not_le.2 hmid), if_pos haway]
    · rw [hround, if_neg (Nat.not_le.2 hmid), if_neg (Classical.not_not.2 hhere), hx]
      dsimp only
      rw [hagree, if_neg (by decide), if_neg (Classical.not_not.2 hsame)]
    · rw [hround, if_neg (Nat.not_le.2 hmid), if_neg (Classical.not_not.2 hhere), hx]
      dsimp only
      rw [hsplit, if_pos (by decide)]

end Sys2Proof.Claims
end

section
/-!
PROOFS. Copies start, land, pause, stop; reductions of a cell.
-/

namespace Sys2Proof.Claims
open Sys2Proof.Machine

variable {s : State} {die core : Nat} {t : Team} {c : Copy}

theorem asRead_begun (h : c.begun = true) (scratch : Table Byte) : c.asRead scratch = c := by
  unfold Copy.asRead
  rw [h]
  rfl

/-- What holds of a copy's team, when it has one. -/
theorem any_team {tid : Nat} (ht : s.team? tid = some t) (f : Team → Bool) : (s.team? tid).any f = f t := by
  rw [ht]
  rfl

/-- The first waiting entry of a queue that waits for no line (R134). -/
theorem first_waiting {q r : List Copy} {skip : Copy → Bool} (hq : ∀ x ∈ q, x.started = true ∨ x.paused = true ∨ skip x = true)
    (hstarted : c.started = false) (hpaused : c.paused = false) (hskip : skip c = false) :
    ((q ++ c :: r).filter (fun c => !c.started && !c.paused)).find? (fun c => !skip c) = some c := by
  have hnone : (q.filter (fun c => !c.started && !c.paused)).find? (fun c => !skip c) = none := by
    refine List.find?_eq_none.2 (fun x hx hgo => ?_)
    obtain ⟨hmem, hwaits⟩ := List.mem_filter.1 hx
    rcases hq x hmem with h | h | h
    · rw [h] at hwaits; cases hwaits
    · rw [h, Bool.and_comm] at hwaits; cases hwaits
    · rw [h] at hgo; cases hgo
  rw [List.filter_append, List.find?_append, hnone, List.filter_cons, hstarted, hpaused]
  simp [hskip]

/-- The engine starts the oldest entry that waits for no line, with 15 or fewer at work (R134). -/
theorem execCopyStart_starts {q r : List Copy} (hrun : (s.coreAt die core).halted = false) (hq : (s.coreAt die core).copyq = q ++ c :: r)
    (hpast : ∀ x ∈ q, x.started = true ∨ x.paused = true ∨ ∃ u, s.team? x.tid = some u ∧ skipped s u x = true)
    (hroom : ((s.coreAt die core).copyq.filter (fun c => c.started && !c.paused && !(s.team? c.tid).any (fun t => idles s t c))).length < 16)
    (hstarted : c.started = false) (hpaused : c.paused = false) (ht : s.team? c.tid = some t) (hskip : skipped s t c = false)
    (htouch : copyTouch s c c.tid (sourceLines c) = .ok) : execCopyStart die core s = .next (startEntry s die core t c) := by
  unfold execCopyStart
  refine congrArg Host.Outcome.next ?_
  dsimp only
  rw [if_neg (by rw [hrun]; simpa using hroom), hq, first_waiting (skip := fun c => (s.team? c.tid).any (fun t => skipped s t c)) ?_ hstarted hpaused
    ((any_team ht _).trans hskip)]
  · dsimp only
    rw [ht, htouch]
  · exact fun x hx => (hpast x hx).imp_right (Or.imp_right (fun ⟨u, hu, hsk⟩ => (any_team hu _).trans hsk))

/-- A copy that meets a page to be resolved is paused, and asks for the page (R117). -/
theorem execCopyPause_pauses {va : Nat} (hc : (s.coreAt die core).copyq.find? (fun x => x.id == c.id && !x.paused) = some c)
    (ht : s.team? c.tid = some t) (hstarted : c.started = true) (hmeets : (copyMeets s t (c.asRead t.scratch)).1 = some va) :
    execCopyPause die core c.id s = .next ((modCopy s die core c.id (fun x => { x with paused := true, started := false })).askHome t.ctx va
      [(t.tid, copyRole + c.role)]) := by
  unfold execCopyPause
  refine congrArg Host.Outcome.next ?_
  rw [hc]
  dsimp only
  rw [ht]
  dsimp only
  rw [hstarted, Bool.true_or, if_pos rfl, hmeets]

/-- A paused copy whose pages stand is queued again behind the others, where there is room (R117, R134). -/
theorem execCopyResume_queues {shared : Bool} (hc : (s.coreAt die core).copyq.find? (fun x => x.id == c.id && x.paused) = some c)
    (ht : s.team? c.tid = some t) (hmeets : (copyMeets s t (c.asRead t.scratch)).1 = none) (hleft : leftIssue (s.coreAt die core) t = false)
    (hshared : decide (sharedUsed (s.coreAt die core) < Config.sharedCopyEntries) = shared)
    (hroom : shared = true ∨ (c.form ≠ 3 ∧ ownUsed (s.coreAt die core) c.tid c.role < 2)) :
    execCopyResume die core c.id s = .next (s.modCore die core (fun x => { x with
      copyq := x.copyq.filter (fun y => y.id != c.id) ++ [{ c with paused := false, shared := shared }] })) := by
  have hfree : (!shared && (c.form == 3 || decide (2 ≤ ownUsed (s.coreAt die core) c.tid c.role))) = false := by
    rcases hroom with h | ⟨hform, hown⟩
    · rw [h]; rfl
    · rw [beq_false_of_ne hform, decide_eq_false (Nat.not_le.2 hown), Bool.or_false, Bool.and_false]
  unfold execCopyResume
  refine congrArg Host.Outcome.next ?_
  dsimp only
  rw [hc]
  dsimp only
  rw [ht]
  dsimp only
  rw [hshared, hmeets, hleft, hfree]
  rfl

/-- A copy that has begun and fails in the data read, or meets a fault of its own, is dropped (R135). -/
theorem execCopyStop_drops {cause : Nat} (hc : (s.coreAt die core).copyq.find? (fun x => x.id == c.id) = some c) (ht : s.team? c.tid = some t)
    (hbegun : c.begun = true) (hstops : cause = 1 ∨ (cause = 0 ∧ (copyMeets s t c).2 = true)) :
    execCopyStop die core c.id cause s = .next (dropCopy s die core c) := by
  unfold execCopyStop
  refine congrArg Host.Outcome.next ?_
  rw [hc]
  dsimp only
  rw [ht]
  dsimp only
  rw [asRead_begun hbegun, hbegun]
  refine if_pos ?_
  rcases hstops with h | ⟨h, hmeets⟩
  · exact Or.inr (Or.inl ⟨h, rfl⟩)
  · exact Or.inl ⟨h, rfl, Or.inl hmeets⟩

/-! ## Reductions of a cell -/

/-- The entries of a reduction, as the four tiles of the cell have them in turn (R332). -/
theorem tiles_in_turn {a0 a1 a2 a3 : Team × Copy} (h0 : a0.1.core % 4 = 0) (h1 : a1.1.core % 4 = 1) (h2 : a2.1.core % 4 = 2) (h3 : a3.1.core % 4 = 3) :
    (List.range 4).map (fun n => [a0, a1, a2, a3].find? (fun x => x.1.core % 4 == n)) = [some a0, some a1, some a2, some a3] := by
  simp [List.range_succ, List.find?_cons, h0, h1, h2, h3]

/-- Element `j`, of `n` bytes, of an entry's source tile (R332). -/
def tileElem (n j : Nat) (x : Option (Team × Copy)) : Nat :=
  match x with
  | some x => readNat x.1.scratch ((Block.of x.2.block).soff + n * j) n
  | none => 0

/-- What the model sums for one element, from the four tiles in turn, is what the entries hold. -/
theorem map_tiles {a0 a1 a2 a3 : Team × Copy} (h0 : a0.1.core % 4 = 0) (h1 : a1.1.core % 4 = 1) (h2 : a2.1.core % 4 = 2) (h3 : a3.1.core % 4 = 3)
    {β : Type} (f : Option (Team × Copy) → β) :
    (List.range 4).map (fun n => f ([a0, a1, a2, a3].find? (fun x => x.1.core % 4 == n))) = [a0, a1, a2, a3].map (fun x => f (some x)) := by
  rw [← Function.comp_def f, ← List.map_map, tiles_in_turn h0 h1 h2 h3]
  rfl

/-- A reduction of a gang that is no cell is dropped by all that have issued it (R332). -/
theorem execTreduceComplete_drops {lid gang ord : Nat} {es : List (Team × Copy)}
    (hord : least ((s.gangTeams lid gang).flatMap (fun t => ((s.coreAt t.die t.core).copyq.filter (fun c => c.tid == t.tid && c.form == 2)).map Copy.ordinal))
      = some ord) (hes : reduceEntries s lid gang ord = es) (hstarted : ∀ e ∈ es, e.2.started = true) (hcell : cellGang s lid gang = false) :
    execTreduceComplete lid gang s = .next (es.foldl (fun s e => haltDrop s e.1.die e.1.core e.2) s) := by
  unfold execTreduceComplete
  refine congrArg Host.Outcome.next ?_
  dsimp only
  rw [hord]
  dsimp only
  rw [hes, if_neg (Bool.eq_false_iff.1 (List.any_eq_false.2 (fun e he => by rw [hstarted e he]; decide))), hcell]
  rfl

/-- Four entries of a cell that agree, their sources good and present, complete together (R185, R332). -/
theorem execTreduceComplete_sums {lid gang ord : Nat} {a0 a1 a2 a3 : Team × Copy}
    (hord : least ((s.gangTeams lid gang).flatMap (fun t => ((s.coreAt t.die t.core).copyq.filter (fun c => c.tid == t.tid && c.form == 2)).map Copy.ordinal))
      = some ord) (hes : reduceEntries s lid gang ord = [a0, a1, a2, a3]) (hstarted : ∀ e ∈ [a0, a1, a2, a3], e.2.started = true)
    (hcell : cellGang s lid gang = true) (hthere : ∀ t ∈ s.gangTeams lid gang, t.bank ≠ .gone)
    (h0 : a0.1.core % 4 = 0) (h1 : a1.1.core % 4 = 1) (h2 : a2.1.core % 4 = 2) (h3 : a3.1.core % 4 = 3)
    (hagree : ∀ e ∈ [a0, a1, a2, a3], (Block.of e.2.block).bytes = (Block.of a0.2.block).bytes ∧ bits e.2.gmode.toNat 4 9 = bits a0.2.gmode.toNat 4 9 ∧
      (∀ l ∈ copyLines (Block.of e.2.block) none, s.eccAt (.team e.1.tid (128 * l)) 128 = false) ∧
      copyTouch s e.2 e.1.tid (copyLines (Block.of e.2.block) none) = .ok) :
    execTreduceComplete lid gang s = .next ([a0, a1, a2, a3].foldl (landSum (reduceSum a0.2.gmode (Block.of a0.2.block).bytes
      ([a0, a1, a2, a3].map (fun e => (e.1.scratch, (Block.of e.2.block).soff)))) (Block.of a0.2.block).bytes) s) := by
  have hall {f : Team × Copy → Bool} (h : ∀ e ∈ [a0, a1, a2, a3], f e = false) : ¬ [a0, a1, a2, a3].any f = true :=
    Bool.eq_false_iff.1 (List.any_eq_false.2 (fun e he => Bool.eq_false_iff.1 (h e he)))
  have hbanks : (!cellGang s lid gang || (s.gangTeams lid gang).any (fun t => t.bank == .gone && decide (t.treduces ≤ ord))) = false := by
    rw [hcell, Bool.not_true, Bool.false_or]
    exact List.any_eq_false.2 (fun t ht => by rw [beq_false_of_ne (hthere t ht), Bool.false_and]; exact Bool.false_ne_true)
  have hmodes : ∀ e ∈ [a0, a1, a2, a3], ((Block.of e.2.block).bytes != (Block.of a0.2.block).bytes ||
      bits e.2.gmode.toNat 4 9 != bits a0.2.gmode.toNat 4 9) = false := by
    intro e he
    obtain ⟨hbytes, hmode, _⟩ := hagree e he
    rw [hbytes, hmode, bne_self_eq_false, bne_self_eq_false]
    rfl
  have hgood : ∀ e ∈ [a0, a1, a2, a3], (copyLines (Block.of e.2.block) none).any (fun l => s.eccAt (.team e.1.tid (128 * l)) 128) = false := by
    intro e he
    obtain ⟨_, _, hecc, _⟩ := hagree e he
    exact List.any_eq_false.2 (fun l hl => Bool.eq_false_iff.1 (hecc l hl))
  unfold execTreduceComplete
  refine congrArg Host.Outcome.next ?_
  dsimp only
  rw [hord]
  dsimp only
  rw [hes, if_neg (hall (fun e he => by rw [hstarted e he]; rfl)), hbanks, if_neg Bool.false_ne_true, if_neg (by simp)]
  dsimp only
  rw [if_neg (hall hmodes), if_neg (hall hgood), if_neg (hall (fun e he => by rw [(hagree e he).2.2.2]))]
  refine congrArg (fun sum => [a0, a1, a2, a3].foldl (landSum sum (Block.of a0.2.block).bytes) s) ?_
  unfold reduceSum
  dsimp only
  generalize (if tyInt (gType a0.2.gmode) then tyBits (gType a0.2.gmode) / 8 else (tyFmt (gType a0.2.gmode)).width / 8) = n
  exact congrArg (fun f => List.flatMap f _) (funext (fun j => congrArg (fun vs => toBytes n (reduceElem a0.2.gmode vs))
    (map_tiles h0 h1 h2 h3 (tileElem n j))))

/-- Settles O46: the engine's events by what they find in the queue, and the reductions of a cell. -/
theorem copyEvents : Obligations.CopyEvents := by
  unfold Obligations.CopyEvents
  refine ⟨fun s die core c t q r hrun hq hpast hroom hstarted hpaused ht hskip htouch =>
      execCopyStart_starts hrun hq hpast hroom hstarted hpaused ht hskip htouch, ?_,
    fun s die core va t c hc ht hstarted hmeets => execCopyPause_pauses hc ht hstarted hmeets,
    fun s die core t c hc ht hmeets hleft hroom => execCopyResume_queues hc ht hmeets hleft rfl hroom,
    fun s die core t c hc ht hbegun => ⟨execCopyStop_drops hc ht hbegun (Or.inl rfl), fun hmeets => execCopyStop_drops hc ht hbegun (Or.inr ⟨rfl, hmeets⟩)⟩,
    ?_⟩
  · intro s die core n t c i hc hform hi
    change execSectorLanding die core c.id n s = _
    unfold execSectorLanding
    refine congrArg Host.Outcome.next ?_
    rw [hc]
    dsimp only
    rw [if_neg hform, hi]
  · intro s lid gang ord es hord hes hstarted
    refine ⟨fun hcell => execTreduceComplete_drops hord hes hstarted hcell, fun a0 a1 a2 a3 hfour hcell hthere h0 h1 h2 h3 hagree => ?_⟩
    subst hfour
    exact execTreduceComplete_sums hord hes hstarted hcell hthere h0 h1 h2 h3 hagree

end Sys2Proof.Claims
end

section
/-!
PROOFS. Parking, bank swaps, restores and wake requests.
-/

namespace Sys2Proof.Machine

/-- A change of a die is what it makes of the die as it stands. -/
theorem modDie_congr {s : State} {die : Nat} {f g : Die → Die} (h : f (s.dieAt die) = g (s.dieAt die)) : s.modDie die f = s.modDie die g := by
  unfold State.modDie
  rw [h]

/-- The wake request of a context, the only one of its die and with none kept for want of room, leaves the list (R142). -/
theorem wakeServed_only {s : State} {die ctx : Nat} (hwake : (s.dieAt die).wake = [ctx]) (hhome : (s.ctxAt ctx).homeDie = die)
    (hkept : ∀ x ∈ s.contexts, x.2.wakeKept = false) : s.wakeServed ctx = s.modDie die (fun d => { d with wake := [] }) := by
  have hnone : s.contexts.find? (fun x => x.2.wakeKept && x.2.homeDie == die) = none :=
    List.find?_eq_none.2 (fun x hx => by rw [hkept x hx, Bool.false_and]; exact Bool.false_ne_true)
  unfold State.wakeServed
  dsimp only
  rw [hhome, hwake, hnone]
  rw [if_neg (by simp)]
  exact modDie_congr (by rw [hwake]; simp)

/-- A fold whose step changes nothing for any of the list. -/
theorem foldl_id {α σ : Type} {f : σ → α → σ} {s : σ} {l : List α} (h : ∀ x ∈ l, f s x = s) : l.foldl f s = s := by
  induction l with
  | nil => rfl
  | cons x l ih => rw [List.foldl_cons, h x List.mem_cons_self, ih (fun y hy => h y (List.mem_cons_of_mem x hy))]

end Sys2Proof.Machine

namespace Sys2Proof.Claims
open Sys2Proof.Machine

variable {s : State} {die core : Nat}

/-- A core for which a team waits that does not fit parks its candidate (R131). -/
theorem execDemandPark_parks {t : Team} {w : Nat × Option Nat} (hkept : s.keptFor die core = none)
    (hdrain : ∀ u ∈ s.inBank die core .active, u.draining = false) (hcand : s.candidate die core = some t) (hat : atBoundaries t = true)
    (hw : s.waiter die core t = some w) (hfits : s.waiterFits die core w = false) :
    execDemandPark die core s = .next (((s.modTeam t.tid (fun u => { u with draining := true, secs := u.secs.map (parkSec 0) })).modCore die core
      (fun x => { x with parkFor := some w })).pmAdd die core 0x0A 1) := by
  unfold execDemandPark
  refine congrArg Host.Outcome.next ?_
  rw [if_neg (Bool.eq_false_iff.1 (List.any_eq_false.2 (fun u hu => by rw [hdrain u hu, Bool.false_and]; exact Bool.false_ne_true))), hcand]
  dsimp only
  rw [hat, hkept, Option.orElse_none, hw]
  dsimp only
  rw [hfits]
  rfl

/-- A draining team's image, its pages standing, is written and the team leaves (R113, R114). -/
theorem execImageDrainComplete_leaves {t : Team} (ht : s.team? t.tid = some t) (hdrain : t.draining = true) (hat : s.imageAt t .store = .ok) :
    (t.bank = .active → mayLeave t = true → s.copiesAtWork t = false → s.parkRoom t.die t.core 1 = true →
      execImageDrainComplete t.tid s = .next (drainDone (s.imageOut t) t)) ∧
    (t.bank = .shadow → s.parkRoom t.die t.core (s.inBank t.die t.core .shadow).length = true →
      execImageDrainComplete t.tid s = .next (shadowDrainDone (s.imageOut t) t)) := by
  unfold execImageDrainComplete
  rw [ht]
  dsimp only
  rw [hdrain]
  refine ⟨fun hbank hleave hcopies hroom => ?_, fun hbank hroom => ?_⟩
  · rw [hbank, hleave, hcopies, hroom, hat]
    rfl
  · rw [hbank, hat]
    exact congrArg Host.Outcome.next (if_pos hroom)

/-- A context's saved images, their pages standing, are read into the empty shadow bank (R113). -/
theorem execShadowFillComplete_fills {ctx : Nat} {ts : List Team} {s1 : State} (hctx : (s.coreAt die core).ctx ≠ some ctx)
    (hempty : (s.coreAt die core).shadow = .empty) (hts : s.fillTeams die core ctx = ts) (hsome : ts ≠ []) (hat : s.fillAt ts = .ok)
    (hs1 : { ts.foldl State.fillImage s with teams := (ts.foldl State.fillImage s).teams.map (fun t => match ts.find? (fun u => u.tid == t.tid) with
      | some u => { t with bank := .shadow, base := u.base, draining := false }
      | none => t) } = s1) :
    execShadowFillComplete die core ctx s = .next (s1.modCore die core (fun x => { x with
      shadow := .full, shadowCtx := some ctx, parked := x.parked.filter (fun p => !ts.any (fun t => t.tid == p)) })) := by
  subst hs1
  unfold execShadowFillComplete
  refine congrArg Host.Outcome.next ?_
  dsimp only
  rw [hts, hempty, if_neg (by simp [hctx]), if_neg (by simpa using hsome), hat] <;> rfl

/-- A safe point that pre-emption waits for, with no team that can be discarded: the sections of the core leave issue (R116). -/
theorem execPreemptSafePoint_parks (hpre : (s.coreAt die core).preempt = true) (hsafe : s.safePoint die core = true)
    (hfill : (s.coreAt die core).shadow ≠ .filling) (hkeep : ∀ t ∈ s.inBank die core .active, mayDiscard t = false) :
    ∃ t, execPreemptSafePoint die core s = .next t ∧
      t.teams = s.teams.map (fun t => if t.die = die ∧ t.core = core ∧ t.bank = .active then { t with secs := t.secs.map (parkSec 2) } else t) ∧
      t.mem = s.mem ∧ t.contexts = s.contexts := by
  have hnone : (s.inBank die core .active).filter mayDiscard = [] := List.filter_eq_nil_iff.2 (fun t ht => Bool.eq_false_iff.1 (hkeep t ht))
  unfold execPreemptSafePoint
  rw [if_neg (by rw [hpre, hsafe]; decide), hnone, List.foldl_nil]
  dsimp only
  rw [beq_false_of_ne hfill]
  refine ⟨_, rfl, ?_, rfl, rfl⟩
  rw [modCore_teams]
  exact List.map_congr_left (fun t _ => by simp only [and_true])

/-- Settles O47: each event finds what it waits for and moves the team, the bank or the request. -/
theorem teamEvents : Obligations.TeamEvents := by
  unfold Obligations.TeamEvents
  refine ⟨fun s die core t w hkept hdrain hcand hat hw hfits => execDemandPark_parks hkept hdrain hcand hat hw hfits,
    fun s t ht hdrain hat => execImageDrainComplete_leaves ht hdrain hat, ?_,
    fun s die core ctx hctx hempty hsome hat => execShadowFillComplete_fills hctx hempty rfl hsome hat rfl, ?_, ?_,
    fun s die core hpre hsafe hfill hkeep _ => execPreemptSafePoint_parks hpre hsafe hfill hkeep, ?_, ?_⟩
  · intro s s1 die core t
    refine ⟨fun role hfind hrole hgo => ?_, fun hnone hnext hat hgo => ?_⟩
    · change execTeamRestore die core s = _
      unfold execTeamRestore
      rw [hfind]
      dsimp only
      rw [hrole, Option.getD_some, hgo]
    · have hfirst : (s.inBank die core .active).find? (fun t => (repliedInPlace t).isSome) = none :=
        List.find?_eq_none.2 (fun u hu => by rw [hnone u hu]; exact Bool.false_ne_true)
      have himage : (if t.discarded then ImageAt.ok else s.imageAt t .load) = .ok := by
        rcases hat with h | h
        · rw [h]; rfl
        · rw [h, ite_self]
      change execTeamRestore die core s = _
      unfold execTeamRestore
      rw [hfirst]
      dsimp only
      rw [hnext]
      dsimp only
      rw [himage]
      dsimp only
      rw [hgo]
  · intro s die core hpre hfill hsafe hleft inc out s1 s2 s3
    refine congrArg Host.Outcome.next (if_neg ?_)
    rw [hpre, hsafe]
    simp only [Bool.not_true, Bool.false_eq_true, hfill, false_or, List.any_eq_true, not_exists, Bool.true_eq_false]
    rintro t ⟨ht, c, hc, hstays⟩
    rcases hleft t ht c hc with h | h <;> rw [h] at hstays <;> cases hstays
  · exact fun s die core hstage => congrArg Host.Outcome.next (if_pos hstage)
  · intro s die ctx hwake hover hhome hkept
    change execContextWake die s = _
    unfold execContextWake
    refine congrArg Host.Outcome.next ?_
    rw [hwake, List.foldl_cons, List.foldl_nil, if_pos hover, wakeServed_only hwake hhome hkept]
    dsimp only
    rw [dieAt_modDie, if_pos rfl]
    rfl
  · intro s die ctx q r hwake hover hfull hroom
    have hfirst : (s.dieAt die).wake.find? (fun ctx => !(s.wakeCores ctx).isEmpty) = some ctx := by
      rw [hwake, List.find?_append, List.find?_eq_none.2 (fun c hc => by rw [hfull c hc]; decide), List.find?_cons, Option.none_or]
      rw [List.isEmpty_eq_false_iff.2 hroom]
      rfl
    change execContextWake die s = _
    unfold execContextWake
    refine congrArg Host.Outcome.next ?_
    rw [foldl_id (fun c hc => if_neg (Bool.eq_false_iff.1 (hover c hc)))]
    dsimp only
    rw [hfirst]

end Sys2Proof.Claims
end

section
/-!
PROOFS. Packets, placement, completion and service requests.
-/

namespace Sys2Proof.Claims
open Sys2Proof.Machine

variable {s : State}

/-- A pending packet is read at its queue's head, and the head moves on when it has been taken (R122, R125). -/
theorem execPacketRead_reads {part q : Nat} {x : Queue} {bs : List Byte} {s1 : State} {r : State × Bool} (hstage : s.stage = .s2)
    (hroom : (s.launches.filter (fun l => l.part == part && !l.complete)).length < 256) (hq : s.nextQueue part = some (q, x))
    (hs1 : { s with turn := tset 0 s.turn (queueTurn part x.prio.toNat) (q + 1) } = s1)
    (hbs : s1.ctxRead x.ctx.toNat (x.base.toNat + 64 * (x.head.toNat % 2 ^ (x.log2.toNat + 4))) 64 = .bytes bs) (hr : takePacket s1 q x part 0 bs = r) :
    execPacketRead part 0 s =
      .next (if r.2 then { r.1 with queues := tset ⟨0, false, false, 0, 0, 0, 0, 0⟩ r.1.queues q { x with head := x.head + 1 } } else r.1) := by
  obtain ⟨t, b⟩ := r
  unfold execPacketRead
  refine congrArg Host.Outcome.next ?_
  rw [if_neg (by rw [not_or, Classical.not_not, Nat.not_le]; exact ⟨hstage, hroom⟩), hq]
  dsimp only
  rw [if_neg (by decide), hs1, hbs]
  dsimp only
  rw [hr]
  cases b <;> rfl

/-- The next gang of a launch is placed where it is planned, and logged (R127, R139). -/
theorem execTeamPlace_places {s1 : State} {l : Launch} {p : Plan} (hl : s.launch? l.lid = some l) (hstage : s.stage = .s2)
    (holder : ∀ q ∈ s.launches, q.part = l.part → q.lid < l.lid → s.planFor q = none) (hreplay : l.pkt.replay = false) (hp : s.planFor l = some p)
    (hlog : s.logPlaces l p.cores = .go s1) : execTeamPlace l.lid s = .next (placeGang s1 l p) := by
  have hnone : ¬ (s.launches.filter (fun q => q.part == l.part && decide (q.lid < l.lid))).any (fun q => (s.planFor q).isSome) = true := by
    intro hany
    obtain ⟨q, hq, hplan⟩ := List.any_eq_true.1 hany
    obtain ⟨hmem, hand⟩ := List.mem_filter.1 hq
    rw [Bool.and_eq_true, beq_iff_eq, decide_eq_true_eq] at hand
    rw [holder q hmem hand.1 hand.2] at hplan
    cases hplan
  unfold execTeamPlace
  refine congrArg Host.Outcome.next ?_
  rw [hl]
  dsimp only
  rw [if_neg (by rw [not_or, Classical.not_not]; exact ⟨hstage, hnone⟩), hreplay, hp]
  simp only [Bool.false_and, Bool.false_eq_true, if_false]
  rw [hlog]

/-- A launch all of whose teams have gone, with nothing of it left, is complete (R126). -/
theorem execLaunchComplete_completes {l : Launch} (hl : s.launch? l.lid = some l) (hopen : l.complete = false) (hplaced : l.placed = l.pkt.grid)
    (hgone : ∀ t ∈ s.teams, t.lid = l.lid → t.bank = .gone) (hquiet : s.launchQuiet l.lid = true) (hepoch : l.pkt.det = true → l.epochClosed = true) :
    execLaunchComplete l.lid s = .next (s.modLaunch l.lid (fun l => { l with complete := true })) := by
  have hteams : s.teams.all (fun t => t.lid != l.lid || t.bank == .gone) = true := List.all_eq_true.2 (fun t ht => by
    by_cases hlid : t.lid = l.lid
    · rw [hgone t ht hlid]; simp
    · simp [hlid])
  have hclosed : l.pkt.det = false ∨ l.epochClosed = true := by
    cases hdet : l.pkt.det with
    | false => exact Or.inl rfl
    | true => exact Or.inr (hepoch hdet)
  unfold execLaunchComplete
  rw [hl]
  exact congrArg Host.Outcome.next (if_pos ⟨by rw [hopen]; rfl, hplaced, hteams, hquiet, hclosed⟩)

/-- The word of a complete launch: none where DONE is 0, and at its place where its page stands (R126). -/
theorem execCompletionWordWrite_writes {l : Launch} (hl : s.launch? l.lid = some l) (hcomplete : l.complete = true) (hopen : l.wordDone = false) :
    (l.pkt.done = 0 → execCompletionWordWrite l.lid s = .next (launchOver s l)) ∧
    (∀ pa pinned, l.pkt.done ≠ 0 → addrClass l.pkt.done.toNat = 0 → addrZeros l.pkt.done.toNat = true →
      s.translateNow l.ctx .store l.pkt.done.toNat = .ok pa pinned →
      execCompletionWordWrite l.lid s = .next (launchOver (s.physWrite pa (toBytes 8 (l.queue * 2 ^ 48 + l.number.toNat))) l)) := by
  unfold execCompletionWordWrite
  rw [hl]
  dsimp only
  rw [if_neg (by rw [hcomplete, hopen]; decide)]
  refine ⟨fun hnone => ?_, fun pa pinned hsome hcl hz hok => ?_⟩
  · rw [hnone] <;> rfl
  · rw [if_neg (c := l.pkt.done.toNat = 0) (fun h => hsome (BitVec.eq_of_toNat_eq h)), if_neg (by rw [hcl, hz]; decide), hok] <;> rfl

/-- A request is served by its number (R340, R392). -/
theorem execServiceRequestServe_serves {die slice : Nat} {r : SvcReq}
    (hr : (s.sliceAt die slice).reqs.find? (fun q => q.seq == r.seq && (!q.served || (q.nowait && !q.delivered))) = some r) (hopen : r.served = false)
    (hlive : (s.ctxAt r.ctx).ended = false) (host : List DWord) :
    execServiceRequestServe die slice r.seq host s = .next (
      if r.num = 1 then serveAlloc s die slice r
      else if r.num = 2 then serveFree s die slice r
      else if r.num = 3 then postReply (hostAtomics s r.ctx r.args host).1 die slice r (hostAtomics s r.ctx r.args host).2
      else postReply s die slice r (r.args.map (fun _ => replyBytes 0 1))) := by
  unfold execServiceRequestServe
  rw [hr]
  dsimp only
  rw [hlive, hopen]
  rfl

/-- Settles O48: each event finds what it waits for and moves the packet, the launch or the request. -/
theorem launchEvents : Obligations.LaunchEvents := by
  unfold Obligations.LaunchEvents
  refine ⟨fun s part q x bs hstage hroom hq hbs => execPacketRead_reads hstage hroom hq rfl hbs rfl,
    fun s s1 l p hl hstage holder hreplay hp hlog => execTeamPlace_places hl hstage holder hreplay hp hlog,
    fun s l hl hopen hplaced hgone hquiet hepoch => execLaunchComplete_completes hl hopen hplaced hgone hquiet hepoch,
    fun s l hl hcomplete hopen => execCompletionWordWrite_writes hl hcomplete hopen, ?_, ?_⟩
  · intro s tid role t c w ws ht hc hw hperf hfits
    change Host.Outcome.next (s.tryPost tid role) = _
    unfold State.tryPost
    rw [ht, hc]
    dsimp only
    rw [hw]
    dsimp only
    rw [hperf, hfits]
    rfl
  · intro s die slice r hr hopen hlive
    refine ⟨fun host hnum => ?_, fun host hnum => ?_, fun host hnum => ?_, fun reply hfind hlow hhigh hlen => ?_⟩
    · exact (execServiceRequestServe_serves hr hopen hlive host).trans (congrArg Host.Outcome.next (if_pos hnum))
    · refine (execServiceRequestServe_serves hr hopen hlive host).trans (congrArg Host.Outcome.next ?_)
      rw [if_neg (by omega), if_pos hnum]
    · refine (execServiceRequestServe_serves hr hopen hlive host).trans (congrArg Host.Outcome.next ?_)
      rw [if_neg (by omega), if_neg (by omega), if_pos hnum]
    · change execHostRuntimeServiceReply die slice r.seq reply s = _
      unfold execHostRuntimeServiceReply
      refine congrArg Host.Outcome.next ?_
      rw [hfind]
      dsimp only
      rw [if_neg (by omega), if_neg (Bool.eq_false_iff.1 hlive)]

end Sys2Proof.Claims
end

section
/-!
PROOFS. Host writes by their names.
-/

namespace Sys2Proof.Machine

/-! ## What an aligned write brings -/

theorem mergeWord_whole (old off : Nat) (v : DWord) : mergeWord old off 8 v.toNat = v.toNat := Nat.mod_eq_of_lt v.isLt

/-- A write of 8 bytes, aligned, is applied as it is (R370). -/
theorem hostWrite_bar0 {s : State} (hready : s.cfgReady = true) {off : Nat} (hal : off % 8 = 0) (v : DWord) :
    hostWrite s 0 off 8 v = bar0Write s off 8 v.toNat := by
  unfold hostWrite
  dsimp only
  rw [Nat.mod_eq_of_lt v.isLt, hready, hal]
  rfl

/-- A write of the size or alignment that is none is discarded (R370). -/
theorem hostWrite_discards {s : State} {bar off size : Nat} (h : size ≠ 4 ∧ size ≠ 8 ∨ off % size ≠ 0) (v : DWord) : hostWrite s bar off size v = s := by
  unfold hostWrite
  exact if_pos (by rw [decide_eq_true h, Bool.or_true])

/-- A write of 4 bytes, aligned, of BAR 2, from stage 2 on (R370). -/
theorem hostWrite_bar2 {s : State} (hready : s.cfgReady = true) (hstage : s.stage = .s2) {off : Nat} (hal : off % 4 = 0) (v : Word) :
    hostWrite s 2 off 4 (v.setWidth 64) =
      if off < 0x800000 then writeQueue s (off / 4096) (off % 4096) 4 v.toNat
      else if off < 0xC00000 then writeBell s ((off - 0x800000) / 4096) (off % 4096) 4 v.toNat
      else s := by
  have hv : (v.setWidth 64).toNat % 2 ^ (8 * 4) = v.toNat := by
    rw [BitVec.toNat_setWidth]
    have := v.isLt
    omega
  unfold hostWrite
  dsimp only
  rw [hv, hready, hal, hstage]
  rfl

/-- An aligned write into a context's descriptor (R371, R373). -/
theorem bar0Write_descriptor (s : State) {ctx o size : Nat} (hctx : ctx < 4096) (ho : o < 256) (v : Nat) :
    bar0Write s (0x100000 + 256 * ctx + o) size v = writeDescriptor s ctx o size v := by
  have hc : (0x100000 + 256 * ctx + o - 0x100000) / 256 = ctx := by omega
  have hoff : (0x100000 + 256 * ctx + o) % 256 = o := by omega
  unfold bar0Write
  dsimp only
  rw [if_neg (by omega), if_neg (by omega), if_neg (by omega), if_neg (by omega), if_neg (by omega), if_neg (by omega), if_neg (by omega),
    if_neg (by omega), if_neg (by omega), if_pos (by omega), hc, hoff]

/-! ## Registers of BAR 0 -/

theorem bar0Write_aopen (s : State) {v : DWord} (hv : v.toNat < 2) : bar0Write s 0x08 8 v.toNat = { s with aopen := v == 1 } := by
  have hbit : (v.toNat == 1) = (v == 1) := by
    rw [Bool.eq_iff_iff, beq_iff_eq, beq_iff_eq, ← BitVec.toNat_inj]
    rfl
  unfold bar0Write
  simp only [mergeWord_whole]
  rw [if_pos (by decide), if_pos hv, hbit]

theorem bar0Write_invbase (s : State) {v : DWord} (hv : v.toNat % 4096 = 0) : bar0Write s 0x10 8 v.toNat = { s with invbase := v } := by
  unfold bar0Write
  simp only [mergeWord_whole]
  rw [if_neg (by decide), if_pos (by decide), if_pos hv, BitVec.ofNat_toNat, BitVec.setWidth_eq]

theorem bar0Write_invlen (s : State) {v : DWord} (hv : v.toNat % 4096 = 0) : bar0Write s 0x18 8 v.toNat = { s with invlen := v } := by
  unfold bar0Write
  simp only [mergeWord_whole]
  rw [if_neg (by decide), if_neg (by decide), if_pos (by decide), if_pos hv, BitVec.ofNat_toNat, BitVec.setWidth_eq]

theorem bar0Write_invgo (s : State) (v : DWord) : bar0Write s 0x20 8 v.toNat = writeInv s 0x20 8 v.toNat := by
  unfold bar0Write
  simp only [mergeWord_whole]
  rw [if_neg (by decide), if_neg (by decide), if_neg (by decide), if_pos (by decide)]

theorem bar0Write_recovery (s : State) (v : DWord) : bar0Write s 0x30 8 v.toNat = recoverFrom s v.toNat := by
  unfold bar0Write
  dsimp only
  rw [if_neg (by decide), if_neg (by decide), if_neg (by decide), if_neg (by decide), if_neg (by decide), if_pos (by decide)]

theorem bar0Write_chalt (s : State) {die : Nat} (hdie : die < 4) (v : DWord) : bar0Write s (0x40 + 8 * die) 8 v.toNat = clearHalts s die v.toNat := by
  have hbase : (0x40 + 8 * die) / 8 * 8 = 0x40 + 8 * die := by omega
  have hd : (0x40 + 8 * die - 0x40) / 8 = die := by omega
  unfold bar0Write
  simp only [mergeWord_whole]
  rw [hbase, hd, if_neg (by omega), if_neg (by omega), if_neg (by omega), if_neg (by omega), if_neg (by omega), if_neg (by omega), if_pos (by omega)]

theorem bar0Write_plimit (s : State) {v : DWord} (hlo : 1800 ≤ v.toNat) (hhi : v.toNat ≤ 2800) : bar0Write s 0x80 8 v.toNat = { s with plimit := v } := by
  unfold bar0Write
  simp only [mergeWord_whole]
  rw [if_neg (by decide), if_neg (by decide), if_neg (by decide), if_neg (by decide), if_neg (by decide), if_neg (by decide), if_neg (by decide),
    if_pos (by decide), if_pos ⟨hlo, hhi⟩, BitVec.ofNat_toNat, BitVec.setWidth_eq]

/-- The registers of BAR 0, by their names (R71, R371). -/
theorem registerWrites {s : State} (v : DWord) (hready : s.cfgReady = true) :
    (v.toNat < 2 → exec (.registerWrite 0 0x08 8 v) s = .next { s with aopen := v == 1 }) ∧
    (v.toNat % 4096 = 0 → exec (.registerWrite 0 0x10 8 v) s = .next { s with invbase := v }) ∧
    (v.toNat % 4096 = 0 → exec (.registerWrite 0 0x18 8 v) s = .next { s with invlen := v }) ∧
    (1800 ≤ v.toNat → v.toNat ≤ 2800 → exec (.registerWrite 0 0x80 8 v) s = .next { s with plimit := v }) ∧
    (∀ bar off size, size ≠ 4 ∧ size ≠ 8 ∨ off % size ≠ 0 → exec (.registerWrite bar off size v) s = .next s) ∧
    (s.invJob = none → bits v.toNat 32 16 = 0 → exec (.invgo v) s = .next { s with
      invctx := BitVec.ofNat 16 (bits v.toNat 48 16), invgo := BitVec.ofNat 32 v.toNat, invJob := some (bits v.toNat 48 16, s.invbase.toNat, s.invlen.toNat) }) ∧
    (s.invJob ≠ none → bits v.toNat 32 16 = 0 → exec (.invgo v) s = .next { s with inverr := true }) ∧
    (∀ die, die < 4 → exec (.chalt die v) s = .next (clearHalts s die v.toNat)) ∧
    exec (.firmwareRecovery v) s = .next (recoverFrom s v.toNat) := by
  have hinv (hresv : bits v.toNat 32 16 = 0) : hostWrite s 0 0x20 8 v = if s.invJob.isSome then { s with inverr := true }
      else { s with invctx := BitVec.ofNat 16 (bits v.toNat 48 16), invgo := BitVec.ofNat 32 v.toNat
                    invJob := some (bits v.toNat 48 16, s.invbase.toNat, s.invlen.toNat) } := by
    rw [hostWrite_bar0 hready rfl, bar0Write_invgo]
    unfold writeInv
    rw [if_neg (Classical.not_not.2 hresv)]
    exact if_pos (Or.inl rfl)
  refine ⟨fun hv => congrArg Host.Outcome.next ?_, fun hv => congrArg Host.Outcome.next ?_, fun hv => congrArg Host.Outcome.next ?_,
    fun hlo hhi => congrArg Host.Outcome.next ?_, fun bar off size h => congrArg Host.Outcome.next (hostWrite_discards h v),
    fun hjob hresv => congrArg Host.Outcome.next ?_, fun hjob hresv => congrArg Host.Outcome.next ?_,
    fun die hdie => congrArg Host.Outcome.next ((if_pos hdie).trans ?_), congrArg Host.Outcome.next ?_⟩
  · rw [hostWrite_bar0 hready rfl, bar0Write_aopen s hv]
  · rw [hostWrite_bar0 hready rfl, bar0Write_invbase s hv]
  · rw [hostWrite_bar0 hready rfl, bar0Write_invlen s hv]
  · rw [hostWrite_bar0 hready rfl, bar0Write_plimit s hlo hhi]
  · rw [hinv hresv, hjob]
    rfl
  · rw [hinv hresv, if_pos (Option.isSome_iff_ne_none.2 hjob)]
  · rw [hostWrite_bar0 hready (by omega), bar0Write_chalt s hdie]
  · rw [hostWrite_bar0 hready rfl, bar0Write_recovery]

/-! ## Queues -/

/-- A tail within the capacity is stored (R123, R372). -/
theorem execLaunchQueueDoorbell_stores {s : State} {q : Nat} (hready : s.cfgReady = true) (hstage : s.stage = .s2) (hq : q < 2048) {v : Word}
    (hcap : (v - (tget queue0 s.queues q).head).toNat ≤ 2 ^ ((tget queue0 s.queues q).log2.toNat + 4)) :
    execLaunchQueueDoorbell q v s = .next { s with queues := tset queue0 s.queues q { tget queue0 s.queues q with tail := v } } := by
  have hdiv : (4096 * q + 0x18) / 4096 = q := by omega
  have hmod : (4096 * q + 0x18) % 4096 = 0x18 := by omega
  unfold execLaunchQueueDoorbell
  rw [if_pos hq, hostWrite_bar2 hready hstage (by omega), if_pos (by omega), hdiv, hmod]
  refine congrArg Host.Outcome.next ?_
  unfold writeQueue
  dsimp only
  rw [if_neg (by decide), if_neg (by decide), if_pos (by decide)]
  unfold writeQtail
  dsimp only
  rw [BitVec.ofNat_toNat, BitVec.setWidth_eq, if_neg (Nat.not_lt.2 hcap)]

/-- A legal QCTL of a queue that is off and without error is stored (R121). -/
theorem execQctlWrite_stores {s : State} {q : Nat} (hready : s.cfgReady = true) (hstage : s.stage = .s2) (hq : q < 2048) {v : DWord}
    (hres1 : bits v.toNat 58 4 = 0) (hres2 : bits v.toNat 0 36 = 0) (hlog : bits v.toNat 52 4 ≤ 12) (hen : (tget queue0 s.queues q).en = false)
    (herr : (tget queue0 s.queues q).err = false) :
    execQctlWrite q v s = .next { s with queues := tset queue0 s.queues q { tget queue0 s.queues q with
      en := bits v.toNat 63 1 == 1, err := false, prio := BitVec.ofNat 2 (bits v.toNat 56 2), log2 := BitVec.ofNat 4 (bits v.toNat 52 4)
      ctx := BitVec.ofNat 16 (bits v.toNat 36 16) } } := by
  have hdiv : (4096 * q + 0x08) / 4096 = q := by omega
  have hmod : (4096 * q + 0x08) % 4096 = 0x08 := by omega
  have hal : (4096 * q + 0x08) % 8 = 0 := by omega
  have hwrite : hostWrite s 2 (4096 * q + 0x08) 8 v = writeQctl s q v.toNat := by
    unfold hostWrite
    dsimp only
    rw [Nat.mod_eq_of_lt v.isLt, hready, hal, hstage, hdiv, hmod, if_neg (by decide), if_neg (by decide), if_neg (by decide), if_pos rfl, if_pos (by omega)]
    rfl
  unfold execQctlWrite
  rw [if_pos hq, hwrite]
  refine congrArg Host.Outcome.next ?_
  unfold writeQctl
  dsimp only
  rw [hen, herr, if_neg (by omega), Bool.false_and, Bool.false_and, Bool.and_false]
  rfl

/-! ## Contexts -/

/-- CTL as a context's descriptor holds it (R373). -/
theorem word_ctl (x : Context) : x.word 120 = b2n x.enabled + x.homeDie * 2 ^ 4 + x.part * 2 ^ 8 := rfl

/-- A write of CTL that leaves its other fields as they stand (R373). -/
theorem writeCtl_fields {s : State} {ctx home part en : Nat} (hpart : part < 16) (hhome : home < 4) (hen : en < 2) :
    writeCtl s ctx (en + home * 2 ^ 4 + part * 2 ^ 8) =
      if (s.ctxAt ctx).enabled then (if !(en == 1) && part == (s.ctxAt ctx).part then disableCtx s ctx else s)
      else if en == 1 then enableCtx s ctx part else s.modCtx ctx (fun x => { x with part := part }) := by
  have h0 : bits (en + home * 2 ^ 4 + part * 2 ^ 8) 0 1 = en := by unfold bits; omega
  have h1 : bits (en + home * 2 ^ 4 + part * 2 ^ 8) 1 3 = 0 := by unfold bits; omega
  have h6 : bits (en + home * 2 ^ 4 + part * 2 ^ 8) 6 2 = 0 := by unfold bits; omega
  have h8 : bits (en + home * 2 ^ 4 + part * 2 ^ 8) 8 4 = part := by unfold bits; omega
  unfold writeCtl
  dsimp only
  rw [h0, h1, h6, h8, if_neg (by omega)]

/-- CTL with EN as given, as its fields (R373). -/
theorem ctlWith_toNat {s : State} {ctx en : Nat} (hpart : (s.ctxAt ctx).part < 16) (hhome : (s.ctxAt ctx).homeDie < 4) (hen : en < 2) :
    (ctlWith s ctx en).toNat = en + (s.ctxAt ctx).homeDie * 2 ^ 4 + (s.ctxAt ctx).part * 2 ^ 8 := by
  have hb : b2n (s.ctxAt ctx).enabled < 2 := by unfold b2n; split <;> omega
  unfold ctlWith
  rw [word_ctl, BitVec.toNat_ofNat]
  omega

/-- A write of CTL, by the host (R373). -/
theorem hostWrite_ctl {s : State} (hready : s.cfgReady = true) {ctx : Nat} (hctx : ctx < 4096) (v : DWord) :
    hostWrite s 0 (0x100000 + 256 * ctx + 120) 8 v = writeCtl s ctx v.toNat := by
  rw [hostWrite_bar0 hready (by omega), bar0Write_descriptor s hctx (by decide)]
  unfold writeDescriptor
  dsimp only
  rw [if_neg (by decide), mergeWord_whole]
  cases (s.ctxAt ctx).enabled <;> rfl

/-- EN starts and ends a context; LOGHEAD is stored (R139, R373). -/
theorem contextWrites {s : State} {ctx : Nat} (hready : s.cfgReady = true) (hctx : ctx < 4096) :
    ((s.ctxAt ctx).enabled = false → (s.ctxAt ctx).part < 16 → (s.ctxAt ctx).homeDie < 4 →
      exec (.contextEnable ctx) s = .next (enableCtx s ctx (s.ctxAt ctx).part)) ∧
    ((s.ctxAt ctx).enabled = true → (s.ctxAt ctx).part < 16 → (s.ctxAt ctx).homeDie < 4 →
      exec (.contextEndRequest ctx) s = .next (disableCtx s ctx)) ∧
    (∀ v : Word, exec (.loghead ctx v) s = .next (s.modCtx ctx (fun x => { x with loghead := v }))) := by
  refine ⟨fun hoff hpart hhome => congrArg Host.Outcome.next ((if_pos hctx).trans ?_),
    fun hon hpart hhome => congrArg Host.Outcome.next ((if_pos hctx).trans ?_), fun v => congrArg Host.Outcome.next ((if_pos hctx).trans ?_)⟩
  · rw [hostWrite_ctl hready hctx, ctlWith_toNat hpart hhome (by decide), writeCtl_fields hpart hhome (by decide), hoff]
    rfl
  · rw [hostWrite_ctl hready hctx, ctlWith_toNat hpart hhome (by decide), writeCtl_fields hpart hhome (by decide), hon]
    exact (if_pos rfl).trans (if_pos (by simp))
  · have hv : (v.setWidth 64).toNat % 2 ^ (8 * 4) = v.toNat := by
      rw [BitVec.toNat_setWidth]
      have := v.isLt
      omega
    have hal : (0x100000 + 256 * ctx + 36) % 4 = 0 := by omega
    unfold hostWrite
    dsimp only
    rw [hv, hready, hal, if_neg (by decide), if_pos rfl, bar0Write_descriptor s hctx (by decide)]
    unfold writeDescriptor
    rw [if_pos (by decide), BitVec.ofNat_toNat, BitVec.setWidth_eq]

/-! ## Doorbell pages and debug windows -/

/-- A store of a target to a doorbell page sends (R374). -/
theorem execDoorbellSend_sends {s : State} {page : Nat} (hready : s.cfgReady = true) (hstage : s.stage = .s2) (hpage : page < 1024) {v : Word}
    (hv : v.toNat < 2 ^ 22) : execDoorbellSend page v s = .next (bellSend s page v.toNat) := by
  have hdiv : (0x800000 + 4096 * page + 8 - 0x800000) / 4096 = page := by omega
  have hmod : (0x800000 + 4096 * page + 8) % 4096 = 8 := by omega
  unfold execDoorbellSend
  rw [if_pos hpage, hostWrite_bar2 hready hstage (by omega), if_neg (by omega), if_pos (by omega), hdiv, hmod]
  unfold writeBell
  dsimp only
  rw [if_neg (by decide), if_pos ⟨rfl, rfl, hv⟩]

/-- A debug window's write, from stage 2 on (R370). -/
theorem dbgEvent_writes {s : State} {ctx : Nat} (hstage : s.stage = .s2) (hctx : ctx < 4096) (off size v : Nat) :
    dbgEvent s ctx off size v = dbgWrite s ctx off size v := if_pos ⟨hstage, hctx⟩

/-- A command of a debug window for the selected section (R375). -/
theorem dbgCmd_selected {s : State} {ctx l v : Nat} {t : Team} {c : Section} (hsel : s.selected ctx = some (t, c, l)) (hv : v ≠ 3) :
    dbgCmd s ctx v = if v = 1 then dbgMark (s.modSec t.tid c.role requestHold) ctx false
      else if v = 2 ∧ c.state = .held then dbgMark (releaseSec s t c) ctx false
      else dbgMark s ctx true := by
  unfold dbgCmd
  rw [if_neg hv, hsel]

/-- The commands of a debug window, and its SEL (R375). -/
theorem debugWrites {s : State} {ctx : Nat} (hstage : s.stage = .s2) (hctx : ctx < 4096) :
    exec (.debugHoldAll ctx) s = .next (dbgMark { s with teams := s.teams.map (fun t =>
      if t.ctx = ctx ∧ t.bank ≠ .gone then { t with secs := t.secs.map requestHold } else t) } ctx false) ∧
    (∀ t c l, s.selected ctx = some (t, c, l) →
      exec (.debugHold ctx) s = .next (dbgMark (s.modSec t.tid c.role requestHold) ctx false) ∧
      (c.state = .held → exec (.debugRelease ctx) s = .next (dbgMark (releaseSec s t c) ctx false))) ∧
    (∀ v : DWord, v.toNat < 2 ^ 36 →
      exec (.debugWindowWrite ctx 0 v) s = .next (dbgMark (s.modCtx ctx (fun x => { x with dbgSel := v })) ctx false)) := by
  refine ⟨congrArg Host.Outcome.next (dbgEvent_writes hstage hctx _ _ _), fun t c l hsel => ⟨congrArg Host.Outcome.next ?_,
    fun hheld => congrArg Host.Outcome.next ?_⟩, fun v hv => congrArg Host.Outcome.next ?_⟩
  · exact (dbgEvent_writes hstage hctx _ _ _).trans ((dbgCmd_selected (v := 1) hsel (by decide)).trans (if_pos rfl))
  · refine (dbgEvent_writes hstage hctx _ _ _).trans ((dbgCmd_selected (v := 2) hsel (by decide)).trans ?_)
    rw [if_neg (by decide), if_pos ⟨rfl, hheld⟩]
  · have hput : dbgPut s ctx 0 8 v.toNat = some (s.modCtx ctx (fun x => { x with dbgSel := v })) := by
      unfold dbgPut
      dsimp only
      rw [mergeWord_whole, if_pos (by decide), if_pos hv, BitVec.ofNat_toNat, BitVec.setWidth_eq]
    refine (if_pos (by decide)).trans ((dbgEvent_writes hstage hctx _ _ _).trans ?_)
    rw [show v.toNat % 2 ^ (8 * dbgSize 0) = v.toNat from Nat.mod_eq_of_lt v.isLt, show dbgSize 0 = 8 from rfl]
    unfold dbgWrite
    rw [if_neg (by decide), hput]

end Sys2Proof.Machine

namespace Sys2Proof.Claims
open Sys2Proof.Machine

/-- Settles O49: each named write is a write of its register, queue, descriptor, page or window. -/
theorem hostWrites : Obligations.HostWrites := by
  unfold Obligations.HostWrites
  exact ⟨fun s v hready => registerWrites v hready,
    fun s q hready hstage hq => ⟨fun v hcap => execLaunchQueueDoorbell_stores hready hstage hq hcap,
      fun v hres1 hres2 hlog hen herr => execQctlWrite_stores hready hstage hq hres1 hres2 hlog hen herr⟩,
    fun s ctx hready hctx => contextWrites hready hctx,
    fun s page v hready hstage hpage hv => execDoorbellSend_sends hready hstage hpage hv,
    fun s ctx hstage hctx => debugWrites hstage hctx⟩

end Sys2Proof.Claims
end

section
/-!
PROOFS. Start-up, power, partitions, failures and counts.
-/

namespace Sys2Proof.Machine

/-! ## What ends contexts leaves which are enabled -/

/-- Whether a context is enabled, and whether it has ended (R75, R373). -/
def liveness (x : Context) : Bool × Bool := (x.enabled, x.ended)

theorem liveness_modCtx (s : State) (c x : Nat) {f : Context → Context} (hf : ∀ y, liveness (f y) = liveness y) :
    liveness ((s.modCtx c f).ctxAt x) = liveness (s.ctxAt x) := by
  rw [ctxAt_modCtx]
  split
  · next hx => rw [hf, hx]
  · rfl

/-- Posting a record leaves which contexts are enabled and which have ended (R143, R373). -/
theorem liveness_post (s : State) (r : Rec) (c : Nat) : liveness ((s.post r).ctxAt c) = liveness (s.ctxAt c) := by
  unfold State.post
  simp only
  split
  · rfl
  · split
    · rw [sysWrite_ctxAt]
      exact liveness_modCtx s _ _ (fun _ => rfl)
    · refine (liveness_modCtx _ _ _ ?_).trans (by simp)
      exact fun _ => rfl

/-- The end of a context ends it alone, and leaves it enabled (R75). -/
theorem liveness_endContext (s : State) (x code : Nat) (a : DWord) (r : Rec) (c : Nat) :
    liveness ((endContext s x code a r).ctxAt c) = ((s.ctxAt c).enabled, decide (c = x) || (s.ctxAt c).ended) := by
  unfold endContext
  split
  · next hended =>
    by_cases hc : c = x
    · rw [hc, hended]; simp [liveness, hended]
    · simp [liveness, hc]
  · refine (liveness_post _ _ _).trans ?_
    refine (congrArg liveness (ctxAt_congr (b := s.modCtx x (fun y => { y with ended := true, endCode := BitVec.ofNat 8 code, endAddr := a })) ?_ c)).trans ?_
    · rfl
    rw [ctxAt_modCtx]
    split
    · next hc => rw [hc]; simp [liveness]
    · next hc => simp [liveness, hc]

theorem liveness_foldl_end (code : Nat) (f : Nat → Rec) (l : List Nat) (s : State) (c : Nat) :
    liveness ((l.foldl (fun s c => endContext s c code 0 (f c)) s).ctxAt c) = ((s.ctxAt c).enabled, l.contains c || (s.ctxAt c).ended) := by
  induction l generalizing s with
  | nil => simp [liveness]
  | cons x l ih =>
    obtain ⟨henabled, hended⟩ := Prod.mk.inj (liveness_endContext s x code 0 (f x) c)
    rw [List.foldl_cons, ih, henabled, hended, List.contains_cons]
    have hx : (c == x) = decide (c = x) := rfl
    rw [hx]
    cases decide (c = x) <;> cases l.contains c <;> rfl

theorem tget_default {α : Type} {d : α} {t : Table α} {k : Nat} (h : k ∉ t.map Prod.fst) : tget d t k = d := by
  induction t with
  | nil => rfl
  | cons x t ih =>
    rw [List.map_cons, List.mem_cons, not_or] at h
    obtain ⟨k', v⟩ := x
    rw [tget, if_neg h.1, ih h.2]

/-- When every context ends, each that is enabled has ended (R380, R382). -/
theorem endAll_ends (s : State) (code c : Nat) (henabled : ((endAll s code (fun _ _ => true)).ctxAt c).enabled = true) :
    ((endAll s code (fun _ _ => true)).ctxAt c).ended = true := by
  unfold endAll at henabled ⊢
  obtain ⟨hkept, hended⟩ := Prod.mk.inj (liveness_foldl_end code (fun c => recOf 0x10 c)
    ((s.contexts.map Prod.fst).filter (fun c => (s.ctxAt c).enabled && !(s.ctxAt c).ended && true)) s c)
  rw [hkept] at henabled
  rw [hended]
  cases hwas : (s.ctxAt c).ended with
  | true => exact Bool.or_true _
  | false =>
    have hmem : c ∈ s.contexts.map Prod.fst := by
      refine Decidable.byContradiction (fun hout => ?_)
      have hnone : s.ctxAt c = ctx0 := tget_default hout
      rw [hnone] at henabled
      cases henabled
    rw [Bool.or_false, List.contains_iff_mem]
    exact List.mem_filter.2 ⟨hmem, by rw [henabled, hwas]; rfl⟩

theorem ctxAt_postDev (s : State) (r : Rec) (c : Nat) : (s.postDev r).ctxAt c = s.ctxAt c := by
  unfold State.postDev
  split <;> rfl

/-- The arrays whose corrected errors are counted have the numbers below 584 (R194). -/
theorem eccArray_isSome {n : Nat} (hn : n < 584) : (eccArray n).isSome = true := by
  unfold eccArray
  repeat' split
  all_goals rfl

end Sys2Proof.Machine

namespace Sys2Proof.Claims
open Sys2Proof.Machine

variable {s : State}

/-- The firmware image, in start-up (R380, R381). -/
theorem execStage1Complete_checks {header body : List Byte} (hstage : s.stage = .s0) (hready : s.cfgReady = true) (hflash : s.recover = none) :
    (∀ v, checkImage s.fusedMin.toNat ((header ++ body).take 128) ((header ++ body).drop 128) = .ok v →
      execStage1Complete header body true s = .next { s with fusedMin := BitVec.ofNat 32 v, stage := .s1, recover := none }) ∧
    (∀ c, checkImage s.fusedMin.toNat ((header ++ body).take 128) ((header ++ body).drop 128) = .error c → ∀ trained,
      execStage1Complete header body trained s = .next { s with stage := .failed, cause := BitVec.ofNat 8 c, recover := none }) := by
  unfold execStage1Complete
  refine ⟨fun v hv => ?_, fun c hc trained => ?_⟩
  · rw [if_neg (by rw [hstage, hready]; decide), hflash]
    dsimp only
    rw [hv]
    rfl
  · rw [if_neg (by rw [hstage, hready]; decide), hflash]
    dsimp only
    rw [hc]
    rfl

/-- A partition takes whole cells that no other has, while no context exists on it (R378). -/
theorem execPartitionChange_takes {part : Nat} {cells : List Nat} (hstage : s.stage = .s2) (hpart : part < 16)
    (hfree : ∀ x ∈ s.contexts, x.2.part = part → x.2.exists_ = false) (hnodup : cells.Nodup) (hcells : ∀ c ∈ cells, c < 64)
    (hothers : ∀ x ∈ s.parts, x.1 ≠ part → ∀ c ∈ cells, c ∉ x.2)
    (hdies : ∀ d < 4, (((s.parts.filter (fun x => x.1 != part)).flatMap Prod.snd ++ cells).filter (fun c => c / 16 == d)).length ≤ 15) :
    execPartitionChange part cells s = .next { s with
      parts := tset [] s.parts part cells, turn := tsets 0 s.turn ((List.range 5).map (fun i => (5 * part + i, 0))) } := by
  have hidle : s.contexts.any (fun x => x.2.exists_ && x.2.part == part) = false := List.any_eq_false.2 (fun x hx hbusy => by
    rw [Bool.and_eq_true, beq_iff_eq] at hbusy
    rw [hfree x hx hbusy.2] at hbusy
    cases hbusy.1)
  have hown : cells.any (fun c => decide (64 ≤ c) || ((s.parts.filter (fun x => x.1 != part)).flatMap Prod.snd).contains c) = false :=
    List.any_eq_false.2 (fun c hc htaken => by
      rw [decide_eq_false (Nat.not_le.2 (hcells c hc)), Bool.false_or, List.contains_iff_mem, List.mem_flatMap] at htaken
      obtain ⟨x, hx, hin⟩ := htaken
      obtain ⟨hmem, hne⟩ := List.mem_filter.1 hx
      exact hothers x hmem (by simpa using hne) c hc hin)
  have hroom : (List.range 4).all (fun d =>
      decide ((((s.parts.filter (fun x => x.1 != part)).flatMap Prod.snd ++ cells).filter (fun c => c / 16 == d)).length ≤ 15)) = true :=
    List.all_eq_true.2 (fun d hd => decide_eq_true (hdies d (List.mem_range.1 hd)))
  unfold execPartitionChange
  refine congrArg Host.Outcome.next (if_neg ?_)
  rw [hidle, hown, hroom, hstage]
  simp [hnodup, hpart]

/-- An answer of the host for a page that a page home has asked for (R369). -/
theorem execPageRequestResponse_eq {ctx : Nat} {va : DWord} {l : Leaf} {base : Nat} (hbase : s.pageBase ctx va.toNat = some (l, base))
    (hown : leafOWN l.e = 2) (hasked : ∃ h ∈ s.homes, h.ctx = ctx ∧ h.va = BitVec.ofNat 64 base ∧ h.toHost = false ∧ h.failed = false) (ok : Bool) :
    execPageRequestResponse ctx va ok s = .next (if ok then { s with
      ats := s.ats.filter (fun p => !decide (leafPA l.e / 4096 ≤ p ∧ p < leafPA l.e / 4096 + 2 ^ (l.lg - 12)))
      homes := s.homes.filter (fun h => !(h.ctx == ctx && h.va == BitVec.ofNat 64 base && !h.failed && !h.toHost)) }
      else s.homeFails ctx base l.lg) := by
  have hany : s.homes.any (fun h => h.ctx == ctx && h.va == BitVec.ofNat 64 base && !h.toHost && !h.failed) = true := by
    obtain ⟨h, hh, hctx, hva, hto, hfailed⟩ := hasked
    exact List.any_eq_true.2 ⟨h, hh, by rw [hctx, hva, hto, hfailed]; simp⟩
  unfold execPageRequestResponse
  refine congrArg Host.Outcome.next ?_
  rw [hbase]
  dsimp only
  rw [hany, hown, if_neg (by decide)]

/-- Settles O50: each event of start-up, power, translation, partition and failure, where it is allowed. -/
theorem deviceEvents : Obligations.DeviceEvents := by
  unfold Obligations.DeviceEvents
  refine ⟨fun s hstage => congrArg Host.Outcome.next (if_pos hstage), fun s hstage => congrArg Host.Outcome.next (if_pos hstage),
    fun s header body hstage hready hflash => execStage1Complete_checks hstage hready hflash, ?_, ?_, ?_, ?_, ?_,
    fun s ctx va l base hbase hown hasked => ⟨execPageRequestResponse_eq hbase hown hasked true, execPageRequestResponse_eq hbase hown hasked false⟩,
    fun s => rfl, fun s peer ctx vec pay hstage hctx hvec => congrArg Host.Outcome.next (if_pos ⟨hstage, hctx, hvec⟩),
    fun s part cells hstage hpart hfree hnodup hcells hothers hdies => execPartitionChange_takes hstage hpart hfree hnodup hcells hothers hdies,
    fun s page token hpage => congrArg Host.Outcome.next (if_pos hpage), ?_, fun s port hstage => congrArg Host.Outcome.next (if_neg (Classical.not_not.2 hstage)),
    fun s die slice hstage => congrArg Host.Outcome.next (if_neg (Classical.not_not.2 hstage)), ?_,
    fun s ctx henabled => congrArg Host.Outcome.next (if_pos henabled)⟩
  · intro s cxl ports peers hstage hcxl
    exact ⟨_, congrArg Host.Outcome.next (if_neg (by rw [not_or, Classical.not_not, Nat.not_lt]; exact ⟨hstage, hcxl⟩)), rfl, rfl, rfl, rfl, rfl, rfl⟩
  · intro s up hstage hnever f hlo hhi
    change execClockStep up s = _
    unfold execClockStep
    rw [hnever]
    exact congrArg Host.Outcome.next (if_pos ⟨hstage, rfl, hlo, hhi⟩)
  · intro s hstage
    refine ⟨congrArg Host.Outcome.next (if_neg hstage), bootFail (endEvery s) 4, congrArg Host.Outcome.next (if_neg hstage), rfl, rfl, fun c henabled => ?_⟩
    have hctx : (bootFail (endEvery s) 4).ctxAt c = (endAll s 0 (fun _ _ => true)).ctxAt c := ctxAt_postDev _ _ c
    rw [hctx] at henabled ⊢
    exact endAll_ends s 0 c henabled
  · intro s ctx base len hjob
    change execInvalidationComplete s = _
    unfold execInvalidationComplete
    rw [hjob]
  · intro s page hhost hquiet hfresh
    refine congrArg Host.Outcome.next (if_neg ?_)
    rw [hhost, hquiet]
    simpa using hfresh
  · intro s die block ctx hdie hblock hexists
    refine congrArg Host.Outcome.next (if_neg ?_)
    rw [hexists, not_or, not_or, Nat.not_le, Nat.not_le]
    exact ⟨hdie, hblock, Bool.noConfusion⟩
  · intro s array harray
    obtain ⟨a, ha⟩ := Option.isSome_iff_exists.1 (eccArray_isSome harray)
    change execEccCorrected array s = _
    unfold execEccCorrected
    dsimp only
    rw [ha]
    exact congrArg (fun n => Host.Outcome.next { s with eccCounts := tset 0 s.eccCounts array n }) (ite_congr rfl id (fun _ => rfl))

end Sys2Proof.Claims
end

section
/-!
PROOFS. What a step does: the agenda's acts, the ports' picks, the fetched and decoded word.
-/

namespace Sys2Proof.Machine

/-! ## Time and the fetch leave what is asked for next -/

theorem pmAdd_focus (s : State) (d c e n : Nat) : (s.pmAdd d c e n).focus = s.focus := by
  unfold State.pmAdd
  dsimp only
  split <;> rfl

theorem perfCycles_focus (s : State) (d c n : Nat) : (perfCycles s d c n).focus = s.focus := by
  unfold perfCycles
  dsimp only
  split <;> simp only [pmAdd_focus]

theorem foldl_perfCycles_focus (l : List Nat) (n : Nat) (s : State) : (l.foldl (fun s x => perfCycles s (x / 64) (x % 64) n) s).focus = s.focus := by
  induction l generalizing s with
  | nil => rfl
  | cons x l ih => rw [List.foldl_cons, ih, perfCycles_focus]

/-- The time of a step leaves the port that is looked at next (R87). -/
theorem tick_focus (s : State) : (tick s).focus = s.focus := by
  unfold tick
  split
  · rfl
  · exact foldl_perfCycles_focus _ _ _

/-- The fetch of a word leaves who issues (R199). -/
theorem fetchWord_sel {s t : State} {x : Team} {key va : Nat} {w : Word} (h : fetchWord s x key va = .word w t) : t.sel = s.sel := by
  revert h
  unfold fetchWord
  repeat' split
  all_goals
    intro h
    injection h
  next e => rw [← e]
  next e => rw [← e]; rfl

/-! ## The outcome of a step -/

theorem step_run {s s' : State} {i : Instr} (h : nextOf (tick s) = .run i s') : step s = settled s' (exec i s') := by
  unfold step
  rw [h]

theorem step_done {s s' : State} (h : nextOf (tick s) = .done s') : step s = .next s' := by
  unfold step
  rw [h]

/-- What an event answers is the step (R15). -/
theorem settled_event {s : State} (h : s.sel = none) (r : Res) : settled s r = r := by
  unfold settled
  rw [h]

/-- What an instruction of a section leaves (R67, R129). -/
theorem settled_section {s t : State} {k : Iss} {tid role : Nat} (hsel : s.sel = some (.sect tid role)) (hk : s.iss? = some k) :
    settled s (.next t) = .next (settle k t) := by
  unfold settled
  rw [hsel, hk]

theorem agenda_self {s : State} {r : List Act} (h : s.agenda = r) : { s with agenda := r } = s := by
  subst h
  rfl

/-- The port that issues, the head of the agenda or the one in focus (R129). -/
theorem nextOf_issue {s : State} {d c port : Nat} {r : List Act}
    (h : (tick s).agenda = .issue d c port :: r ∨ ((tick s).agenda = [] ∧ r = [] ∧ s.focus = (d, c, port))) :
    nextOf (tick s) = issueOn { tick s with agenda := r } d c port := by
  rcases h with h | ⟨hempty, hr, hfocus⟩
  · unfold nextOf
    rw [h]
  · subst hr
    rw [agenda_self hempty]
    unfold nextOf
    rw [hempty, tick_focus, hfocus]

/-! ## The picked section -/

/-- A picked section of which nothing is asked issues its pass (R76). -/
theorem issueSection_pass {s : State} {t : Team} {c : Section} (hquiet : asked s t c = false) (hfree : s.uiHeld t c = false) (port : Nat) :
    issueSection s t c port = issuePass s t c port := by
  have hasked := hquiet
  simp only [asked, Bool.or_eq_false_iff] at hasked
  obtain ⟨⟨⟨⟨hstep, hhold⟩, halarm⟩, hbkpt⟩, hui⟩ := hasked
  have hturn : s.uiTurn? t.ctx = none := Option.isNone_iff_eq_none.1 (by rw [← Option.not_isSome, hui]; rfl)
  unfold issueSection
  dsimp only
  rw [hquiet, hstep, hhold, hbkpt, halarm, hturn, hfree]
  simp

/-- A port below 4 issues from the section that it picks (R129). -/
theorem issueOn_pick {s : State} {d c port : Nat} {t : Team} {x : Section} (hport : port < 4) (hpick : s.pick d c port = some (t, x))
    (hquiet : asked s t x = false) (hfree : s.uiHeld t x = false) : issueOn s d c port = issuePass s t x port := by
  unfold issueOn
  rw [if_pos hport, hpick]
  exact issueSection_pass hquiet hfree port

end Sys2Proof.Machine

namespace Sys2Proof.Claims
open Sys2Proof.Machine

variable {s : State} {d c port : Nat} {t : Team} {x : Section} {k : Iss}

/-- The last of the section's ports issues its instruction (R15, R17). -/
theorem Issues.issueOn_eq (h : Issues s d c port t x k) : issueOn s d c port = match issueAt (issuing s t x) k with
    | .done s => .done (settle k s)
    | n => n := by
  rw [issueOn_pick h.port4 h.picked h.quiet h.free]
  unfold issuePass
  rw [h.last]
  exact congrArg (fun o : Option Iss => match o with
    | some k => (match issueAt (issuing s t x) k with
      | .done s => Next.done (settle k s)
      | n => n)
    | none => .done (issuing s t x)) h.issuer

/-- An instruction that no word holds back is fetched and executed (R199, R205). -/
theorem Issues.step_exec {s' s1 s2 : State} {i : Instr} {w : Word} (h : Issues s d c port t x k) (hnext : nextOf (tick s') = issueOn s d c port)
    (hw : fetchWord (issuing s t x) k.team k.homeKey k.th.pc.toNat = .word w s1) (hi : decode w = .ok i) (htaps : k.sec.taps = [] ∨ besideTaps i = true)
    (hexec : exec i s1 = .next s2) : step s' = .next (settle k s2) := by
  have hgo : (k.sec.taps.isEmpty || besideTaps i) = true := by
    rcases htaps with htaps | htaps
    · rw [htaps]; rfl
    · rw [htaps, Bool.or_true]
  have hissue : issueAt (issuing s t x) k = .run i s1 := by
    unfold issueAt
    rw [hw]
    dsimp only
    rw [hi]
    exact if_pos hgo
  rw [step_run (hnext.trans (h.issueOn_eq.trans (by rw [hissue]))), hexec]
  exact settled_section (fetchWord_sel hw) ((fetchWord_iss? hw).trans h.issuer)

/-- A fetch or a decoding that ends in a trap or a wait is the step (R78, R205, R206). -/
theorem Issues.step_done {s' s1 : State} (h : Issues s d c port t x k) (hnext : nextOf (tick s') = issueOn s d c port)
    (hissue : issueAt (issuing s t x) k = .done s1) : step s' = .next (settle k s1) :=
  Machine.step_done (hnext.trans (h.issueOn_eq.trans (by rw [hissue])))

/-- After its last pass the section is marked for every lane of its path (R67, R129). -/
theorem settle_retired {y : Section} (hc : s.sec? k.team.tid k.sec.role = some y) (hretired : y.retired = k.sec.retired + 1) :
    settle k s = { markIssue (modOwn k s (fun c => { c with granted := [] })) k.team k.sec k.path with stalled := [] } := by
  have hne : y.retired ≠ k.sec.retired := by omega
  have hlanes : passLanes k y = k.path := if_pos hne
  unfold settle
  rw [hc]
  dsimp only
  rw [hlanes, if_neg (fun hboth => hne hboth.2)]

/-- A word that the core has not fetched before is read at its home (R199, R216). -/
theorem fetchWord_reads {role va pa : Nat} {pinned : Bool} (hva : va < 2 ^ 49) (hal : va % 4 = 0)
    (hok : s.translate t.die t.core t.ctx .fetch va = .ok pa pinned) (hmiss : ∀ x ∈ (s.coreAt t.die t.core).ibuf, x.1 ≠ pa / 4)
    (hsound : s.eccAt (.phys [(pa, 4)]) 4 = false) :
    ∃ s1, fetchWord s t role va = .word (bytesWord (s.homeRead pa 4)) s1 ∧ s1.mem = s.mem ∧ s1.teams = s.teams ∧ s1.contexts = s.contexts := by
  have hnone : (s.coreAt t.die t.core).ibuf.find? (fun x => x.1 == pa / 4) = none :=
    List.find?_eq_none.2 (fun x hx => by rw [beq_iff_eq]; exact hmiss x hx)
  unfold fetchWord
  rw [if_neg (Nat.not_le.2 hva), if_neg (Classical.not_not.2 hal), hok]
  dsimp only
  rw [hnone]
  dsimp only
  rw [hsound, if_neg Bool.false_ne_true]
  exact ⟨_, rfl, rfl, rfl, rfl⟩

/-- Settles O56: the step is what `nextOf` names, for each head of the agenda and each pick. -/
theorem stepRunsDecoded : Obligations.StepRunsDecoded := by
  unfold Obligations.StepRunsDecoded
  refine ⟨fun s e r hhead => ?_, fun s sp r => ⟨fun hhead => step_done ?_, fun hhead => step_done ?_⟩, fun s pa bs r hhead hplaces => step_done ?_,
    fun s ctx m w th n r => ⟨fun hhead hm1 hm2 hw1 hw2 ht1 ht2 => step_done ?_, fun hhead => step_done ?_⟩, ?_, ?_,
    fun k s y hc hretired => settle_retired hc hretired,
    fun s t role va pa pinned hva hal hok hmiss hsound => fetchWord_reads hva hal hok hmiss hsound⟩
  · have hnext : nextOf (tick s) = runEvent e.val { tick s with agenda := r } := by
      unfold nextOf
      rw [hhead]
    exact (step_run hnext).trans (settled_event rfl _)
  · unfold nextOf
    rw [hhead]
  · unfold nextOf
    rw [hhead]
  · have hall : (List.range bs.length).all (fun i => paOk (tick s).cxlBytes (pa + i)) = true :=
      List.all_eq_true.2 (fun i hi => hplaces i (List.mem_range.1 hi))
    unfold nextOf
    rw [hhead]
    exact congrArg Next.done (if_pos hall)
  · unfold nextOf
    rw [hhead]
    exact congrArg Next.done (if_pos ⟨hm1, hm2, hw1, hw2, ht1, ht2⟩)
  · unfold nextOf
    rw [hhead]
  · intro s d c port t x k r hturn s0 at_ h
    have hnext : nextOf (tick s) = issueOn s0 d c port := nextOf_issue hturn
    refine ⟨fun w s1 i s2 hw hi htaps hexec => h.step_exec hnext hw hi htaps hexec, fun w s1 f hw hf => h.step_done hnext ?_,
      fun code hcode => h.step_done hnext ?_, fun s1 hwait => h.step_done hnext ?_⟩
    · unfold issueAt
      rw [show fetchWord (issuing s0 t x) _ _ _ = _ from hw]
      dsimp only
      rw [hf] <;> rfl
    · unfold issueAt
      rw [show fetchWord (issuing s0 t x) _ _ _ = _ from hcode] <;> rfl
    · unfold issueAt
      rw [show fetchWord (issuing s0 t x) _ _ _ = _ from hwait]
  · intro s d c port p t x r q hturn hport s0 hpick hleft hquiet hfree
    refine step_done ((nextOf_issue hturn).trans ((issueOn_pick hport hpick hquiet hfree).trans ?_))
    unfold issuePass
    rw [hleft]

end Sys2Proof.Claims
end
